-- ==== Sys2Proof/Word.lean ====
section
/-!
DEFINITION. The word type of the Pertal TX-960 and its plainest arithmetic (00 R5: words are 32 bits, bit 0 is the
least significant bit, multi-byte values are little-endian).
-/
namespace Sys2Proof

/-- A register lane, an instruction word, a header word: 32 bits (00 R5). -/
abbrev Word := BitVec 32

/-- A pair, a mask, an address: 64 bits (02 R50, R62). -/
abbrev DWord := BitVec 64

/-- One byte of memory. -/
abbrev Byte := BitVec 8

end Sys2Proof
end

