-- ==== Sys2Proof/Config.lean ====
section
/-!
DEFINITION. What the part fixes (00 R1, 18 R378) and the free values: constants without a body, for what the manual leaves
open, so that no proof can see which value they take.
-/
namespace Sys2Proof.Config

/-- Cores of the part (00 R1). -/
def cores : Nat := 512

/-- Bytes of local physical memory: 576 regions of 1 GiB (18 R378). -/
def localBytes : Nat := 576 * 2 ^ 30

/-- Bytes of a core's scratchpad (00 R2, 05 R138). -/
def scratchBytes : Nat := 917504

/-- Streams kept apart by the cluster of a core (18 R378). -/
def clusterOf (core : Nat) : Nat := core / 8

/-- The die of a core (18 R378). -/
def dieOf (core : Nat) : Nat := core / 128

/-- A free choice between the old and the new translation where a table changed without an invalidation (15 R343; log 6).
The argument is State.freeCtr. -/
opaque useStale : Nat → Bool

/-- Free choices about when an access performs, by State.freeCtr: whether an access to a UO page performs later than its word
(08 R201; log 52), whether a scratchpad load is served by a read buffer that an engine's write has not reached (08 R195, R224;
log 53), whether an engine path keeps a copy of what it reads or holds back what it writes (08 R195; log 54), and whether a
mark of a word that has performed still stands (01 R15; log 20). -/
opaque uoLater : Nat → Bool
opaque readsOld : Nat → Bool
opaque keepsCopy : Nat → Bool
opaque lateMark : Nat → Bool

/-- Whether the staging of an engine path holds scratchpad bytes that another path is about to overwrite, by State.clock and path
(08 R195, 12 R288; log 54). -/
opaque stagesOld : Nat → Nat → Bool

/-- A free choice among pool nodes (13 R321; log 7): the rank, among the free nodes, of the one a lane takes. -/
opaque poolPick : Nat → Nat

/-- What the fuses of a part hold: its serial, its identity key, the least firmware version, the firmware key with the hash that is
fused of it (19 R406, R407). -/
structure Fuses where
  serial  : List Byte
  idKey   : Nat
  minSvn  : Nat
  firmKey : Nat × Nat
  keyHash : List Byte
  deriving DecidableEq, Repr, Inhabited

/-- The fuses of this part and the two copies in its module's firmware store: the manual gives their layout, not their contents
(19 R406, R407; log 13). -/
opaque fuses : Fuses
opaque firmware : List Byte × List Byte

/-- The version that the recovery firmware of the boot ROM reports (19 R407, R408; log 13). -/
opaque recoverySvn : Nat

/-- The secret number of a signature, by State.freeCtr (19 R407; log 13). -/
opaque signSecret : Nat → Nat

/-- The decisions of a primary Hull controller that stand in the journal unperformed where it fails, by State.freeCtr: of each its
kind, and a group, launch or node, and a core (18 R390; log 64). -/
opaque unperformed : Nat → List (Nat × Nat × Nat)

/-- Bytes of a freeze area as one LOAD with RETAIN writes it: the manual gives their content, not their layout (18 R392; log 30).
The argument is State.freeCtr. -/
opaque freezeImage : Nat → List Byte

/-- What local memory holds after a device reset, as bytes by key, all others being 0, and the 8-byte units that carry poison (19 R418;
log 1). Every content of local memory is such a list. The argument is State.freeCtr. -/
opaque resetMem : Nat → List (Nat × Byte)
opaque resetPoison : Nat → List Nat

/-- Whether a lane of a register or of a queue's entry held a result of the cycle that a core lost: identity of the group, bundle,
designator or place, lane; and the 8-byte units of memory that did (19 R402; log 31). The first argument is State.freeCtr. -/
opaque lostLane : Nat → Nat → Nat → Nat → Nat → Bool
opaque lostUnits : Nat → List Nat

/-- Spares of a bank: row spares for 1, column spares for 2 (19 R403 gives no number). -/
opaque spareCount : Nat → Nat

end Sys2Proof.Config
end

