-- ==== Sys2Proof/Machine/Tab.lean ====
section
/-!
DEFINITION. The two containers State is built from. Tab is a finite table from a number to a value, kept sorted by number
with no repeats; a register file, the groups of the device and a page of bindings are Tabs. Bytes is memory: cells in
rising address order, none of which holds the value an unlisted address reads as.
-/
namespace Sys2Proof.Machine

/-- A finite table: entries by strictly rising key. -/
abbrev Tab (α : Type) := List (Nat × α)

/-- The entry of key k, if there is one. -/
def Tab.find? {α : Type} : Tab α → Nat → Option α
  | [], _ => none
  | (j, x) :: t, k => if j = k then some x else Tab.find? t k

/-- The entry of key k, or d where there is none. -/
def Tab.get {α : Type} (d : α) (t : Tab α) (k : Nat) : α := (Tab.find? t k).getD d

/-- The table with key k holding x. -/
def Tab.put {α : Type} : Tab α → Nat → α → Tab α
  | [], k, x => [(k, x)]
  | (j, y) :: t, k, x =>
    if k < j then (k, x) :: (j, y) :: t
    else if j = k then (k, x) :: t
    else (j, y) :: Tab.put t k x

/-- The table without key k. -/
def Tab.del {α : Type} : Tab α → Nat → Tab α
  | [], _ => []
  | (j, y) :: t, k => if j = k then Tab.del t k else (j, y) :: Tab.del t k

/-- The keys of a table, rising. -/
def Tab.keys {α : Type} (t : Tab α) : List Nat := t.map (·.1)

/-- The values of a table, by rising key. -/
def Tab.vals {α : Type} (t : Tab α) : List α := t.map (·.2)

/-- Bytes by address. An address with no cell reads as zero (the log's entry 1). -/
abbrev Bytes := List Host.Cell

/-- What an unlisted address reads as: zero (DESIGN CHOICE, log 1; 19 R418 leaves memory after reset unknown). -/
def unlistedByte : Byte := 0

/-- The byte at an address. -/
def Bytes.read : Bytes → Nat → Byte
  | [], _ => unlistedByte
  | (j, x) :: t, a => if j = a then x else Bytes.read t a

/-- The memory with the byte x at address a; a cell that would hold the unlisted value is left out. -/
def Bytes.write : Bytes → Nat → Byte → Bytes
  | [], a, x => if x = unlistedByte then [] else [(a, x)]
  | (j, y) :: t, a, x =>
    if a < j then (if x = unlistedByte then (j, y) :: t else (a, x) :: (j, y) :: t)
    else if j = a then (if x = unlistedByte then t else (a, x) :: t)
    else (j, y) :: Bytes.write t a x

/-- Every cell of m lies at b or above, addresses rise strictly, and no cell holds the unlisted value. -/
def Bytes.wfFrom : Nat → Bytes → Bool
  | _, [] => true
  | b, (j, x) :: t => decide (b ≤ j) && decide (x ≠ unlistedByte) && Bytes.wfFrom (j + 1) t

/-- The canonical form of memory: equal memories are equal lists. -/
def Memory.wf (m : Bytes) : Bool := Bytes.wfFrom 0 m

/-- Write a list of bytes from address a upward. -/
def Bytes.writeList : Bytes → Nat → List Byte → Bytes
  | m, _, [] => m
  | m, a, x :: xs => Bytes.writeList (Bytes.write m a x) (a + 1) xs

/-- n bytes from address a upward. -/
def Bytes.readList (m : Bytes) (a n : Nat) : List Byte := (List.range n).map fun i => Bytes.read m (a + i)

/-- The number little-endian bytes stand for (00 R5). -/
def leNat : List Byte → Nat
  | [] => 0
  | b :: t => b.toNat + 256 * leNat t

/-- n little-endian bytes of a number (00 R5). -/
def leBytes : Nat → Nat → List Byte
  | 0, _ => []
  | n + 1, v => BitVec.ofNat 8 v :: leBytes n (v / 256)

/-- The n words that bytes hold, little-endian (00 R5). -/
def leWords (bs : List Byte) (n : Nat) : List Word :=
  (List.range n).map fun i => BitVec.ofNat 32 (leNat ((bs.drop (4 * i)).take 4))

end Sys2Proof.Machine
end

