-- ==== Sys2Proof/Machine/Crypto.lean ====
section
/-!
DEFINITION. SHA-512, ECDSA on P-521, and the checks of a firmware copy (19 R406, R407). The manual names both functions and does not
restate them: they are those of FIPS 180-4 and FIPS 186 (PRESUMED, log 13).
-/
namespace Sys2Proof.Machine

/-! ## SHA-512 -/

/-- The integer root of degree d of n, from its highest bit down. -/
def rootFrom (d n : Nat) : Nat → Nat → Nat
  | 0, r => r
  | i + 1, r => rootFrom d n i (if (r + 2 ^ i) ^ d ≤ n then r + 2 ^ i else r)

/-- The first n primes. -/
def primesTo (lim : Nat) : List Nat := (List.range lim).filter fun p => decide (2 ≤ p) && (List.range p).all fun q => decide (q < 2) || p % q ≠ 0

/-- The round constants: 64 fraction bits of the cube roots of the first 80 primes; the start value: those of the square roots of
the first 8. -/
def shaK : List DWord := (primesTo 410).map fun p => BitVec.ofNat 64 (rootFrom 3 (p * 2 ^ 192) 70 0)
def shaH : List DWord := (primesTo 20).map fun p => BitVec.ofNat 64 (rootFrom 2 (p * 2 ^ 128) 70 0)

/-- Big-endian bytes of a number. -/
def beBytes (n v : Nat) : List Byte := (leBytes n v).reverse

/-- The padded message: a 1 bit, zeros, and the length in bits in 16 bytes, to a multiple of 128 bytes. -/
def shaPad (msg : List Byte) : List Byte :=
  msg ++ [0x80] ++ List.replicate ((128 - (msg.length + 17) % 128) % 128) 0 ++ beBytes 16 (8 * msg.length)

/-- The next words of the schedule, newest first. -/
def shaExtend : Nat → List DWord → List DWord
  | 0, ws => ws
  | n + 1, ws =>
    let w := fun i => ws.getD (i - 1) (0 : DWord)
    let s0 := (w 15).rotateRight 1 ^^^ (w 15).rotateRight 8 ^^^ (w 15) >>> 7
    let s1 := (w 2).rotateRight 19 ^^^ (w 2).rotateRight 61 ^^^ (w 2) >>> 6
    shaExtend n ((w 16 + s0 + w 7 + s1) :: ws)

/-- One round on the eight working words. -/
def shaRound (v : List DWord) (kw : DWord × DWord) : List DWord :=
  let x := fun i => v.getD i (0 : DWord)
  let s1 := (x 4).rotateRight 14 ^^^ (x 4).rotateRight 18 ^^^ (x 4).rotateRight 41
  let ch := (x 4 &&& x 5) ^^^ (~~~ x 4 &&& x 6)
  let t1 := x 7 + s1 + ch + kw.1 + kw.2
  let s0 := (x 0).rotateRight 28 ^^^ (x 0).rotateRight 34 ^^^ (x 0).rotateRight 39
  let maj := (x 0 &&& x 1) ^^^ (x 0 &&& x 2) ^^^ (x 1 &&& x 2)
  [t1 + s0 + maj, x 0, x 1, x 2, x 3 + t1, x 4, x 5, x 6]

/-- The blocks of a padded message, of n bytes each. -/
def shaBlocks : Nat → List Byte → List DWord → List DWord
  | 0, _, h => h
  | n + 1, m, h =>
    let ws := (List.range 16).map fun i => BitVec.ofNat 64 (leNat ((m.drop (8 * i)).take 8).reverse)
    let all := (shaExtend 64 ws.reverse).reverse
    let v := (shaK.zip all).foldl shaRound h
    shaBlocks n (m.drop 128) (h.zipWith (· + ·) v)

/-- SHA-512 of a list of bytes, 64 bytes in the order of the standard. -/
def sha512 (msg : List Byte) : List Byte :=
  let m := shaPad msg
  (shaBlocks (m.length / 128) m shaH).flatMap fun w => beBytes 8 w.toNat

/-! ## P-521 -/

/-- The field's prime, the order of the base point, the coefficient b, and the base point. -/
def ecP : Nat := 2 ^ 521 - 1
def ecN : Nat := 2 ^ 521 - 2 ^ 260 + 0xA51868783BF2F966B7FCC0148F709A5D03BB5C9B8899C47AEBB6FB71E91386409
def ecB : Nat := 0x51953EB9618E1C9A1F929A21A0B68540EEA2DA725B99B315F3B8B489918EF109E156193951EC7E937B1652C0BD3BB1BF073573DF883D2C34F1EF451FD46B503F00
def ecG : Nat × Nat :=
  (0xC6858E06B70404E9CD9E3ECB662395B4429C648139053FB521F828AF606B4D3DBAA14B5E77EFE75928FE1DC127A2FFA8DE3348B3C1856A429BF97E7E31C2E5BD66,
   0x11839296A789A3BC0045C8A5FB42C7D1BD998F54449579B446817AFBD17273E662C97EE72995EF42640C550B9013FAD0761353C7086A272C24088BE94769FD16650)

/-- Product and difference modulo m. -/
def mulMod (m a b : Nat) : Nat := a * b % m
def subMod (m a b : Nat) : Nat := (a + (m - b % m)) % m

/-- The power of a modulo m to the n low bits of e, from the highest down. -/
def powMod (m a e : Nat) : Nat → Nat → Nat
  | 0, r => r
  | i + 1, r => powMod m a e i (if e.testBit i then mulMod m (mulMod m r r) a else mulMod m r r)

/-- The inverse modulo a prime below 2^521. -/
def invMod (m a : Nat) : Nat := powMod m a (m - 2) 521 1

/-- A point in Jacobian coordinates; z is 0 at infinity. -/
structure EcPoint where
  x : Nat
  y : Nat
  z : Nat

def ecZero : EcPoint := ⟨1, 1, 0⟩

/-- Twice a point of the curve y² = x³ − 3x + b. -/
def EcPoint.dbl (p : EcPoint) : EcPoint :=
  if p.z = 0 ∨ p.y = 0 then ecZero
  else
    let mul := mulMod ecP
    let sub := subMod ecP
    let d := mul p.z p.z
    let g := mul p.y p.y
    let b := mul p.x g
    let a := mul 3 (mul (sub p.x d) (p.x + d))
    let x := sub (mul a a) (8 * b)
    ⟨x, sub (mul a (sub (4 * b) x)) (8 * mul g g), sub (sub (mul (p.y + p.z) (p.y + p.z)) g) d⟩

/-- The sum of two points. -/
def EcPoint.add (p q : EcPoint) : EcPoint :=
  if p.z = 0 then q
  else if q.z = 0 then p
  else
    let mul := mulMod ecP
    let sub := subMod ecP
    let pz := mul p.z p.z
    let qz := mul q.z q.z
    let u := mul p.x qz
    let v := mul q.x pz
    let s := mul p.y (mul q.z qz)
    let t := mul q.y (mul p.z pz)
    if u = v then (if s = t then p.dbl else ecZero)
    else
      let h := sub v u
      let r := sub t s
      let hh := mul h h
      let hhh := mul h hh
      let w := mul u hh
      let x := sub (sub (mul r r) hhh) (2 * w)
      ⟨x, sub (mul r (sub w x)) (mul s hhh), mul h (mul p.z q.z)⟩

/-- The multiple of a point by the n low bits of k, from the highest down. -/
def EcPoint.times (p : EcPoint) (k : Nat) : Nat → EcPoint → EcPoint
  | 0, r => r
  | i + 1, r => EcPoint.times p k i (if k.testBit i then r.dbl.add p else r.dbl)

/-- A multiple of a point given by its coordinates. -/
def ecMul (k : Nat) (p : Nat × Nat) : EcPoint := EcPoint.times ⟨p.1, p.2, 1⟩ k 521 ecZero

/-- The coordinates of a point that is not at infinity. -/
def EcPoint.affine (p : EcPoint) : Nat × Nat :=
  let i := invMod ecP p.z
  let j := mulMod ecP i i
  (mulMod ecP p.x j, mulMod ecP p.y (mulMod ecP i j))

/-- The public key of a private one. -/
def ecPublic (d : Nat) : Nat × Nat := (ecMul d ecG).affine

/-- A number of big-endian bytes. -/
def beNat (bs : List Byte) : Nat := leNat bs.reverse

/-- A public key as bytes: x then y, 66 bytes each (19 R407). -/
def keyBytes (q : Nat × Nat) : List Byte := beBytes 66 q.1 ++ beBytes 66 q.2

/-- ECDSA: the signature of a message under a private key, with k the secret number of this signature. -/
def ecdsaSign (d k : Nat) (msg : List Byte) : Nat × Nat :=
  let r := (ecMul k ecG).affine.1 % ecN
  (r, mulMod ecN (invMod ecN k) (beNat (sha512 msg) + mulMod ecN r d))

/-- ECDSA: whether a signature verifies for a message under a public key. -/
def ecdsaOk (q : Nat × Nat) (msg : List Byte) (r s : Nat) : Bool :=
  decide (0 < r) && decide (r < ecN) && decide (0 < s) && decide (s < ecN) &&
    (let w := invMod ecN s
     let p := (ecMul (mulMod ecN (beNat (sha512 msg)) w) ecG).add (ecMul (mulMod ecN r w) q)
     decide (p.z ≠ 0) && decide (p.affine.1 % ecN = r))

/-! ## Firmware copies -/

/-- Fields of a copy's header (19 R406). The hash of the body is that of offset 0x10, as the layout and the signed range have it
(DEDUCED, log 13). -/
def fwWord (c : List Byte) (off : Nat) : Nat := leNat ((c.drop off).take 4)
def fwSvn (c : List Byte) : Nat := fwWord c 4
def fwBody (c : List Byte) : List Byte := (c.drop 0x100).take (fwWord c 8)
def fwHash (c : List Byte) : List Byte := (c.drop 0x10).take 64

/-- Whether a header breaks its values: MAGIC, BODYSIZE, res0, and a body that the copy does not hold. -/
def fwHeaderBad (c : List Byte) : Bool :=
  decide (fwWord c 0 ≠ 0x48554C4C) || decide (fwWord c 8 % 64 ≠ 0) || decide (2 ^ 24 < fwWord c 8) || decide (fwWord c 12 ≠ 0) ||
    ((c.drop 0xD4).take 44).any (· ≠ 0) || decide (c.length < 0x100 + fwWord c 8)

/-- The code of the first check a firmware copy fails, 0 where it passes (19 R405, R406): its header, the hash of its body, its
signature under the firmware key whose hash is fused, its version. -/
def fwCode (f : Config.Fuses) (c : List Byte) : Nat :=
  if fwHeaderBad c then 1
  else if sha512 (fwBody c) ≠ fwHash c then 2
  else if sha512 (keyBytes f.firmKey) ≠ f.keyHash ∨
      !ecdsaOk f.firmKey (c.take 0x50) (beNat ((c.drop 0x50).take 66)) (beNat ((c.drop 0x92).take 66)) then 3
  else if fwSvn c < f.minSvn then 4
  else 0

end Sys2Proof.Machine
end

