-- ==== Sys2Proof/Syntax.lean ====
section
/-!
DEFINITION. The abstract syntax of Tyunex: one constructor of Instr for every row of spec/opcode_table.json.
A row that is an instruction word carries the word's fields as the row names them, raw, so that decoding loses no bit
(01 R27 to R45). A row that is an event (95_what_each_step_holds.md) carries what says which event it is: a group, a
bundle, a stream, a mailbox, a port, an address, or the message that came in.
-/
namespace Sys2Proof

/-- What a peer asks of this device's memory (18 R396): plain bytes at a physical address; an atomic, numbered from ATOM.ADD.I32
in the order of 07 R181, with its operands; or an exact word, at its frame's address and with
the virtual address the request carries (09 R232). -/
inductive PeerOp where
  | read   (pa n : Nat)
  | write  (pa : Nat) (data : List Byte)
  | atomic (pa op : Nat) (x y : DWord)
  | xload  (pa : Nat) (va : DWord)
  | xstore (pa : Nat) (va : DWord) (x : Word)
  | xadd   (pa : Nat) (va : DWord) (x : Word)
  deriving DecidableEq, Repr

/-- A request that arrives over a link port, with its sequence tag (08 R214, 18 R395). -/
structure PeerReq where
  tag : Nat
  op  : PeerOp
  deriving DecidableEq, Repr

/-- A transfer between members of a collective (18 R398 to R400): the command it belongs to, the members it accounts for, and
what they gave: by rank, words or whole cells. What a transfer carries is the model's (log 24). -/
structure CollXfer where
  group   : Nat
  collid  : Word
  op      : Nat
  count   : Nat
  root    : Nat
  members : Nat
  parts   : List (Nat × List Nat)
  tag     : Nat := 0
  deriving DecidableEq, Repr

/-- What one run of the start sequence finds (19 R405): the self-test and the fuses; a memory stack that does not train; the two
controllers. -/
structure StartRun where
  romOk     : Bool := true
  fusesOk   : Bool := true
  stack     : Option Nat := none
  primaryOk : Bool := true
  standbyOk : Bool := true
  deriving DecidableEq, Repr

/-- The instructions and events of the opcode table. -/
inductive Instr where
  /-- CLAUSE_ISSUE (R14). -/
  | clauseIssue (g b : Nat) (acc : Bool)
  /-- CLAUSE_COMPLETION (R13). -/
  | clauseCompletion (g b : Nat) (acc : Bool) (c : Nat)
  /-- SOURCES_READ (R13). -/
  | sourcesRead (g b : Nat) (acc : Bool) (c : Nat)
  /-- EST_CONTRIBUTION_APPLY (R214). -/
  | estContributionApply (k : Nat)
  /-- OVERLAY_EVICTION (R235). -/
  | overlayEviction (line : Nat)
  /-- SFI_RESULT (R297). -/
  | sfiResult (g b z : Nat)
  /-- SLOT_FILL (R266). -/
  | slotFill (g n : Nat)
  /-- SLOT_DRAIN (R266). -/
  | slotDrain (g n : Nat)
  /-- WALK_POINT (R262). -/
  | walkPoint (g b w : Nat)
  /-- SORT_PASS (R269). -/
  | sortPass (g n : Nat)
  /-- BIN_COMPLETION (R270). -/
  | binCompletion (g n : Nat)
  /-- MMA_CHUNK (R286). -/
  | mmaChunk (g t : Nat)
  /-- MDRAIN_ROW (R293). -/
  | mdrainRow (g t : Nat)
  /-- TRACE_COMPLETION (R311). -/
  | traceCompletion (g b n : Nat)
  /-- FRESH_BUNDLE_DRAW (R130). -/
  | freshBundleDraw (g : Nat)
  /-- REFORMAGE_EXPIRY (R130). -/
  | reformageExpiry (g key : Nat)
  /-- STARVATION_PROMOTION (R152). -/
  | starvationPromotion (g b : Nat)
  /-- WAITA_POLL (R185). -/
  | waitaPoll (g b : Nat) (acc : Bool)
  /-- ACQUIRE_GRANT (R150). -/
  | acquireGrant (core : Nat)
  /-- GROUP_ADMISSION (R149). -/
  | groupAdmission (g core : Nat)
  /-- BIN_TIMER_EXPIRY (R146). -/
  | binTimerExpiry (node : Nat)
  /-- GROUP_SAVE (R353). -/
  | groupSave (g : Nat)
  /-- GROUP_RESTORE (R357). -/
  | groupRestore (g core : Nat)
  /-- REPLY_ENTRY_WRITE (R383). -/
  | replyEntryWrite (m : Nat)
  /-- RECORD (R382). -/
  | record (m : Nat) (hdr : DWord) (words : List Word)
  /-- BIND (R382). -/
  | bind (m : Nat) (hdr : DWord) (words : List Word)
  /-- REPLYCFG (R382). -/
  | replycfg (m : Nat) (hdr : DWord) (words : List Word)
  /-- LOAD (R392). -/
  | load (m : Nat) (hdr : DWord) (words : List Word)
  /-- PREEMPT (R351). -/
  | preempt (m : Nat) (hdr : DWord) (words : List Word)
  /-- WITHDRAW (R351). -/
  | withdraw (m : Nat) (hdr : DWord) (words : List Word)
  /-- ATTEST (R407). -/
  | attest (m : Nat) (hdr : DWord) (words : List Word)
  /-- RESTART (R408). -/
  | restart (m : Nat) (hdr : DWord) (words : List Word)
  /-- REPLAYALL (R348). -/
  | replayall (c : Nat)
  /-- FAIL (R348). -/
  | fail (c : Nat)
  /-- FBGET_WRITE (R347). -/
  | fbgetWrite (c : Nat) (v : BitVec 32)
  /-- FBSTAT_CLEAR (R347). -/
  | fbstatClear (c : Nat)
  /-- REPLYGET_WRITE (R381). -/
  | replygetWrite (m : Nat) (v : BitVec 32)
  /-- RDROP_CLEAR (R381). -/
  | rdropClear (m : Nat)
  /-- STALECNT_CLEAR (R385). -/
  | stalecntClear (n : Nat)
  /-- ORDERR_CLEAR (R385). -/
  | orderrClear (n : Nat)
  /-- LOSSES_CLEAR (R385). -/
  | lossesClear (n : Nat)
  /-- DROPWR_CLEAR (R395). -/
  | dropwrClear (p : Nat)
  /-- RETRIES_CLEAR (R395). -/
  | retriesClear (p : Nat)
  /-- HASH_DESCRIPTOR_WRITE (R379). -/
  | hashDescriptorWrite (off size : Nat) (v : DWord)
  /-- REGISTER_WRITE (R380). -/
  | registerWrite (off size : Nat) (v : DWord)
  /-- PEER_REQUEST (R396). -/
  | peerRequest (p : Nat) (req : PeerReq)
  /-- FLIT_REPLAY (R395). -/
  | flitReplay (p : Nat)
  /-- LINK_DOWN (R397). -/
  | linkDown (p : Nat)
  /-- LINK_UP (R397). -/
  | linkUp (p : Nat) (peer : BitVec 12)
  /-- HOST_HDM_ACCESS (R394). -/
  | hostHdmAccess (write : Bool) (addr : Nat) (data : List (BitVec 8))
  /-- COLL_TRANSFER (R399). -/
  | collTransfer (p : Nat) (x : CollXfer)
  /-- TIMING_DETECTOR_FIRE (R402). -/
  | timingDetectorFire (core n : Nat)
  /-- CORRECTED_ERROR (R403). -/
  | correctedError (stack bank row col : Nat)
  /-- BANK_MIGRATION_CHUNK (R404). -/
  | bankMigrationChunk (stack : Nat)
  /-- DEVICE_RESET (R405). -/
  | deviceReset (runs : List StartRun)
  /-- IADD (R54). -/
  | iadd (n : BitVec 1) (m : BitVec 2) (d : BitVec 7) (a : BitVec 7) (b : BitVec 7)
  /-- ISUB (R54). -/
  | isub (n : BitVec 1) (m : BitVec 2) (d : BitVec 7) (a : BitVec 7) (b : BitVec 7)
  /-- IMUL (R54). -/
  | imul (n : BitVec 1) (d : BitVec 7) (a : BitVec 7) (b : BitVec 7)
  /-- IMULH (R54). -/
  | imulh (n : BitVec 1) (m : BitVec 2) (d : BitVec 7) (a : BitVec 7) (b : BitVec 7)
  /-- IMAC (R54). -/
  | imac (n : BitVec 1) (d : BitVec 7) (a : BitVec 7) (b : BitVec 7)
  /-- IMIN (R54). -/
  | imin (n : BitVec 1) (m : BitVec 2) (d : BitVec 7) (a : BitVec 7) (b : BitVec 7)
  /-- IMAX (R54). -/
  | imax (n : BitVec 1) (m : BitVec 2) (d : BitVec 7) (a : BitVec 7) (b : BitVec 7)
  /-- IADD64 (R54). -/
  | iadd64 (n : BitVec 1) (d : BitVec 7) (a : BitVec 7) (b : BitVec 7)
  /-- ISUB64 (R54). -/
  | isub64 (n : BitVec 1) (d : BitVec 7) (a : BitVec 7) (b : BitVec 7)
  /-- AND (R54). -/
  | and (n : BitVec 1) (d : BitVec 7) (a : BitVec 7) (b : BitVec 7)
  /-- OR (R54). -/
  | or (n : BitVec 1) (d : BitVec 7) (a : BitVec 7) (b : BitVec 7)
  /-- XOR (R54). -/
  | xor (n : BitVec 1) (d : BitVec 7) (a : BitVec 7) (b : BitVec 7)
  /-- ANDN (R54). -/
  | andn (n : BitVec 1) (d : BitVec 7) (a : BitVec 7) (b : BitVec 7)
  /-- SHL (R54). -/
  | shl (n : BitVec 1) (d : BitVec 7) (a : BitVec 7) (b : BitVec 7)
  /-- SHR (R54). -/
  | shr (n : BitVec 1) (d : BitVec 7) (a : BitVec 7) (b : BitVec 7)
  /-- SAR (R54). -/
  | sar (n : BitVec 1) (d : BitVec 7) (a : BitVec 7) (b : BitVec 7)
  /-- ROTL (R54). -/
  | rotl (n : BitVec 1) (d : BitVec 7) (a : BitVec 7) (b : BitVec 7)
  /-- BFX (R55). -/
  | bfx (n : BitVec 1) (m : BitVec 2) (d : BitVec 7) (a : BitVec 7) (b : BitVec 7)
  /-- BFI (R55). -/
  | bfi (n : BitVec 1) (d : BitVec 7) (a : BitVec 7) (b : BitVec 7)
  /-- POPC (R54). -/
  | popc (n : BitVec 1) (d : BitVec 7) (a : BitVec 7)
  /-- CLZ (R54). -/
  | clz (n : BitVec 1) (d : BitVec 7) (a : BitVec 7)
  /-- BREV (R54). -/
  | brev (n : BitVec 1) (d : BitVec 7) (a : BitVec 7)
  /-- SEL (R60). -/
  | sel (n : BitVec 1) (k : BitVec 2) (d : BitVec 7) (a : BitVec 7) (b : BitVec 7)
  /-- MOV (R54). -/
  | mov (n : BitVec 1) (d : BitVec 7) (a : BitVec 7)
  /-- FADD (R82). -/
  | fadd (n : BitVec 1) (m : BitVec 2) (d : BitVec 7) (a : BitVec 7) (b : BitVec 7)
  /-- FSUB (R82). -/
  | fsub (n : BitVec 1) (m : BitVec 2) (d : BitVec 7) (a : BitVec 7) (b : BitVec 7)
  /-- FMUL (R82). -/
  | fmul (n : BitVec 1) (m : BitVec 2) (d : BitVec 7) (a : BitVec 7) (b : BitVec 7)
  /-- FFMA (R82). -/
  | ffma (n : BitVec 1) (m : BitVec 2) (d : BitVec 7) (a : BitVec 7) (b : BitVec 7)
  /-- FFMS (R82). -/
  | ffms (n : BitVec 1) (m : BitVec 2) (d : BitVec 7) (a : BitVec 7) (b : BitVec 7)
  /-- FNMA (R82). -/
  | fnma (n : BitVec 1) (m : BitVec 2) (d : BitVec 7) (a : BitVec 7) (b : BitVec 7)
  /-- FMIN (R84). -/
  | fmin (n : BitVec 1) (m : BitVec 2) (d : BitVec 7) (a : BitVec 7) (b : BitVec 7)
  /-- FMAX (R84). -/
  | fmax (n : BitVec 1) (m : BitVec 2) (d : BitVec 7) (a : BitVec 7) (b : BitVec 7)
  /-- ICMP_EQ (R59). -/
  | icmpEq (n : BitVec 1) (m : BitVec 2) (d : BitVec 7) (a : BitVec 7) (b : BitVec 7)
  /-- ICMP_NE (R59). -/
  | icmpNe (n : BitVec 1) (m : BitVec 2) (d : BitVec 7) (a : BitVec 7) (b : BitVec 7)
  /-- ICMP_LT (R59). -/
  | icmpLt (n : BitVec 1) (m : BitVec 2) (d : BitVec 7) (a : BitVec 7) (b : BitVec 7)
  /-- ICMP_LE (R59). -/
  | icmpLe (n : BitVec 1) (m : BitVec 2) (d : BitVec 7) (a : BitVec 7) (b : BitVec 7)
  /-- ICMP_LTN (R59). -/
  | icmpLtn (n : BitVec 1) (m : BitVec 2) (d : BitVec 7) (a : BitVec 7) (b : BitVec 7)
  /-- ICMP_LEN (R59). -/
  | icmpLen (n : BitVec 1) (m : BitVec 2) (d : BitVec 7) (a : BitVec 7) (b : BitVec 7)
  /-- FCMP_EQ (R87). -/
  | fcmpEq (n : BitVec 1) (m : BitVec 2) (d : BitVec 7) (a : BitVec 7) (b : BitVec 7)
  /-- FCMP_NE (R87). -/
  | fcmpNe (n : BitVec 1) (m : BitVec 2) (d : BitVec 7) (a : BitVec 7) (b : BitVec 7)
  /-- FCMP_LT (R87). -/
  | fcmpLt (n : BitVec 1) (m : BitVec 2) (d : BitVec 7) (a : BitVec 7) (b : BitVec 7)
  /-- FCMP_LE (R87). -/
  | fcmpLe (n : BitVec 1) (m : BitVec 2) (d : BitVec 7) (a : BitVec 7) (b : BitVec 7)
  /-- FCMP_UN (R87). -/
  | fcmpUn (n : BitVec 1) (m : BitVec 2) (d : BitVec 7) (a : BitVec 7) (b : BitVec 7)
  /-- DCMP_LT (R87). -/
  | dcmpLt (n : BitVec 1) (m : BitVec 2) (d : BitVec 7) (a : BitVec 7) (b : BitVec 7)
  /-- DCMP_EQ (R87). -/
  | dcmpEq (n : BitVec 1) (m : BitVec 2) (d : BitVec 7) (a : BitVec 7) (b : BitVec 7)
  /-- FABS (R85). -/
  | fabs (n : BitVec 1) (m : BitVec 2) (d : BitVec 7) (a : BitVec 7)
  /-- FNEG (R85). -/
  | fneg (n : BitVec 1) (m : BitVec 2) (d : BitVec 7) (a : BitVec 7)
  /-- FCLASS (R88). -/
  | fclass (n : BitVec 1) (d : BitVec 7) (a : BitVec 7)
  /-- SHFL_IDX (R121). -/
  | shflIdx (n : BitVec 1) (d : BitVec 7) (a : BitVec 7) (b : BitVec 7)
  /-- SHFL_XOR (R121). -/
  | shflXor (n : BitVec 1) (d : BitVec 7) (a : BitVec 7) (b : BitVec 7)
  /-- SHFL_UP (R121). -/
  | shflUp (n : BitVec 1) (d : BitVec 7) (a : BitVec 7) (b : BitVec 7)
  /-- SHFL_DN (R121). -/
  | shflDn (n : BitVec 1) (d : BitVec 7) (a : BitVec 7) (b : BitVec 7)
  /-- BALLOT (R122). -/
  | ballot (n : BitVec 1) (d : BitVec 7) (a : BitVec 7)
  /-- REDADD (R124). -/
  | redadd (n : BitVec 1) (m : BitVec 2) (d : BitVec 7) (a : BitVec 7) (b : BitVec 7)
  /-- REDMM (R125). -/
  | redmm (n : BitVec 1) (m : BitVec 2) (d : BitVec 7) (a : BitVec 7) (b : BitVec 7)
  /-- SCAN (R126). -/
  | scan (n : BitVec 1) (m : BitVec 2) (d : BitVec 7) (a : BitVec 7) (b : BitVec 7)
  /-- READLANE (R123). -/
  | readlane (n : BitVec 1) (d : BitVec 7) (a : BitVec 7) (b : BitVec 7)
  /-- SHAPEOF (R127). -/
  | shapeof (n : BitVec 1) (d : BitVec 7) (a : BitVec 7)
  /-- SHAPEGEN (R127). -/
  | shapegen (n : BitVec 1) (d : BitVec 7) (a : BitVec 7)
  /-- MOVK (R127). -/
  | movk (n : BitVec 1) (d : BitVec 7) (a : BitVec 7)
  /-- MOV64 (R54). -/
  | mov64 (n : BitVec 1) (d : BitVec 7) (a : BitVec 7)
  /-- IADDI (R58). -/
  | iaddi (d : BitVec 7) (a : BitVec 7) (i : BitVec 11)
  /-- ANDI (R58). -/
  | andi (d : BitVec 7) (a : BitVec 7) (i : BitVec 11)
  /-- ORI (R58). -/
  | ori (d : BitVec 7) (a : BitVec 7) (i : BitVec 11)
  /-- XORI (R58). -/
  | xori (d : BitVec 7) (a : BitVec 7) (i : BitVec 11)
  /-- SHLI (R58). -/
  | shli (d : BitVec 7) (a : BitVec 7) (i : BitVec 11)
  /-- SHRI (R58). -/
  | shri (d : BitVec 7) (a : BitVec 7) (i : BitVec 11)
  /-- SARI (R58). -/
  | sari (d : BitVec 7) (a : BitVec 7) (i : BitVec 11)
  /-- IMULI (R58). -/
  | imuli (d : BitVec 7) (a : BitVec 7) (i : BitVec 11)
  /-- ICMPI_EQ (R58). -/
  | icmpiEq (d : BitVec 7) (a : BitVec 7) (i : BitVec 11)
  /-- ICMPI_LT (R58). -/
  | icmpiLt (d : BitVec 7) (a : BitVec 7) (i : BitVec 11)
  /-- ICMPI_LTN (R58). -/
  | icmpiLtn (d : BitVec 7) (a : BitVec 7) (i : BitVec 11)
  /-- IADDI64 (R58). -/
  | iaddi64 (d : BitVec 7) (a : BitVec 7) (i : BitVec 11)
  /-- GETS (R61). -/
  | gets (d : BitVec 7) (i : BitVec 11)
  /-- SETS (R61). -/
  | sets (a : BitVec 7) (i : BitVec 11)
  /-- AFFINE (R128). -/
  | affine (d : BitVec 7) (a : BitVec 7) (i : BitVec 11)
  /-- LDI_LO (R58). -/
  | ldiLo (d : BitVec 7) (i : BitVec 18)
  /-- LDI_HI (R58). -/
  | ldiHi (d : BitVec 7) (i : BitVec 14)
  /-- LDI_S (R58). -/
  | ldiS (d : BitVec 7) (i : BitVec 18)
  /-- LDIF (R58). -/
  | ldif (d : BitVec 7) (i : BitVec 18)
  /-- CVT (R90). -/
  | cvt (d : BitVec 7) (a : BitVec 7) (t : BitVec 4) (s : BitVec 4) (r : BitVec 3)
  /-- KOP_AND (R109). -/
  | kopAnd (d : BitVec 4) (a : BitVec 4) (b : BitVec 4)
  /-- KOP_OR (R109). -/
  | kopOr (d : BitVec 4) (a : BitVec 4) (b : BitVec 4)
  /-- KOP_XOR (R109). -/
  | kopXor (d : BitVec 4) (a : BitVec 4) (b : BitVec 4)
  /-- KOP_ANDN (R109). -/
  | kopAndn (d : BitVec 4) (a : BitVec 4) (b : BitVec 4)
  /-- KOP_NOT (R109). -/
  | kopNot (d : BitVec 4) (a : BitVec 4)
  /-- KOP_MOV (R109). -/
  | kopMov (d : BitVec 4) (a : BitVec 4)
  /-- KOP_SETALL (R109). -/
  | kopSetall (d : BitVec 4)
  /-- KOP_CLEAR (R109). -/
  | kopClear (d : BitVec 4)
  /-- KEXEC_SAVE (R110). -/
  | kexecSave (d : BitVec 4)
  /-- KEXEC_SET (R110). -/
  | kexecSet (a : BitVec 4)
  /-- KEXEC_AND (R110). -/
  | kexecAnd (a : BitVec 4)
  /-- KEXEC_ANDN (R110). -/
  | kexecAndn (a : BitVec 4)
  /-- KEXEC_OR (R110). -/
  | kexecOr (a : BitVec 4)
  /-- BRA (R67). -/
  | bra (o : BitVec 21)
  /-- BRANY (R67). -/
  | brany (k : BitVec 4) (o : BitVec 21)
  /-- BRALL (R67). -/
  | brall (k : BitVec 4) (o : BitVec 21)
  /-- BRNONE (R67). -/
  | brnone (k : BitVec 4) (o : BitVec 21)
  /-- CALL (R68). -/
  | call (o : BitVec 21)
  /-- REFORM (R129). -/
  | reform (k : BitVec 4) (o : BitVec 21)
  /-- BAR_INIT (R134). -/
  | barInit (b : BitVec 6) (c : BitVec 13)
  /-- BAR_ARRIVE (R134). -/
  | barArrive (b : BitVec 6)
  /-- BAR_WAIT (R134). -/
  | barWait (b : BitVec 6)
  /-- BAR_SYNC (R134). -/
  | barSync (b : BitVec 6)
  /-- JMPR (R69). -/
  | jmpr (a : BitVec 7)
  /-- TRAP (R70). -/
  | trap (c : BitVec 8)
  /-- LD_N8 (R63). -/
  | ldN8 (o : BitVec 2) (d : BitVec 7) (a : BitVec 7) (f : BitVec 9)
  /-- LD_I8 (R63). -/
  | ldI8 (o : BitVec 2) (d : BitVec 7) (a : BitVec 7) (f : BitVec 9)
  /-- LD_N16 (R63). -/
  | ldN16 (o : BitVec 2) (d : BitVec 7) (a : BitVec 7) (f : BitVec 9)
  /-- LD_I16 (R63). -/
  | ldI16 (o : BitVec 2) (d : BitVec 7) (a : BitVec 7) (f : BitVec 9)
  /-- LD_32 (R63). -/
  | ld32 (o : BitVec 2) (d : BitVec 7) (a : BitVec 7) (f : BitVec 9)
  /-- LD_64 (R63). -/
  | ld64 (o : BitVec 2) (d : BitVec 7) (a : BitVec 7) (f : BitVec 9)
  /-- LD_128 (R63). -/
  | ld128 (o : BitVec 2) (d : BitVec 7) (a : BitVec 7) (f : BitVec 9)
  /-- ST_8 (R63). -/
  | st8 (o : BitVec 2) (d : BitVec 7) (a : BitVec 7) (f : BitVec 9)
  /-- ST_16 (R63). -/
  | st16 (o : BitVec 2) (d : BitVec 7) (a : BitVec 7) (f : BitVec 9)
  /-- ST_32 (R63). -/
  | st32 (o : BitVec 2) (d : BitVec 7) (a : BitVec 7) (f : BitVec 9)
  /-- ST_64 (R63). -/
  | st64 (o : BitVec 2) (d : BitVec 7) (a : BitVec 7) (f : BitVec 9)
  /-- ST_128 (R63). -/
  | st128 (o : BitVec 2) (d : BitVec 7) (a : BitVec 7) (f : BitVec 9)
  /-- LDP_32 (R165). -/
  | ldp32 (d : BitVec 7) (a : BitVec 7) (f : BitVec 9)
  /-- LDP_128 (R165). -/
  | ldp128 (d : BitVec 7) (a : BitVec 7) (f : BitVec 9)
  /-- STP_32 (R165). -/
  | stp32 (d : BitVec 7) (a : BitVec 7) (f : BitVec 9)
  /-- STP_128 (R165). -/
  | stp128 (d : BitVec 7) (a : BitVec 7) (f : BitVec 9)
  /-- ATOM_ADD_I32 (R181). -/
  | atomAddI32 (o : BitVec 2) (s : BitVec 2) (d : BitVec 7) (a : BitVec 7) (b : BitVec 7)
  /-- ATOM_ADD_I64 (R181). -/
  | atomAddI64 (o : BitVec 2) (s : BitVec 2) (d : BitVec 7) (a : BitVec 7) (b : BitVec 7)
  /-- ATOM_MIN_I32 (R181). -/
  | atomMinI32 (o : BitVec 2) (s : BitVec 2) (d : BitVec 7) (a : BitVec 7) (b : BitVec 7)
  /-- ATOM_MAX_I32 (R181). -/
  | atomMaxI32 (o : BitVec 2) (s : BitVec 2) (d : BitVec 7) (a : BitVec 7) (b : BitVec 7)
  /-- ATOM_MIN_N32 (R181). -/
  | atomMinN32 (o : BitVec 2) (s : BitVec 2) (d : BitVec 7) (a : BitVec 7) (b : BitVec 7)
  /-- ATOM_MAX_N32 (R181). -/
  | atomMaxN32 (o : BitVec 2) (s : BitVec 2) (d : BitVec 7) (a : BitVec 7) (b : BitVec 7)
  /-- ATOM_AND (R181). -/
  | atomAnd (o : BitVec 2) (s : BitVec 2) (d : BitVec 7) (a : BitVec 7) (b : BitVec 7)
  /-- ATOM_OR (R181). -/
  | atomOr (o : BitVec 2) (s : BitVec 2) (d : BitVec 7) (a : BitVec 7) (b : BitVec 7)
  /-- ATOM_XOR (R181). -/
  | atomXor (o : BitVec 2) (s : BitVec 2) (d : BitVec 7) (a : BitVec 7) (b : BitVec 7)
  /-- ATOM_XCHG (R181). -/
  | atomXchg (o : BitVec 2) (s : BitVec 2) (d : BitVec 7) (a : BitVec 7) (b : BitVec 7)
  /-- ATOM_CAS (R181). -/
  | atomCas (o : BitVec 2) (s : BitVec 2) (d : BitVec 7) (a : BitVec 7) (b : BitVec 7)
  /-- ATOM_XCHG64 (R181). -/
  | atomXchg64 (o : BitVec 2) (s : BitVec 2) (d : BitVec 7) (a : BitVec 7) (b : BitVec 7)
  /-- FENCE_ACQ (R209). -/
  | fenceAcq (s : BitVec 2)
  /-- FENCE_REL (R209). -/
  | fenceRel (s : BitVec 2)
  /-- FENCE_FULL (R209). -/
  | fenceFull (s : BitVec 2)
  /-- XFENCE (R210). -/
  | xfence (b : BitVec 6) (a : BitVec 6) (s : BitVec 2)
  /-- SPILL (R170). -/
  | spill (s : BitVec 7) (r : BitVec 7)
  /-- FILL (R170). -/
  | fill (r : BitVec 7) (s : BitVec 7)
  /-- WAITA (R184). -/
  | waita (e : BitVec 7) (a : BitVec 7)
  /-- WAKE (R186). -/
  | wake (n : BitVec 7) (a : BitVec 7)
  /-- WAITP (R187). -/
  | waitp (e : BitVec 7) (a : BitVec 7) (c : BitVec 2)
  /-- XADD (R233). -/
  | xadd (d : BitVec 7) (a : BitVec 7) (s : BitVec 2)
  /-- ESAMPLE (R241). -/
  | esample (p : BitVec 7) (i : BitVec 7) (n : BitVec 4)
  /-- ELOAD (R242). -/
  | eload (q : BitVec 7) (i : BitVec 7) (n : BitVec 4)
  /-- EDECAY (R243). -/
  | edecay (t : BitVec 7) (n : BitVec 4)
  /-- ESWEEP (R245). -/
  | esweep (n : BitVec 4)
  /-- EREGION (R240). -/
  | eregion (a : BitVec 7) (n : BitVec 4)
  /-- PREFETCH (R183). -/
  | prefetch (a : BitVec 7)
  /-- MMA (R286). -/
  | mma (a : BitVec 7)
  /-- MDRAIN (R293). -/
  | mdrain (a : BitVec 7)
  /-- MZERO (R279). -/
  | mzero (t : BitVec 3)
  /-- TKGIVE (R279). -/
  | tkgive (t : BitVec 3)
  /-- TKTAKE (R279). -/
  | tktake (t : BitVec 3)
  /-- ACCRD (R280). -/
  | accrd (d : BitVec 7) (r : BitVec 7) (h : BitVec 1) (t : BitVec 3)
  /-- ACCWR (R280). -/
  | accwr (s : BitVec 7) (r : BitVec 7) (h : BitVec 1) (t : BitVec 3)
  /-- MSTAT (R281). -/
  | mstat (d : BitVec 7)
  /-- SFI (R297). -/
  | sfi (z : BitVec 3) (d : BitVec 7) (a : BitVec 7) (f : BitVec 5)
  /-- SFWAIT (R298). -/
  | sfwait (m : BitVec 8)
  /-- SFPOLL (R299). -/
  | sfpoll (k : BitVec 4) (m : BitVec 8)
  /-- TIDSET (R258). -/
  | tidset (a : BitVec 7) (t : BitVec 8)
  /-- SOPEN (R267). -/
  | sopen (a : BitVec 7) (s : BitVec 4)
  /-- SGO (R267). -/
  | sgo (s : BitVec 4)
  /-- SSLOT (R267). -/
  | sslot (c : BitVec 7) (s : BitVec 4)
  /-- SSTAT (R268). -/
  | sstat (d : BitVec 7) (s : BitVec 4)
  /-- SCLOSE (R267). -/
  | sclose (s : BitVec 4)
  /-- COPY (R267). -/
  | copy (a : BitVec 7) (s : BitVec 4)
  /-- SORT (R269). -/
  | sort (a : BitVec 7) (s : BitVec 4)
  /-- BIN (R270). -/
  | bin (a : BitVec 7) (s : BitVec 4)
  /-- AGDIM (R261). -/
  | agdim (c : BitVec 7) (s : BitVec 7) (j : BitVec 2)
  /-- AGBASE (R261). -/
  | agbase (l : BitVec 7) (a : BitVec 7)
  /-- AGLD (R262). -/
  | agld (q : BitVec 7) (s : BitVec 7) (z : BitVec 2)
  /-- AGST (R262). -/
  | agst (q : BitVec 7) (s : BitVec 7) (z : BitVec 2)
  /-- QSTAT (R263). -/
  | qstat (d : BitVec 7) (q : BitVec 4)
  /-- COLL (R398). -/
  | coll (a : BitVec 7) (s : BitVec 4)
  /-- CAMSET (R303). -/
  | camset (a : BitVec 7)
  /-- CAMGEN (R305). -/
  | camgen (d : BitVec 7) (a : BitVec 7)
  /-- BVHSET (R303). -/
  | bvhset (a : BitVec 7) (n : BitVec 2)
  /-- TRACE (R312). -/
  | trace (d : BitVec 7) (a : BitVec 7) (m : BitVec 2) (n : BitVec 2)
  /-- MLTSET (R303). -/
  | mltset (a : BitVec 7) (n : BitVec 2)
  /-- FRAGINS (R321). -/
  | fragins (a : BitVec 7) (n : BitVec 2)
  /-- LPOP (R324). -/
  | lpop (d : BitVec 7) (p : BitVec 7) (n : BitVec 2)
  /-- LRESOLVE (R325). -/
  | lresolve (d : BitVec 7) (p : BitVec 7) (n : BitVec 2)
  /-- LCLEAR (R325). -/
  | lclear (p : BitVec 7) (n : BitVec 2)
  /-- EMIT (R142). -/
  | emit (f : BitVec 7) (h : BitVec 7) (c : BitVec 5)
  /-- CYCLES (R160). -/
  | cycles (d : BitVec 7)
  /-- LINE_EVICTION (R198). -/
  | lineEviction (cluster : Bool) (unit line : Nat)
  /-- UNCORRECTABLE_ERROR (R350). -/
  | uncorrectableError (addr : Nat)
  /-- HDM_DECODER_WRITE (R394). -/
  | hdmDecoderWrite (base len : BitVec 64)
  /-- STAGGER_EXPIRY (R149). -/
  | staggerExpiry
  /-- COMPLETION_ACK (R391). -/
  | completionAck
  /-- FAULTSAVE_EXPIRY (R354). -/
  | faultsaveExpiry
  /-- DEADLINE_EXPIRY (R355). -/
  | deadlineExpiry
  /-- HANG_DETECTION (R365). -/
  | hangDetection
  /-- LOAD_INSTALL (R392). -/
  | loadInstall
  /-- TLB_INVALIDATE_RANGE (R344). -/
  | tlbInvalidateRange
  /-- TLB_INVALIDATE_ALL (R344). -/
  | tlbInvalidateAll
  /-- HULL_TAKEOVER (R390). -/
  | hullTakeover
  /-- HULL_FAILURE (R390). -/
  | hullFailure
  /-- KEXEC_ALL (R110). -/
  | kexecAll
  /-- RET (R68). -/
  | ret
  /-- NOP (R70). -/
  | nop
  /-- GBAR (R157). -/
  | gbar
  /-- YIELD (R155). -/
  | yield
  /-- EXIT (R71). -/
  | exit
  /-- ACQUIRE (R150). -/
  | acquire
  /-- RTE (R340). -/
  | rte
  /-- RTE_SKIP (R340). -/
  | rteSkip
  /-- BRK (R70). -/
  | brk
  /-- ORDENTER (R327). -/
  | ordenter
  /-- ORDEXIT (R327). -/
  | ordexit
  /-- FENCE_LOCAL (R209). -/
  | fenceLocal
  /-- COMMIT (R190). -/
  | commit
  /-- TLB_INVALIDATION_COMPLETE (R344). -/
  | tlbInvalidationComplete
  deriving DecidableEq, Repr

end Sys2Proof
end

