-- ==== Sys2Proof/Decode.lean ====
section
/-!
DEFINITION. The decoder of instruction words, total on any 32 bits, and the encoder (01 R27 to R45). A word that no row
of the opcode map gives is refused (none); whether it traps with ILLINSTR, ILLCLAUSE or ILLOPND is decided where the
clause issues (01 R46). Field values that a row admits as bits but the manual makes illegal (an M2 not listed, an ORD, an
odd pair) decode, and are refused by the legality checks of Machine/Legal.lean and Machine/Operands.lean.
-/
namespace Sys2Proof

/-- Format RRR: group 00 by OP6 (01 R28, R37). -/
def decodeRRR (w : Word) : Option Instr :=
  match (w.extractLsb' 24 6).toNat with
  | 0x00 => some (.iadd (w.extractLsb' 23 1) (w.extractLsb' 21 2) (w.extractLsb' 14 7) (w.extractLsb' 7 7) (w.extractLsb' 0 7))
  | 0x01 => some (.isub (w.extractLsb' 23 1) (w.extractLsb' 21 2) (w.extractLsb' 14 7) (w.extractLsb' 7 7) (w.extractLsb' 0 7))
  | 0x02 => if w.extractLsb' 21 2 = 0x0#2 then some (.imul (w.extractLsb' 23 1) (w.extractLsb' 14 7) (w.extractLsb' 7 7) (w.extractLsb' 0 7)) else none
  | 0x03 => some (.imulh (w.extractLsb' 23 1) (w.extractLsb' 21 2) (w.extractLsb' 14 7) (w.extractLsb' 7 7) (w.extractLsb' 0 7))
  | 0x04 => if w.extractLsb' 21 2 = 0x0#2 then some (.imac (w.extractLsb' 23 1) (w.extractLsb' 14 7) (w.extractLsb' 7 7) (w.extractLsb' 0 7)) else none
  | 0x05 => some (.imin (w.extractLsb' 23 1) (w.extractLsb' 21 2) (w.extractLsb' 14 7) (w.extractLsb' 7 7) (w.extractLsb' 0 7))
  | 0x06 => some (.imax (w.extractLsb' 23 1) (w.extractLsb' 21 2) (w.extractLsb' 14 7) (w.extractLsb' 7 7) (w.extractLsb' 0 7))
  | 0x07 => if w.extractLsb' 21 2 = 0x0#2 then some (.iadd64 (w.extractLsb' 23 1) (w.extractLsb' 14 7) (w.extractLsb' 7 7) (w.extractLsb' 0 7)) else none
  | 0x08 => if w.extractLsb' 21 2 = 0x0#2 then some (.isub64 (w.extractLsb' 23 1) (w.extractLsb' 14 7) (w.extractLsb' 7 7) (w.extractLsb' 0 7)) else none
  | 0x09 => if w.extractLsb' 21 2 = 0x0#2 then some (.and (w.extractLsb' 23 1) (w.extractLsb' 14 7) (w.extractLsb' 7 7) (w.extractLsb' 0 7)) else none
  | 0x0A => if w.extractLsb' 21 2 = 0x0#2 then some (.or (w.extractLsb' 23 1) (w.extractLsb' 14 7) (w.extractLsb' 7 7) (w.extractLsb' 0 7)) else none
  | 0x0B => if w.extractLsb' 21 2 = 0x0#2 then some (.xor (w.extractLsb' 23 1) (w.extractLsb' 14 7) (w.extractLsb' 7 7) (w.extractLsb' 0 7)) else none
  | 0x0C => if w.extractLsb' 21 2 = 0x0#2 then some (.andn (w.extractLsb' 23 1) (w.extractLsb' 14 7) (w.extractLsb' 7 7) (w.extractLsb' 0 7)) else none
  | 0x0D => if w.extractLsb' 21 2 = 0x0#2 then some (.shl (w.extractLsb' 23 1) (w.extractLsb' 14 7) (w.extractLsb' 7 7) (w.extractLsb' 0 7)) else none
  | 0x0E => if w.extractLsb' 21 2 = 0x0#2 then some (.shr (w.extractLsb' 23 1) (w.extractLsb' 14 7) (w.extractLsb' 7 7) (w.extractLsb' 0 7)) else none
  | 0x0F => if w.extractLsb' 21 2 = 0x0#2 then some (.sar (w.extractLsb' 23 1) (w.extractLsb' 14 7) (w.extractLsb' 7 7) (w.extractLsb' 0 7)) else none
  | 0x10 => if w.extractLsb' 21 2 = 0x0#2 then some (.rotl (w.extractLsb' 23 1) (w.extractLsb' 14 7) (w.extractLsb' 7 7) (w.extractLsb' 0 7)) else none
  | 0x11 => some (.bfx (w.extractLsb' 23 1) (w.extractLsb' 21 2) (w.extractLsb' 14 7) (w.extractLsb' 7 7) (w.extractLsb' 0 7))
  | 0x12 => if w.extractLsb' 21 2 = 0x0#2 then some (.bfi (w.extractLsb' 23 1) (w.extractLsb' 14 7) (w.extractLsb' 7 7) (w.extractLsb' 0 7)) else none
  | 0x13 => if w.extractLsb' 21 2 = 0x0#2 ∧ w.extractLsb' 0 7 = 0x0#7 then some (.popc (w.extractLsb' 23 1) (w.extractLsb' 14 7) (w.extractLsb' 7 7)) else none
  | 0x14 => if w.extractLsb' 21 2 = 0x0#2 ∧ w.extractLsb' 0 7 = 0x0#7 then some (.clz (w.extractLsb' 23 1) (w.extractLsb' 14 7) (w.extractLsb' 7 7)) else none
  | 0x15 => if w.extractLsb' 21 2 = 0x0#2 ∧ w.extractLsb' 0 7 = 0x0#7 then some (.brev (w.extractLsb' 23 1) (w.extractLsb' 14 7) (w.extractLsb' 7 7)) else none
  | 0x16 => some (.sel (w.extractLsb' 23 1) (w.extractLsb' 21 2) (w.extractLsb' 14 7) (w.extractLsb' 7 7) (w.extractLsb' 0 7))
  | 0x17 => if w.extractLsb' 21 2 = 0x0#2 ∧ w.extractLsb' 0 7 = 0x0#7 then some (.mov (w.extractLsb' 23 1) (w.extractLsb' 14 7) (w.extractLsb' 7 7)) else none
  | 0x18 => some (.fadd (w.extractLsb' 23 1) (w.extractLsb' 21 2) (w.extractLsb' 14 7) (w.extractLsb' 7 7) (w.extractLsb' 0 7))
  | 0x19 => some (.fsub (w.extractLsb' 23 1) (w.extractLsb' 21 2) (w.extractLsb' 14 7) (w.extractLsb' 7 7) (w.extractLsb' 0 7))
  | 0x1A => some (.fmul (w.extractLsb' 23 1) (w.extractLsb' 21 2) (w.extractLsb' 14 7) (w.extractLsb' 7 7) (w.extractLsb' 0 7))
  | 0x1B => some (.ffma (w.extractLsb' 23 1) (w.extractLsb' 21 2) (w.extractLsb' 14 7) (w.extractLsb' 7 7) (w.extractLsb' 0 7))
  | 0x1C => some (.ffms (w.extractLsb' 23 1) (w.extractLsb' 21 2) (w.extractLsb' 14 7) (w.extractLsb' 7 7) (w.extractLsb' 0 7))
  | 0x1D => some (.fnma (w.extractLsb' 23 1) (w.extractLsb' 21 2) (w.extractLsb' 14 7) (w.extractLsb' 7 7) (w.extractLsb' 0 7))
  | 0x1E => some (.fmin (w.extractLsb' 23 1) (w.extractLsb' 21 2) (w.extractLsb' 14 7) (w.extractLsb' 7 7) (w.extractLsb' 0 7))
  | 0x1F => some (.fmax (w.extractLsb' 23 1) (w.extractLsb' 21 2) (w.extractLsb' 14 7) (w.extractLsb' 7 7) (w.extractLsb' 0 7))
  | 0x20 => some (.icmpEq (w.extractLsb' 23 1) (w.extractLsb' 21 2) (w.extractLsb' 14 7) (w.extractLsb' 7 7) (w.extractLsb' 0 7))
  | 0x21 => some (.icmpNe (w.extractLsb' 23 1) (w.extractLsb' 21 2) (w.extractLsb' 14 7) (w.extractLsb' 7 7) (w.extractLsb' 0 7))
  | 0x22 => some (.icmpLt (w.extractLsb' 23 1) (w.extractLsb' 21 2) (w.extractLsb' 14 7) (w.extractLsb' 7 7) (w.extractLsb' 0 7))
  | 0x23 => some (.icmpLe (w.extractLsb' 23 1) (w.extractLsb' 21 2) (w.extractLsb' 14 7) (w.extractLsb' 7 7) (w.extractLsb' 0 7))
  | 0x24 => some (.icmpLtn (w.extractLsb' 23 1) (w.extractLsb' 21 2) (w.extractLsb' 14 7) (w.extractLsb' 7 7) (w.extractLsb' 0 7))
  | 0x25 => some (.icmpLen (w.extractLsb' 23 1) (w.extractLsb' 21 2) (w.extractLsb' 14 7) (w.extractLsb' 7 7) (w.extractLsb' 0 7))
  | 0x26 => some (.fcmpEq (w.extractLsb' 23 1) (w.extractLsb' 21 2) (w.extractLsb' 14 7) (w.extractLsb' 7 7) (w.extractLsb' 0 7))
  | 0x27 => some (.fcmpNe (w.extractLsb' 23 1) (w.extractLsb' 21 2) (w.extractLsb' 14 7) (w.extractLsb' 7 7) (w.extractLsb' 0 7))
  | 0x28 => some (.fcmpLt (w.extractLsb' 23 1) (w.extractLsb' 21 2) (w.extractLsb' 14 7) (w.extractLsb' 7 7) (w.extractLsb' 0 7))
  | 0x29 => some (.fcmpLe (w.extractLsb' 23 1) (w.extractLsb' 21 2) (w.extractLsb' 14 7) (w.extractLsb' 7 7) (w.extractLsb' 0 7))
  | 0x2A => some (.fcmpUn (w.extractLsb' 23 1) (w.extractLsb' 21 2) (w.extractLsb' 14 7) (w.extractLsb' 7 7) (w.extractLsb' 0 7))
  | 0x2B => some (.dcmpLt (w.extractLsb' 23 1) (w.extractLsb' 21 2) (w.extractLsb' 14 7) (w.extractLsb' 7 7) (w.extractLsb' 0 7))
  | 0x2C => some (.dcmpEq (w.extractLsb' 23 1) (w.extractLsb' 21 2) (w.extractLsb' 14 7) (w.extractLsb' 7 7) (w.extractLsb' 0 7))
  | 0x2D => if w.extractLsb' 0 7 = 0x0#7 then some (.fabs (w.extractLsb' 23 1) (w.extractLsb' 21 2) (w.extractLsb' 14 7) (w.extractLsb' 7 7)) else none
  | 0x2E => if w.extractLsb' 0 7 = 0x0#7 then some (.fneg (w.extractLsb' 23 1) (w.extractLsb' 21 2) (w.extractLsb' 14 7) (w.extractLsb' 7 7)) else none
  | 0x2F => if w.extractLsb' 21 2 = 0x0#2 ∧ w.extractLsb' 0 7 = 0x0#7 then some (.fclass (w.extractLsb' 23 1) (w.extractLsb' 14 7) (w.extractLsb' 7 7)) else none
  | 0x30 => if w.extractLsb' 21 2 = 0x0#2 then some (.shflIdx (w.extractLsb' 23 1) (w.extractLsb' 14 7) (w.extractLsb' 7 7) (w.extractLsb' 0 7)) else none
  | 0x31 => if w.extractLsb' 21 2 = 0x0#2 then some (.shflXor (w.extractLsb' 23 1) (w.extractLsb' 14 7) (w.extractLsb' 7 7) (w.extractLsb' 0 7)) else none
  | 0x32 => if w.extractLsb' 21 2 = 0x0#2 then some (.shflUp (w.extractLsb' 23 1) (w.extractLsb' 14 7) (w.extractLsb' 7 7) (w.extractLsb' 0 7)) else none
  | 0x33 => if w.extractLsb' 21 2 = 0x0#2 then some (.shflDn (w.extractLsb' 23 1) (w.extractLsb' 14 7) (w.extractLsb' 7 7) (w.extractLsb' 0 7)) else none
  | 0x34 => if w.extractLsb' 21 2 = 0x0#2 ∧ w.extractLsb' 0 7 = 0x0#7 then some (.ballot (w.extractLsb' 23 1) (w.extractLsb' 14 7) (w.extractLsb' 7 7)) else none
  | 0x35 => some (.redadd (w.extractLsb' 23 1) (w.extractLsb' 21 2) (w.extractLsb' 14 7) (w.extractLsb' 7 7) (w.extractLsb' 0 7))
  | 0x36 => some (.redmm (w.extractLsb' 23 1) (w.extractLsb' 21 2) (w.extractLsb' 14 7) (w.extractLsb' 7 7) (w.extractLsb' 0 7))
  | 0x37 => some (.scan (w.extractLsb' 23 1) (w.extractLsb' 21 2) (w.extractLsb' 14 7) (w.extractLsb' 7 7) (w.extractLsb' 0 7))
  | 0x38 => if w.extractLsb' 21 2 = 0x0#2 then some (.readlane (w.extractLsb' 23 1) (w.extractLsb' 14 7) (w.extractLsb' 7 7) (w.extractLsb' 0 7)) else none
  | 0x39 => if w.extractLsb' 21 2 = 0x0#2 ∧ w.extractLsb' 0 7 = 0x0#7 then some (.shapeof (w.extractLsb' 23 1) (w.extractLsb' 14 7) (w.extractLsb' 7 7)) else none
  | 0x3A => if w.extractLsb' 21 2 = 0x0#2 ∧ w.extractLsb' 0 7 = 0x0#7 then some (.shapegen (w.extractLsb' 23 1) (w.extractLsb' 14 7) (w.extractLsb' 7 7)) else none
  | 0x3B => if w.extractLsb' 21 2 = 0x0#2 ∧ w.extractLsb' 0 7 = 0x0#7 then some (.movk (w.extractLsb' 23 1) (w.extractLsb' 14 7) (w.extractLsb' 7 7)) else none
  | 0x3C => if w.extractLsb' 21 2 = 0x0#2 ∧ w.extractLsb' 0 7 = 0x0#7 then some (.mov64 (w.extractLsb' 23 1) (w.extractLsb' 14 7) (w.extractLsb' 7 7)) else none
  | _ => none

/-- CTLX by SUB6 (01 R39). -/
def decodeCtlx (w : Word) : Option Instr :=
  match (w.extractLsb' 19 6).toNat with
  | 0x00 => if w.extractLsb' 0 19 = 0x0#19 then some .nop else none
  | 0x01 => some (.barInit (w.extractLsb' 13 6) (w.extractLsb' 0 13))
  | 0x02 => if w.extractLsb' 0 13 = 0x0#13 then some (.barArrive (w.extractLsb' 13 6)) else none
  | 0x03 => if w.extractLsb' 0 13 = 0x0#13 then some (.barWait (w.extractLsb' 13 6)) else none
  | 0x04 => if w.extractLsb' 0 13 = 0x0#13 then some (.barSync (w.extractLsb' 13 6)) else none
  | 0x05 => if w.extractLsb' 0 19 = 0x0#19 then some .gbar else none
  | 0x06 => if w.extractLsb' 0 12 = 0x0#12 then some (.jmpr (w.extractLsb' 12 7)) else none
  | 0x07 => if w.extractLsb' 0 19 = 0x0#19 then some .yield else none
  | 0x08 => if w.extractLsb' 0 19 = 0x0#19 then some .exit else none
  | 0x09 => if w.extractLsb' 0 19 = 0x0#19 then some .acquire else none
  | 0x0A => if w.extractLsb' 8 11 = 0x0#11 then some (.trap (w.extractLsb' 0 8)) else none
  | 0x0B => if w.extractLsb' 0 19 = 0x0#19 then some .rte else if w.extractLsb' 0 19 = 0x1#19 then some .rteSkip else none
  | 0x0C => if w.extractLsb' 0 19 = 0x0#19 then some .brk else none
  | 0x0D => if w.extractLsb' 0 19 = 0x0#19 then some .ordenter else none
  | 0x0E => if w.extractLsb' 0 19 = 0x0#19 then some .ordexit else none
  | _ => none

/-- MEMX by SUB6 (01 R42). -/
def decodeMemx (w : Word) : Option Instr :=
  match (w.extractLsb' 19 6).toNat with
  | 0x00 => if w.extractLsb' 5 14 = 0x0#14 ∧ w.extractLsb' 0 3 = 0x1#3 then some (.fenceAcq (w.extractLsb' 3 2)) else if w.extractLsb' 5 14 = 0x0#14 ∧ w.extractLsb' 0 3 = 0x2#3 then some (.fenceRel (w.extractLsb' 3 2)) else if w.extractLsb' 5 14 = 0x0#14 ∧ w.extractLsb' 0 3 = 0x3#3 then some (.fenceFull (w.extractLsb' 3 2)) else if w.extractLsb' 0 19 = 0x4#19 then some .fenceLocal else none
  | 0x01 => if w.extractLsb' 0 5 = 0x0#5 then some (.xfence (w.extractLsb' 13 6) (w.extractLsb' 7 6) (w.extractLsb' 5 2)) else none
  | 0x02 => if w.extractLsb' 0 5 = 0x0#5 then some (.spill (w.extractLsb' 12 7) (w.extractLsb' 5 7)) else none
  | 0x03 => if w.extractLsb' 0 5 = 0x0#5 then some (.fill (w.extractLsb' 12 7) (w.extractLsb' 5 7)) else none
  | 0x04 => if w.extractLsb' 0 5 = 0x0#5 then some (.waita (w.extractLsb' 12 7) (w.extractLsb' 5 7)) else none
  | 0x05 => if w.extractLsb' 0 5 = 0x0#5 then some (.wake (w.extractLsb' 12 7) (w.extractLsb' 5 7)) else none
  | 0x06 => if w.extractLsb' 2 3 = 0x0#3 then some (.waitp (w.extractLsb' 12 7) (w.extractLsb' 5 7) (w.extractLsb' 0 2)) else none
  | 0x07 => if w.extractLsb' 0 3 = 0x0#3 then some (.xadd (w.extractLsb' 12 7) (w.extractLsb' 5 7) (w.extractLsb' 3 2)) else none
  | 0x08 => if w.extractLsb' 4 1 = 0x0#1 then some (.esample (w.extractLsb' 12 7) (w.extractLsb' 5 7) (w.extractLsb' 0 4)) else none
  | 0x09 => if w.extractLsb' 4 1 = 0x0#1 then some (.eload (w.extractLsb' 12 7) (w.extractLsb' 5 7) (w.extractLsb' 0 4)) else none
  | 0x0A => if w.extractLsb' 12 7 = 0x0#7 ∧ w.extractLsb' 4 1 = 0x0#1 then some (.edecay (w.extractLsb' 5 7) (w.extractLsb' 0 4)) else none
  | 0x0B => if w.extractLsb' 4 15 = 0x0#15 then some (.esweep (w.extractLsb' 0 4)) else none
  | 0x0C => if w.extractLsb' 12 7 = 0x0#7 ∧ w.extractLsb' 4 1 = 0x0#1 then some (.eregion (w.extractLsb' 5 7) (w.extractLsb' 0 4)) else none
  | 0x0D => if w.extractLsb' 12 7 = 0x0#7 ∧ w.extractLsb' 0 5 = 0x0#5 then some (.prefetch (w.extractLsb' 5 7)) else none
  | _ => none

/-- MXSF by SUB6 (01 R43). -/
def decodeMxsf (w : Word) : Option Instr :=
  match (w.extractLsb' 19 6).toNat with
  | 0x00 => if w.extractLsb' 12 7 = 0x0#7 ∧ w.extractLsb' 0 5 = 0x0#5 then some (.mma (w.extractLsb' 5 7)) else none
  | 0x01 => if w.extractLsb' 12 7 = 0x0#7 ∧ w.extractLsb' 0 5 = 0x0#5 then some (.mdrain (w.extractLsb' 5 7)) else none
  | 0x02 => if w.extractLsb' 3 16 = 0x0#16 then some (.mzero (w.extractLsb' 0 3)) else none
  | 0x03 => if w.extractLsb' 3 16 = 0x0#16 then some (.tkgive (w.extractLsb' 0 3)) else none
  | 0x04 => if w.extractLsb' 3 16 = 0x0#16 then some (.tktake (w.extractLsb' 0 3)) else none
  | 0x05 => if w.extractLsb' 4 1 = 0x0#1 then some (.accrd (w.extractLsb' 12 7) (w.extractLsb' 5 7) (w.extractLsb' 3 1) (w.extractLsb' 0 3)) else none
  | 0x06 => if w.extractLsb' 4 1 = 0x0#1 then some (.accwr (w.extractLsb' 12 7) (w.extractLsb' 5 7) (w.extractLsb' 3 1) (w.extractLsb' 0 3)) else none
  | 0x07 => if w.extractLsb' 0 12 = 0x0#12 then some (.mstat (w.extractLsb' 12 7)) else none
  | 0x20 => some (.sfi (w.extractLsb' 19 3) (w.extractLsb' 12 7) (w.extractLsb' 5 7) (w.extractLsb' 0 5))
  | 0x21 => some (.sfi (w.extractLsb' 19 3) (w.extractLsb' 12 7) (w.extractLsb' 5 7) (w.extractLsb' 0 5))
  | 0x22 => some (.sfi (w.extractLsb' 19 3) (w.extractLsb' 12 7) (w.extractLsb' 5 7) (w.extractLsb' 0 5))
  | 0x23 => some (.sfi (w.extractLsb' 19 3) (w.extractLsb' 12 7) (w.extractLsb' 5 7) (w.extractLsb' 0 5))
  | 0x24 => some (.sfi (w.extractLsb' 19 3) (w.extractLsb' 12 7) (w.extractLsb' 5 7) (w.extractLsb' 0 5))
  | 0x25 => some (.sfi (w.extractLsb' 19 3) (w.extractLsb' 12 7) (w.extractLsb' 5 7) (w.extractLsb' 0 5))
  | 0x26 => some (.sfi (w.extractLsb' 19 3) (w.extractLsb' 12 7) (w.extractLsb' 5 7) (w.extractLsb' 0 5))
  | 0x27 => some (.sfi (w.extractLsb' 19 3) (w.extractLsb' 12 7) (w.extractLsb' 5 7) (w.extractLsb' 0 5))
  | 0x28 => if w.extractLsb' 13 6 = 0x0#6 ∧ w.extractLsb' 0 5 = 0x0#5 then some (.sfwait (w.extractLsb' 5 8)) else none
  | 0x29 => if w.extractLsb' 13 2 = 0x0#2 ∧ w.extractLsb' 0 5 = 0x0#5 then some (.sfpoll (w.extractLsb' 15 4) (w.extractLsb' 5 8)) else none
  | _ => none

/-- STRV by SUB6 (01 R44). -/
def decodeStrv (w : Word) : Option Instr :=
  match (w.extractLsb' 19 6).toNat with
  | 0x00 => if w.extractLsb' 0 4 = 0x0#4 then some (.tidset (w.extractLsb' 12 7) (w.extractLsb' 4 8)) else none
  | 0x01 => if w.extractLsb' 4 8 = 0x0#8 then some (.sopen (w.extractLsb' 12 7) (w.extractLsb' 0 4)) else none
  | 0x02 => if w.extractLsb' 4 15 = 0x0#15 then some (.sgo (w.extractLsb' 0 4)) else none
  | 0x03 => if w.extractLsb' 12 7 = 0x0#7 ∧ w.extractLsb' 4 1 = 0x0#1 then some (.sslot (w.extractLsb' 5 7) (w.extractLsb' 0 4)) else none
  | 0x04 => if w.extractLsb' 4 8 = 0x0#8 then some (.sstat (w.extractLsb' 12 7) (w.extractLsb' 0 4)) else none
  | 0x05 => if w.extractLsb' 4 15 = 0x0#15 then some (.sclose (w.extractLsb' 0 4)) else none
  | 0x06 => if w.extractLsb' 4 8 = 0x0#8 then some (.copy (w.extractLsb' 12 7) (w.extractLsb' 0 4)) else none
  | 0x07 => if w.extractLsb' 4 8 = 0x0#8 then some (.sort (w.extractLsb' 12 7) (w.extractLsb' 0 4)) else none
  | 0x08 => if w.extractLsb' 4 8 = 0x0#8 then some (.bin (w.extractLsb' 12 7) (w.extractLsb' 0 4)) else none
  | 0x09 => if w.extractLsb' 2 3 = 0x0#3 then some (.agdim (w.extractLsb' 12 7) (w.extractLsb' 5 7) (w.extractLsb' 0 2)) else none
  | 0x0A => if w.extractLsb' 0 5 = 0x0#5 then some (.agbase (w.extractLsb' 12 7) (w.extractLsb' 5 7)) else none
  | 0x0B => if w.extractLsb' 0 3 = 0x0#3 then some (.agld (w.extractLsb' 12 7) (w.extractLsb' 5 7) (w.extractLsb' 3 2)) else none
  | 0x0C => if w.extractLsb' 0 3 = 0x0#3 then some (.agst (w.extractLsb' 12 7) (w.extractLsb' 5 7) (w.extractLsb' 3 2)) else none
  | 0x0D => if w.extractLsb' 4 8 = 0x0#8 then some (.qstat (w.extractLsb' 12 7) (w.extractLsb' 0 4)) else none
  | 0x10 => if w.extractLsb' 4 8 = 0x0#8 then some (.coll (w.extractLsb' 12 7) (w.extractLsb' 0 4)) else none
  | 0x20 => if w.extractLsb' 12 7 = 0x0#7 ∧ w.extractLsb' 0 5 = 0x0#5 then some (.camset (w.extractLsb' 5 7)) else none
  | 0x21 => if w.extractLsb' 0 5 = 0x0#5 then some (.camgen (w.extractLsb' 12 7) (w.extractLsb' 5 7)) else none
  | 0x22 => if w.extractLsb' 12 7 = 0x0#7 ∧ w.extractLsb' 2 3 = 0x0#3 then some (.bvhset (w.extractLsb' 5 7) (w.extractLsb' 0 2)) else none
  | 0x23 => if w.extractLsb' 2 1 = 0x0#1 then some (.trace (w.extractLsb' 12 7) (w.extractLsb' 5 7) (w.extractLsb' 3 2) (w.extractLsb' 0 2)) else none
  | 0x24 => if w.extractLsb' 12 7 = 0x0#7 ∧ w.extractLsb' 2 3 = 0x0#3 then some (.mltset (w.extractLsb' 5 7) (w.extractLsb' 0 2)) else none
  | 0x25 => if w.extractLsb' 12 7 = 0x0#7 ∧ w.extractLsb' 2 3 = 0x0#3 then some (.fragins (w.extractLsb' 5 7) (w.extractLsb' 0 2)) else none
  | 0x26 => if w.extractLsb' 2 3 = 0x0#3 then some (.lpop (w.extractLsb' 12 7) (w.extractLsb' 5 7) (w.extractLsb' 0 2)) else none
  | 0x27 => if w.extractLsb' 2 3 = 0x0#3 then some (.lresolve (w.extractLsb' 12 7) (w.extractLsb' 5 7) (w.extractLsb' 0 2)) else none
  | 0x28 => if w.extractLsb' 12 7 = 0x0#7 ∧ w.extractLsb' 2 3 = 0x0#3 then some (.lclear (w.extractLsb' 5 7) (w.extractLsb' 0 2)) else none
  | _ => none

/-- SYSX by SUB6 (01 R45). -/
def decodeSysx (w : Word) : Option Instr :=
  match (w.extractLsb' 19 6).toNat with
  | 0x00 => some (.emit (w.extractLsb' 12 7) (w.extractLsb' 5 7) (w.extractLsb' 0 5))
  | 0x01 => if w.extractLsb' 0 12 = 0x0#12 then some (.cycles (w.extractLsb' 12 7)) else none
  | 0x02 => if w.extractLsb' 0 19 = 0x0#19 then some .commit else none
  | _ => none

/-- Group 01 by OP5 (01 R30, R38). -/
def decode01 (w : Word) : Option Instr :=
  match (w.extractLsb' 25 5).toNat with
  | 0x00 => some (.iaddi (w.extractLsb' 18 7) (w.extractLsb' 11 7) (w.extractLsb' 0 11))
  | 0x01 => some (.andi (w.extractLsb' 18 7) (w.extractLsb' 11 7) (w.extractLsb' 0 11))
  | 0x02 => some (.ori (w.extractLsb' 18 7) (w.extractLsb' 11 7) (w.extractLsb' 0 11))
  | 0x03 => some (.xori (w.extractLsb' 18 7) (w.extractLsb' 11 7) (w.extractLsb' 0 11))
  | 0x04 => some (.shli (w.extractLsb' 18 7) (w.extractLsb' 11 7) (w.extractLsb' 0 11))
  | 0x05 => some (.shri (w.extractLsb' 18 7) (w.extractLsb' 11 7) (w.extractLsb' 0 11))
  | 0x06 => some (.sari (w.extractLsb' 18 7) (w.extractLsb' 11 7) (w.extractLsb' 0 11))
  | 0x07 => some (.imuli (w.extractLsb' 18 7) (w.extractLsb' 11 7) (w.extractLsb' 0 11))
  | 0x08 => some (.icmpiEq (w.extractLsb' 18 7) (w.extractLsb' 11 7) (w.extractLsb' 0 11))
  | 0x09 => some (.icmpiLt (w.extractLsb' 18 7) (w.extractLsb' 11 7) (w.extractLsb' 0 11))
  | 0x0A => some (.icmpiLtn (w.extractLsb' 18 7) (w.extractLsb' 11 7) (w.extractLsb' 0 11))
  | 0x0B => some (.iaddi64 (w.extractLsb' 18 7) (w.extractLsb' 11 7) (w.extractLsb' 0 11))
  | 0x0C => if w.extractLsb' 11 7 = 0x0#7 then some (.gets (w.extractLsb' 18 7) (w.extractLsb' 0 11)) else none
  | 0x0D => if w.extractLsb' 18 7 = 0x0#7 then some (.sets (w.extractLsb' 11 7) (w.extractLsb' 0 11)) else none
  | 0x0E => some (.affine (w.extractLsb' 18 7) (w.extractLsb' 11 7) (w.extractLsb' 0 11))
  | 0x10 => some (.ldiLo (w.extractLsb' 18 7) (w.extractLsb' 0 18))
  | 0x11 => if w.extractLsb' 14 4 = 0x0#4 then some (.ldiHi (w.extractLsb' 18 7) (w.extractLsb' 0 14)) else none
  | 0x12 => some (.ldiS (w.extractLsb' 18 7) (w.extractLsb' 0 18))
  | 0x13 => some (.ldif (w.extractLsb' 18 7) (w.extractLsb' 0 18))
  | 0x14 => some (.cvt (w.extractLsb' 18 7) (w.extractLsb' 11 7) (w.extractLsb' 7 4) (w.extractLsb' 3 4) (w.extractLsb' 0 3))
  | 0x15 => if w.extractLsb' 0 13 = 0x0#13 then some (.kopAnd (w.extractLsb' 21 4) (w.extractLsb' 17 4) (w.extractLsb' 13 4)) else if w.extractLsb' 0 13 = 0x400#13 then some (.kopOr (w.extractLsb' 21 4) (w.extractLsb' 17 4) (w.extractLsb' 13 4)) else if w.extractLsb' 0 13 = 0x800#13 then some (.kopXor (w.extractLsb' 21 4) (w.extractLsb' 17 4) (w.extractLsb' 13 4)) else if w.extractLsb' 0 13 = 0xC00#13 then some (.kopAndn (w.extractLsb' 21 4) (w.extractLsb' 17 4) (w.extractLsb' 13 4)) else if w.extractLsb' 0 17 = 0x1000#17 then some (.kopNot (w.extractLsb' 21 4) (w.extractLsb' 17 4)) else if w.extractLsb' 0 17 = 0x1400#17 then some (.kopMov (w.extractLsb' 21 4) (w.extractLsb' 17 4)) else if w.extractLsb' 0 21 = 0x1800#21 then some (.kopSetall (w.extractLsb' 21 4)) else if w.extractLsb' 0 21 = 0x1C00#21 then some (.kopClear (w.extractLsb' 21 4)) else none
  | 0x16 => if w.extractLsb' 0 21 = 0x0#21 then some (.kexecSave (w.extractLsb' 21 4)) else if w.extractLsb' 21 4 = 0x0#4 ∧ w.extractLsb' 0 17 = 0x400#17 then some (.kexecSet (w.extractLsb' 17 4)) else if w.extractLsb' 21 4 = 0x0#4 ∧ w.extractLsb' 0 17 = 0x800#17 then some (.kexecAnd (w.extractLsb' 17 4)) else if w.extractLsb' 21 4 = 0x0#4 ∧ w.extractLsb' 0 17 = 0xC00#17 then some (.kexecAndn (w.extractLsb' 17 4)) else if w.extractLsb' 21 4 = 0x0#4 ∧ w.extractLsb' 0 17 = 0x1000#17 then some (.kexecOr (w.extractLsb' 17 4)) else if w.extractLsb' 0 25 = 0x1400#25 then some .kexecAll else none
  | 0x18 => if w.extractLsb' 21 4 = 0x0#4 then some (.bra (w.extractLsb' 0 21)) else none
  | 0x19 => some (.brany (w.extractLsb' 21 4) (w.extractLsb' 0 21))
  | 0x1A => some (.brall (w.extractLsb' 21 4) (w.extractLsb' 0 21))
  | 0x1B => some (.brnone (w.extractLsb' 21 4) (w.extractLsb' 0 21))
  | 0x1C => if w.extractLsb' 21 4 = 0x0#4 then some (.call (w.extractLsb' 0 21)) else none
  | 0x1D => if w.extractLsb' 0 25 = 0x0#25 then some .ret else none
  | 0x1E => some (.reform (w.extractLsb' 21 4) (w.extractLsb' 0 21))
  | 0x1F => decodeCtlx w
  | _ => none

/-- Group 10 by OP5 (01 R32, R40, R41). -/
def decode10 (w : Word) : Option Instr :=
  match (w.extractLsb' 25 5).toNat with
  | 0x00 => some (.ldN8 (w.extractLsb' 23 2) (w.extractLsb' 16 7) (w.extractLsb' 9 7) (w.extractLsb' 0 9))
  | 0x01 => some (.ldI8 (w.extractLsb' 23 2) (w.extractLsb' 16 7) (w.extractLsb' 9 7) (w.extractLsb' 0 9))
  | 0x02 => some (.ldN16 (w.extractLsb' 23 2) (w.extractLsb' 16 7) (w.extractLsb' 9 7) (w.extractLsb' 0 9))
  | 0x03 => some (.ldI16 (w.extractLsb' 23 2) (w.extractLsb' 16 7) (w.extractLsb' 9 7) (w.extractLsb' 0 9))
  | 0x04 => some (.ld32 (w.extractLsb' 23 2) (w.extractLsb' 16 7) (w.extractLsb' 9 7) (w.extractLsb' 0 9))
  | 0x05 => some (.ld64 (w.extractLsb' 23 2) (w.extractLsb' 16 7) (w.extractLsb' 9 7) (w.extractLsb' 0 9))
  | 0x06 => some (.ld128 (w.extractLsb' 23 2) (w.extractLsb' 16 7) (w.extractLsb' 9 7) (w.extractLsb' 0 9))
  | 0x07 => some (.st8 (w.extractLsb' 23 2) (w.extractLsb' 16 7) (w.extractLsb' 9 7) (w.extractLsb' 0 9))
  | 0x08 => some (.st16 (w.extractLsb' 23 2) (w.extractLsb' 16 7) (w.extractLsb' 9 7) (w.extractLsb' 0 9))
  | 0x09 => some (.st32 (w.extractLsb' 23 2) (w.extractLsb' 16 7) (w.extractLsb' 9 7) (w.extractLsb' 0 9))
  | 0x0A => some (.st64 (w.extractLsb' 23 2) (w.extractLsb' 16 7) (w.extractLsb' 9 7) (w.extractLsb' 0 9))
  | 0x0B => some (.st128 (w.extractLsb' 23 2) (w.extractLsb' 16 7) (w.extractLsb' 9 7) (w.extractLsb' 0 9))
  | 0x0C => if w.extractLsb' 23 2 = 0x0#2 then some (.ldp32 (w.extractLsb' 16 7) (w.extractLsb' 9 7) (w.extractLsb' 0 9)) else none
  | 0x0D => if w.extractLsb' 23 2 = 0x0#2 then some (.ldp128 (w.extractLsb' 16 7) (w.extractLsb' 9 7) (w.extractLsb' 0 9)) else none
  | 0x0E => if w.extractLsb' 23 2 = 0x0#2 then some (.stp32 (w.extractLsb' 16 7) (w.extractLsb' 9 7) (w.extractLsb' 0 9)) else none
  | 0x0F => if w.extractLsb' 23 2 = 0x0#2 then some (.stp128 (w.extractLsb' 16 7) (w.extractLsb' 9 7) (w.extractLsb' 0 9)) else none
  | 0x10 => some (.atomAddI32 (w.extractLsb' 23 2) (w.extractLsb' 21 2) (w.extractLsb' 14 7) (w.extractLsb' 7 7) (w.extractLsb' 0 7))
  | 0x11 => some (.atomAddI64 (w.extractLsb' 23 2) (w.extractLsb' 21 2) (w.extractLsb' 14 7) (w.extractLsb' 7 7) (w.extractLsb' 0 7))
  | 0x12 => some (.atomMinI32 (w.extractLsb' 23 2) (w.extractLsb' 21 2) (w.extractLsb' 14 7) (w.extractLsb' 7 7) (w.extractLsb' 0 7))
  | 0x13 => some (.atomMaxI32 (w.extractLsb' 23 2) (w.extractLsb' 21 2) (w.extractLsb' 14 7) (w.extractLsb' 7 7) (w.extractLsb' 0 7))
  | 0x14 => some (.atomMinN32 (w.extractLsb' 23 2) (w.extractLsb' 21 2) (w.extractLsb' 14 7) (w.extractLsb' 7 7) (w.extractLsb' 0 7))
  | 0x15 => some (.atomMaxN32 (w.extractLsb' 23 2) (w.extractLsb' 21 2) (w.extractLsb' 14 7) (w.extractLsb' 7 7) (w.extractLsb' 0 7))
  | 0x16 => some (.atomAnd (w.extractLsb' 23 2) (w.extractLsb' 21 2) (w.extractLsb' 14 7) (w.extractLsb' 7 7) (w.extractLsb' 0 7))
  | 0x17 => some (.atomOr (w.extractLsb' 23 2) (w.extractLsb' 21 2) (w.extractLsb' 14 7) (w.extractLsb' 7 7) (w.extractLsb' 0 7))
  | 0x18 => some (.atomXor (w.extractLsb' 23 2) (w.extractLsb' 21 2) (w.extractLsb' 14 7) (w.extractLsb' 7 7) (w.extractLsb' 0 7))
  | 0x19 => some (.atomXchg (w.extractLsb' 23 2) (w.extractLsb' 21 2) (w.extractLsb' 14 7) (w.extractLsb' 7 7) (w.extractLsb' 0 7))
  | 0x1A => some (.atomCas (w.extractLsb' 23 2) (w.extractLsb' 21 2) (w.extractLsb' 14 7) (w.extractLsb' 7 7) (w.extractLsb' 0 7))
  | 0x1B => some (.atomXchg64 (w.extractLsb' 23 2) (w.extractLsb' 21 2) (w.extractLsb' 14 7) (w.extractLsb' 7 7) (w.extractLsb' 0 7))
  | 0x1C => decodeMemx w
  | 0x1D => decodeMxsf w
  | 0x1E => decodeStrv w
  | 0x1F => decodeSysx w
  | _ => none

/-- The instruction a word holds, by its group (01 R27). -/
def decode (w : Word) : Option Instr :=
  match (w.extractLsb' 30 2).toNat with
  | 0 => decodeRRR w
  | 1 => decode01 w
  | 2 => decode10 w
  | _ => none

/-- The word of an instruction, fields from the most significant bit down (01 R28 to R45). An event has no word. -/
def encode (i : Instr) : Option Word :=
  match i with
  | .iadd n m d a b => some (0x0#8 ++ n ++ m ++ d ++ a ++ b)
  | .isub n m d a b => some (0x1#8 ++ n ++ m ++ d ++ a ++ b)
  | .imul n d a b => some (0x2#8 ++ n ++ 0x0#2 ++ d ++ a ++ b)
  | .imulh n m d a b => some (0x3#8 ++ n ++ m ++ d ++ a ++ b)
  | .imac n d a b => some (0x4#8 ++ n ++ 0x0#2 ++ d ++ a ++ b)
  | .imin n m d a b => some (0x5#8 ++ n ++ m ++ d ++ a ++ b)
  | .imax n m d a b => some (0x6#8 ++ n ++ m ++ d ++ a ++ b)
  | .iadd64 n d a b => some (0x7#8 ++ n ++ 0x0#2 ++ d ++ a ++ b)
  | .isub64 n d a b => some (0x8#8 ++ n ++ 0x0#2 ++ d ++ a ++ b)
  | .and n d a b => some (0x9#8 ++ n ++ 0x0#2 ++ d ++ a ++ b)
  | .or n d a b => some (0xA#8 ++ n ++ 0x0#2 ++ d ++ a ++ b)
  | .xor n d a b => some (0xB#8 ++ n ++ 0x0#2 ++ d ++ a ++ b)
  | .andn n d a b => some (0xC#8 ++ n ++ 0x0#2 ++ d ++ a ++ b)
  | .shl n d a b => some (0xD#8 ++ n ++ 0x0#2 ++ d ++ a ++ b)
  | .shr n d a b => some (0xE#8 ++ n ++ 0x0#2 ++ d ++ a ++ b)
  | .sar n d a b => some (0xF#8 ++ n ++ 0x0#2 ++ d ++ a ++ b)
  | .rotl n d a b => some (0x10#8 ++ n ++ 0x0#2 ++ d ++ a ++ b)
  | .bfx n m d a b => some (0x11#8 ++ n ++ m ++ d ++ a ++ b)
  | .bfi n d a b => some (0x12#8 ++ n ++ 0x0#2 ++ d ++ a ++ b)
  | .popc n d a => some (0x13#8 ++ n ++ 0x0#2 ++ d ++ a ++ 0x0#7)
  | .clz n d a => some (0x14#8 ++ n ++ 0x0#2 ++ d ++ a ++ 0x0#7)
  | .brev n d a => some (0x15#8 ++ n ++ 0x0#2 ++ d ++ a ++ 0x0#7)
  | .sel n k d a b => some (0x16#8 ++ n ++ k ++ d ++ a ++ b)
  | .mov n d a => some (0x17#8 ++ n ++ 0x0#2 ++ d ++ a ++ 0x0#7)
  | .fadd n m d a b => some (0x18#8 ++ n ++ m ++ d ++ a ++ b)
  | .fsub n m d a b => some (0x19#8 ++ n ++ m ++ d ++ a ++ b)
  | .fmul n m d a b => some (0x1A#8 ++ n ++ m ++ d ++ a ++ b)
  | .ffma n m d a b => some (0x1B#8 ++ n ++ m ++ d ++ a ++ b)
  | .ffms n m d a b => some (0x1C#8 ++ n ++ m ++ d ++ a ++ b)
  | .fnma n m d a b => some (0x1D#8 ++ n ++ m ++ d ++ a ++ b)
  | .fmin n m d a b => some (0x1E#8 ++ n ++ m ++ d ++ a ++ b)
  | .fmax n m d a b => some (0x1F#8 ++ n ++ m ++ d ++ a ++ b)
  | .icmpEq n m d a b => some (0x20#8 ++ n ++ m ++ d ++ a ++ b)
  | .icmpNe n m d a b => some (0x21#8 ++ n ++ m ++ d ++ a ++ b)
  | .icmpLt n m d a b => some (0x22#8 ++ n ++ m ++ d ++ a ++ b)
  | .icmpLe n m d a b => some (0x23#8 ++ n ++ m ++ d ++ a ++ b)
  | .icmpLtn n m d a b => some (0x24#8 ++ n ++ m ++ d ++ a ++ b)
  | .icmpLen n m d a b => some (0x25#8 ++ n ++ m ++ d ++ a ++ b)
  | .fcmpEq n m d a b => some (0x26#8 ++ n ++ m ++ d ++ a ++ b)
  | .fcmpNe n m d a b => some (0x27#8 ++ n ++ m ++ d ++ a ++ b)
  | .fcmpLt n m d a b => some (0x28#8 ++ n ++ m ++ d ++ a ++ b)
  | .fcmpLe n m d a b => some (0x29#8 ++ n ++ m ++ d ++ a ++ b)
  | .fcmpUn n m d a b => some (0x2A#8 ++ n ++ m ++ d ++ a ++ b)
  | .dcmpLt n m d a b => some (0x2B#8 ++ n ++ m ++ d ++ a ++ b)
  | .dcmpEq n m d a b => some (0x2C#8 ++ n ++ m ++ d ++ a ++ b)
  | .fabs n m d a => some (0x2D#8 ++ n ++ m ++ d ++ a ++ 0x0#7)
  | .fneg n m d a => some (0x2E#8 ++ n ++ m ++ d ++ a ++ 0x0#7)
  | .fclass n d a => some (0x2F#8 ++ n ++ 0x0#2 ++ d ++ a ++ 0x0#7)
  | .shflIdx n d a b => some (0x30#8 ++ n ++ 0x0#2 ++ d ++ a ++ b)
  | .shflXor n d a b => some (0x31#8 ++ n ++ 0x0#2 ++ d ++ a ++ b)
  | .shflUp n d a b => some (0x32#8 ++ n ++ 0x0#2 ++ d ++ a ++ b)
  | .shflDn n d a b => some (0x33#8 ++ n ++ 0x0#2 ++ d ++ a ++ b)
  | .ballot n d a => some (0x34#8 ++ n ++ 0x0#2 ++ d ++ a ++ 0x0#7)
  | .redadd n m d a b => some (0x35#8 ++ n ++ m ++ d ++ a ++ b)
  | .redmm n m d a b => some (0x36#8 ++ n ++ m ++ d ++ a ++ b)
  | .scan n m d a b => some (0x37#8 ++ n ++ m ++ d ++ a ++ b)
  | .readlane n d a b => some (0x38#8 ++ n ++ 0x0#2 ++ d ++ a ++ b)
  | .shapeof n d a => some (0x39#8 ++ n ++ 0x0#2 ++ d ++ a ++ 0x0#7)
  | .shapegen n d a => some (0x3A#8 ++ n ++ 0x0#2 ++ d ++ a ++ 0x0#7)
  | .movk n d a => some (0x3B#8 ++ n ++ 0x0#2 ++ d ++ a ++ 0x0#7)
  | .mov64 n d a => some (0x3C#8 ++ n ++ 0x0#2 ++ d ++ a ++ 0x0#7)
  | .iaddi d a i => some (0x20#7 ++ d ++ a ++ i)
  | .andi d a i => some (0x21#7 ++ d ++ a ++ i)
  | .ori d a i => some (0x22#7 ++ d ++ a ++ i)
  | .xori d a i => some (0x23#7 ++ d ++ a ++ i)
  | .shli d a i => some (0x24#7 ++ d ++ a ++ i)
  | .shri d a i => some (0x25#7 ++ d ++ a ++ i)
  | .sari d a i => some (0x26#7 ++ d ++ a ++ i)
  | .imuli d a i => some (0x27#7 ++ d ++ a ++ i)
  | .icmpiEq d a i => some (0x28#7 ++ d ++ a ++ i)
  | .icmpiLt d a i => some (0x29#7 ++ d ++ a ++ i)
  | .icmpiLtn d a i => some (0x2A#7 ++ d ++ a ++ i)
  | .iaddi64 d a i => some (0x2B#7 ++ d ++ a ++ i)
  | .gets d i => some (0x2C#7 ++ d ++ 0x0#7 ++ i)
  | .sets a i => some (0x1680#14 ++ a ++ i)
  | .affine d a i => some (0x2E#7 ++ d ++ a ++ i)
  | .ldiLo d i => some (0x30#7 ++ d ++ i)
  | .ldiHi d i => some (0x31#7 ++ d ++ 0x0#4 ++ i)
  | .ldiS d i => some (0x32#7 ++ d ++ i)
  | .ldif d i => some (0x33#7 ++ d ++ i)
  | .cvt d a t s r => some (0x34#7 ++ d ++ a ++ t ++ s ++ r)
  | .kopAnd d a b => some (0x35#7 ++ d ++ a ++ b ++ 0x0#13)
  | .kopOr d a b => some (0x35#7 ++ d ++ a ++ b ++ 0x400#13)
  | .kopXor d a b => some (0x35#7 ++ d ++ a ++ b ++ 0x800#13)
  | .kopAndn d a b => some (0x35#7 ++ d ++ a ++ b ++ 0xC00#13)
  | .kopNot d a => some (0x35#7 ++ d ++ a ++ 0x1000#17)
  | .kopMov d a => some (0x35#7 ++ d ++ a ++ 0x1400#17)
  | .kopSetall d => some (0x35#7 ++ d ++ 0x1800#21)
  | .kopClear d => some (0x35#7 ++ d ++ 0x1C00#21)
  | .kexecSave d => some (0x36#7 ++ d ++ 0x0#21)
  | .kexecSet a => some (0x360#11 ++ a ++ 0x400#17)
  | .kexecAnd a => some (0x360#11 ++ a ++ 0x800#17)
  | .kexecAndn a => some (0x360#11 ++ a ++ 0xC00#17)
  | .kexecOr a => some (0x360#11 ++ a ++ 0x1000#17)
  | .bra o => some (0x380#11 ++ o)
  | .brany k o => some (0x39#7 ++ k ++ o)
  | .brall k o => some (0x3A#7 ++ k ++ o)
  | .brnone k o => some (0x3B#7 ++ k ++ o)
  | .call o => some (0x3C0#11 ++ o)
  | .reform k o => some (0x3E#7 ++ k ++ o)
  | .barInit b c => some (0xFC1#13 ++ b ++ c)
  | .barArrive b => some (0xFC2#13 ++ b ++ 0x0#13)
  | .barWait b => some (0xFC3#13 ++ b ++ 0x0#13)
  | .barSync b => some (0xFC4#13 ++ b ++ 0x0#13)
  | .jmpr a => some (0xFC6#13 ++ a ++ 0x0#12)
  | .trap c => some (0x7E5000#24 ++ c)
  | .ldN8 o d a f => some (0x40#7 ++ o ++ d ++ a ++ f)
  | .ldI8 o d a f => some (0x41#7 ++ o ++ d ++ a ++ f)
  | .ldN16 o d a f => some (0x42#7 ++ o ++ d ++ a ++ f)
  | .ldI16 o d a f => some (0x43#7 ++ o ++ d ++ a ++ f)
  | .ld32 o d a f => some (0x44#7 ++ o ++ d ++ a ++ f)
  | .ld64 o d a f => some (0x45#7 ++ o ++ d ++ a ++ f)
  | .ld128 o d a f => some (0x46#7 ++ o ++ d ++ a ++ f)
  | .st8 o d a f => some (0x47#7 ++ o ++ d ++ a ++ f)
  | .st16 o d a f => some (0x48#7 ++ o ++ d ++ a ++ f)
  | .st32 o d a f => some (0x49#7 ++ o ++ d ++ a ++ f)
  | .st64 o d a f => some (0x4A#7 ++ o ++ d ++ a ++ f)
  | .st128 o d a f => some (0x4B#7 ++ o ++ d ++ a ++ f)
  | .ldp32 d a f => some (0x130#9 ++ d ++ a ++ f)
  | .ldp128 d a f => some (0x134#9 ++ d ++ a ++ f)
  | .stp32 d a f => some (0x138#9 ++ d ++ a ++ f)
  | .stp128 d a f => some (0x13C#9 ++ d ++ a ++ f)
  | .atomAddI32 o s d a b => some (0x50#7 ++ o ++ s ++ d ++ a ++ b)
  | .atomAddI64 o s d a b => some (0x51#7 ++ o ++ s ++ d ++ a ++ b)
  | .atomMinI32 o s d a b => some (0x52#7 ++ o ++ s ++ d ++ a ++ b)
  | .atomMaxI32 o s d a b => some (0x53#7 ++ o ++ s ++ d ++ a ++ b)
  | .atomMinN32 o s d a b => some (0x54#7 ++ o ++ s ++ d ++ a ++ b)
  | .atomMaxN32 o s d a b => some (0x55#7 ++ o ++ s ++ d ++ a ++ b)
  | .atomAnd o s d a b => some (0x56#7 ++ o ++ s ++ d ++ a ++ b)
  | .atomOr o s d a b => some (0x57#7 ++ o ++ s ++ d ++ a ++ b)
  | .atomXor o s d a b => some (0x58#7 ++ o ++ s ++ d ++ a ++ b)
  | .atomXchg o s d a b => some (0x59#7 ++ o ++ s ++ d ++ a ++ b)
  | .atomCas o s d a b => some (0x5A#7 ++ o ++ s ++ d ++ a ++ b)
  | .atomXchg64 o s d a b => some (0x5B#7 ++ o ++ s ++ d ++ a ++ b)
  | .fenceAcq s => some (0x5C00000#27 ++ s ++ 0x1#3)
  | .fenceRel s => some (0x5C00000#27 ++ s ++ 0x2#3)
  | .fenceFull s => some (0x5C00000#27 ++ s ++ 0x3#3)
  | .xfence b a s => some (0x1701#13 ++ b ++ a ++ s ++ 0x0#5)
  | .spill s r => some (0x1702#13 ++ s ++ r ++ 0x0#5)
  | .fill r s => some (0x1703#13 ++ r ++ s ++ 0x0#5)
  | .waita e a => some (0x1704#13 ++ e ++ a ++ 0x0#5)
  | .wake n a => some (0x1705#13 ++ n ++ a ++ 0x0#5)
  | .waitp e a c => some (0x1706#13 ++ e ++ a ++ 0x0#3 ++ c)
  | .xadd d a s => some (0x1707#13 ++ d ++ a ++ s ++ 0x0#3)
  | .esample p i n => some (0x1708#13 ++ p ++ i ++ 0x0#1 ++ n)
  | .eload q i n => some (0x1709#13 ++ q ++ i ++ 0x0#1 ++ n)
  | .edecay t n => some (0xB8500#20 ++ t ++ 0x0#1 ++ n)
  | .esweep n => some (0xB858000#28 ++ n)
  | .eregion a n => some (0xB8600#20 ++ a ++ 0x0#1 ++ n)
  | .prefetch a => some (0xB8680#20 ++ a ++ 0x0#5)
  | .mma a => some (0xBA000#20 ++ a ++ 0x0#5)
  | .mdrain a => some (0xBA080#20 ++ a ++ 0x0#5)
  | .mzero t => some (0x17420000#29 ++ t)
  | .tkgive t => some (0x17430000#29 ++ t)
  | .tktake t => some (0x17440000#29 ++ t)
  | .accrd d r h t => some (0x1745#13 ++ d ++ r ++ 0x0#1 ++ h ++ t)
  | .accwr s r h t => some (0x1746#13 ++ s ++ r ++ 0x0#1 ++ h ++ t)
  | .mstat d => some (0x1747#13 ++ d ++ 0x0#12)
  | .sfi z d a f => some (0x2EC#10 ++ z ++ d ++ a ++ f)
  | .sfwait m => some (0x5DA00#19 ++ m ++ 0x0#5)
  | .sfpoll k m => some (0x1769#13 ++ k ++ 0x0#2 ++ m ++ 0x0#5)
  | .tidset a t => some (0x1780#13 ++ a ++ t ++ 0x0#4)
  | .sopen a s => some (0x1781#13 ++ a ++ 0x0#8 ++ s)
  | .sgo s => some (0xBC10000#28 ++ s)
  | .sslot c s => some (0xBC180#20 ++ c ++ 0x0#1 ++ s)
  | .sstat d s => some (0x1784#13 ++ d ++ 0x0#8 ++ s)
  | .sclose s => some (0xBC28000#28 ++ s)
  | .copy a s => some (0x1786#13 ++ a ++ 0x0#8 ++ s)
  | .sort a s => some (0x1787#13 ++ a ++ 0x0#8 ++ s)
  | .bin a s => some (0x1788#13 ++ a ++ 0x0#8 ++ s)
  | .agdim c s j => some (0x1789#13 ++ c ++ s ++ 0x0#3 ++ j)
  | .agbase l a => some (0x178A#13 ++ l ++ a ++ 0x0#5)
  | .agld q s z => some (0x178B#13 ++ q ++ s ++ z ++ 0x0#3)
  | .agst q s z => some (0x178C#13 ++ q ++ s ++ z ++ 0x0#3)
  | .qstat d q => some (0x178D#13 ++ d ++ 0x0#8 ++ q)
  | .coll a s => some (0x1790#13 ++ a ++ 0x0#8 ++ s)
  | .camset a => some (0xBD000#20 ++ a ++ 0x0#5)
  | .camgen d a => some (0x17A1#13 ++ d ++ a ++ 0x0#5)
  | .bvhset a n => some (0xBD100#20 ++ a ++ 0x0#3 ++ n)
  | .trace d a m n => some (0x17A3#13 ++ d ++ a ++ m ++ 0x0#1 ++ n)
  | .mltset a n => some (0xBD200#20 ++ a ++ 0x0#3 ++ n)
  | .fragins a n => some (0xBD280#20 ++ a ++ 0x0#3 ++ n)
  | .lpop d p n => some (0x17A6#13 ++ d ++ p ++ 0x0#3 ++ n)
  | .lresolve d p n => some (0x17A7#13 ++ d ++ p ++ 0x0#3 ++ n)
  | .lclear p n => some (0xBD400#20 ++ p ++ 0x0#3 ++ n)
  | .emit f h c => some (0x17C0#13 ++ f ++ h ++ c)
  | .cycles d => some (0x17C1#13 ++ d ++ 0x0#12)
  | .kexecAll => some (0x6C001400#32)
  | .ret => some (0x7A000000#32)
  | .nop => some (0x7E000000#32)
  | .gbar => some (0x7E280000#32)
  | .yield => some (0x7E380000#32)
  | .exit => some (0x7E400000#32)
  | .acquire => some (0x7E480000#32)
  | .rte => some (0x7E580000#32)
  | .rteSkip => some (0x7E580001#32)
  | .brk => some (0x7E600000#32)
  | .ordenter => some (0x7E680000#32)
  | .ordexit => some (0x7E700000#32)
  | .fenceLocal => some (0xB8000004#32)
  | .commit => some (0xBE100000#32)
  | .clauseIssue .. | .clauseCompletion .. | .sourcesRead .. | .estContributionApply .. | .overlayEviction .. 
  | .sfiResult .. | .slotFill .. | .slotDrain .. | .walkPoint .. | .sortPass .. | .binCompletion .. | .mmaChunk .. 
  | .mdrainRow .. | .traceCompletion .. | .freshBundleDraw .. | .reformageExpiry .. | .starvationPromotion .. 
  | .waitaPoll .. | .acquireGrant .. | .groupAdmission .. | .binTimerExpiry .. | .groupSave .. | .groupRestore .. 
  | .replyEntryWrite .. | .record .. | .bind .. | .replycfg .. | .load .. | .preempt .. | .withdraw .. | .attest .. 
  | .restart .. | .replayall .. | .fail .. | .fbgetWrite .. | .fbstatClear .. | .replygetWrite .. | .rdropClear .. 
  | .stalecntClear .. | .orderrClear .. | .lossesClear .. | .dropwrClear .. | .retriesClear .. 
  | .hashDescriptorWrite .. | .registerWrite .. | .peerRequest .. | .flitReplay .. | .linkDown .. | .linkUp .. 
  | .hostHdmAccess .. | .collTransfer .. | .timingDetectorFire .. | .correctedError .. | .bankMigrationChunk .. 
  | .deviceReset .. | .lineEviction .. | .uncorrectableError .. | .hdmDecoderWrite .. | .staggerExpiry 
  | .completionAck | .faultsaveExpiry | .deadlineExpiry | .hangDetection | .loadInstall | .tlbInvalidateRange 
  | .tlbInvalidateAll | .hullTakeover | .hullFailure | .tlbInvalidationComplete => none

/-- The instruction that stands in the low nbits bits of w, bits numbered as spec/opcode_table.json numbers them. Every
Tyunex instruction is one 32-bit word (00 R5). -/
def decodeTableWord (nbits w : Nat) : Option Instr :=
  decode (BitVec.ofNat 32 (w % 2 ^ nbits))

/-- The four bytes of a word as memory holds them, lowest address first (00 R5). -/
def wordBytes (w : Word) : List Byte :=
  [w.extractLsb' 0 8, w.extractLsb' 8 8, w.extractLsb' 16 8, w.extractLsb' 24 8]

/-- The word that four bytes make, the byte at the lowest address first (00 R5). -/
def bytesWord (b0 b1 b2 b3 : Byte) : Word := b3 ++ b2 ++ b1 ++ b0

end Sys2Proof
end

