-- ==== Sys2Proof/Machine/Num.lean ====
section
/-!
DEFINITION. Numbers: the floating-point and tapered formats, exact dyadic values, rounding under the seven codes, and the
exact sum, product and fused operations (03 R72 to R85, R89 to R92).
-/
namespace Sys2Proof.Machine

/-- What a floating-point or tapered pattern stands for: a NaN with its sign, an infinity, or (-1)^neg · m · 2^e. -/
inductive Num where
  | nan (neg : Bool)
  | inf (neg : Bool)
  | fin (neg : Bool) (m : Nat) (e : Int)
  deriving DecidableEq, Repr

/-- A binary format: fraction bits, exponent bits, bias, and whether it is e4m3 (03 R73, R75). -/
structure Fmt where
  p    : Nat
  w    : Nat
  bias : Nat
  e4m3 : Bool := false
  deriving DecidableEq, Repr

/-- The binary formats (03 R73). -/
def F64 : Fmt := { p := 52, w := 11, bias := 1023 }
def F32 : Fmt := { p := 23, w := 8, bias := 127 }
def F16 : Fmt := { p := 10, w := 5, bias := 15 }
def BF16 : Fmt := { p := 7, w := 8, bias := 127 }
def E5M2 : Fmt := { p := 2, w := 5, bias := 15 }
def E4M3 : Fmt := { p := 3, w := 4, bias := 7, e4m3 := true }

/-- Position of the sign bit. -/
def Fmt.top (f : Fmt) : Nat := f.p + f.w

/-- The exponent of the least significant bit of the subnormals. -/
def Fmt.emin (f : Fmt) : Int := 1 - (f.bias : Int) - f.p

/-- The exponent field of all ones. -/
def Fmt.ones (f : Fmt) : Nat := 2 ^ f.w - 1

/-- The canonical NaN of a format (03 R73). -/
def Fmt.cnan (f : Fmt) : Nat := if f.e4m3 then 0x7F else f.ones * 2 ^ f.p + 2 ^ (f.p - 1)

/-- The pattern of an infinity (03 R73); e4m3 has none and gives its NaN (03 R80). -/
def Fmt.infPat (f : Fmt) (neg : Bool) : Nat :=
  (if neg then 2 ^ f.top else 0) + (if f.e4m3 then 0x7F else f.ones * 2 ^ f.p)

/-- The magnitude pattern of the largest finite value (03 R73, R75). -/
def Fmt.maxPat (f : Fmt) : Nat := if f.e4m3 then 0x7E else f.ones * 2 ^ f.p - 1

/-- The value of a pattern (03 R73 to R75). -/
def Fmt.decode (f : Fmt) (x : Nat) : Num :=
  let neg := x / 2 ^ f.top % 2 = 1
  let ex := x / 2 ^ f.p % 2 ^ f.w
  let fr := x % 2 ^ f.p
  if f.e4m3 then
    if ex = 15 ∧ fr = 7 then .nan neg
    else if ex = 0 then .fin neg fr f.emin else .fin neg (2 ^ f.p + fr) (f.emin + (ex - 1))
  else if ex = f.ones then (if fr = 0 then .inf neg else .nan neg)
  else if ex = 0 then .fin neg fr f.emin
  else .fin neg (2 ^ f.p + fr) (f.emin + (ex - 1))

/-- The rounding codes (03 R79); r is the 16 random bits of STO. -/
inductive Rnd where
  | rne | rtz | rup | rdn | rto | sto (r : Nat) | rna
  deriving DecidableEq, Repr

/-- Whether a value between two neighbours rounds to the one of larger magnitude: odd tells whether the smaller one's least
significant bit is 1, num / den how far the value lies from it (03 R79, R92). -/
def Rnd.up (c : Rnd) (neg odd : Bool) (num den : Nat) : Bool :=
  if num = 0 then false
  else match c with
    | .rne => decide (den < 2 * num) || (decide (2 * num = den) && odd)
    | .rtz => false
    | .rup => !neg
    | .rdn => neg
    | .rto => !odd
    | .sto r => decide (2 ^ 16 ≤ num * 2 ^ 16 / den + r)
    | .rna => decide (den ≤ 2 * num)

/-- m · 2^e in units of 2^q: quotient, and the remainder over its denominator. -/
def unitsOf (m : Nat) (e q : Int) : Nat × Nat × Nat :=
  if q ≤ e then (m * 2 ^ (e - q).toNat, 0, 1)
  else let d := 2 ^ (q - e).toNat; (m / d, m % d, d)

/-- Whether m · 2^e exceeds n · 2^q. -/
def gtScaled (m : Nat) (e : Int) (n : Nat) (q : Int) : Bool :=
  let l := min e q
  decide (n * 2 ^ (q - l).toNat < m * 2 ^ (e - l).toNat)

/-- The magnitude pattern a finite non-zero value past the largest finite one takes (03 R80). -/
def Fmt.overflow (f : Fmt) (c : Rnd) (neg : Bool) (m : Nat) (e : Int) : Nat :=
  if f.e4m3 then f.maxPat
  else
    let inf := f.ones * 2 ^ f.p
    let topE : Int := f.emin + (f.ones - 2)
    let half := !gtScaled (2 ^ (f.p + 2) - 1) (topE - 1) m e
    match c with
    | .rne | .rna | .sto _ => if half then inf else f.maxPat
    | .rtz | .rto => f.maxPat
    | .rup => if neg then f.maxPat else inf
    | .rdn => if neg then inf else f.maxPat

/-- Round a finite value into a format (03 R79, R80). -/
def Fmt.round (f : Fmt) (c : Rnd) (neg : Bool) (m : Nat) (e : Int) : Nat :=
  let s := if neg then 2 ^ f.top else 0
  if m = 0 then s
  else
    let topE : Int := f.emin + (f.ones - 2 : Nat)
    let maxM := if f.e4m3 then 14 else 2 ^ (f.p + 1) - 1
    let maxE : Int := if f.e4m3 then 5 else topE
    if gtScaled m e maxM maxE then s + f.overflow c neg m e
    else
      let q : Int := max ((m.log2 : Int) + e - f.p) f.emin
      let (lo, num, den) := unitsOf m e q
      let r := if c.up neg (lo % 2 = 1) num den then lo + 1 else lo
      s + (q - f.emin).toNat * 2 ^ f.p + r

/-- Encode a value: NaN as the canonical NaN, in e4m3 with its sign (03 R74, R80, R90). -/
def Fmt.encode (f : Fmt) (c : Rnd) : Num → Nat
  | .nan neg => if f.e4m3 && neg then 0xFF else f.cnan
  | .inf neg => f.infPat neg
  | .fin neg m e => f.round c neg m e

/-- Length of the run of bits equal to b from bit i - 1 of x downward. -/
def runLen (x : Nat) (b : Nat) : Nat → Nat
  | 0 => 0
  | i + 1 => if x / 2 ^ i % 2 = b then 1 + runLen x b i else 0

/-- The value of a tapered pattern with an m-bit field (03 R76). -/
def taperDecode (m : Nat) (x : Nat) : Num :=
  let neg := x / 2 ^ m % 2 = 1
  let fld := x % 2 ^ m
  if fld = 0 then (if neg then .nan true else .fin false 0 0)
  else
    let b := fld / 2 ^ (m - 1) % 2
    let n := runLen fld b m
    let k : Int := if b = 1 then (n : Int) - 1 else -(n : Int)
    let left := m - n - 1
    let e := if left = 0 then 0 else fld / 2 ^ (left - 1) % 2
    let j := left - 1
    let f := fld % 2 ^ j
    .fin neg (2 ^ j + f) (2 * k + e - j)

/-- The exponent of minpos of a tapered format (03 R81). -/
def taperMin (m : Nat) : Int := -2 * ((m : Int) - 1)

/-- The magnitude of a tapered pattern in units of minpos. -/
def taperUnits (m x : Nat) : Nat :=
  match taperDecode m x with
  | .fin _ f e => (unitsOf f e (taperMin m)).1
  | _ => 0

/-- The largest pattern below 2^m whose magnitude does not exceed u units and rem / den of one. -/
def taperFloor (m u : Nat) : Nat → Nat
  | 0 => 1
  | i + 1 => if i + 1 < 2 ^ m ∧ taperUnits m (i + 1) ≤ u then i + 1 else taperFloor m u i

/-- Round a finite value into a tapered format (03 R79, R81, R92). -/
def taperRound (m : Nat) (c : Rnd) (neg : Bool) (f : Nat) (e : Int) : Nat :=
  if f = 0 then 0
  else
    let s := if neg then 2 ^ m else 0
    let q := taperMin m
    let (u, num, den) := unitsOf f e q
    let top := 2 ^ m - 1
    if u = 0 then s + 1
    else if taperUnits m top ≤ u then s + top
    else
      let lo := taperFloor m u top
      let a := taperUnits m lo
      let b := taperUnits m (lo + 1)
      s + (if c.up neg (lo % 2 = 1) ((u - a) * den + num) ((b - a) * den) then lo + 1 else lo)

/-- Encode a value in a tapered format (03 R81). -/
def taperEncode (m : Nat) (c : Rnd) : Num → Nat
  | .nan _ => 2 ^ m
  | .inf _ => 2 ^ m
  | .fin neg f e => taperRound m c neg f e

/-- Round a finite value to an integer (03 R79, R90). -/
def roundInt (c : Rnd) (neg : Bool) (m : Nat) (e : Int) : Int :=
  let (lo, num, den) := unitsOf m e 0
  let r := if c.up neg (lo % 2 = 1) num den then lo + 1 else lo
  if neg then -(r : Int) else r

/-- The sign of a value. -/
def Num.neg : Num → Bool
  | .nan s | .inf s | .fin s _ _ => s

/-- A value with its sign inverted. -/
def Num.negate : Num → Num
  | .nan s => .nan (!s)
  | .inf s => .inf (!s)
  | .fin s m e => .fin (!s) m e

/-- The mantissa with its sign. -/
def signed (neg : Bool) (m : Nat) : Int := if neg then -(m : Int) else m

/-- An exact signed value as a number; zero takes the sign given. -/
def ofSigned (zneg : Bool) (x : Int) (e : Int) : Num := .fin (if x = 0 then zneg else decide (x < 0)) x.natAbs e

/-- The exact sum of two values (03 R82). -/
def Num.add (a b : Num) : Num :=
  match a, b with
  | .nan _, _ | _, .nan _ => .nan false
  | .inf s, .inf t => if s = t then .inf s else .nan false
  | .inf s, _ => .inf s
  | _, .inf t => .inf t
  | .fin s m e, .fin t n f =>
    let l := min e f
    ofSigned (s && t) (signed s m * 2 ^ (e - l).toNat + signed t n * 2 ^ (f - l).toNat) l

/-- The exact product of two values (03 R82). -/
def Num.mul (a b : Num) : Num :=
  match a, b with
  | .nan _, _ | _, .nan _ => .nan false
  | .inf s, .inf t => .inf (s != t)
  | .inf s, .fin t n _ => if n = 0 then .nan false else .inf (s != t)
  | .fin s m _, .inf t => if m = 0 then .nan false else .inf (s != t)
  | .fin s m e, .fin t n f => .fin (s != t) (m * n) (e + f)

/-- The exact sum of a list of values: an exact zero is -0 only when every term is -0 (04 R124). -/
def exactSum : List Num → Num
  | [] => .fin false 0 0
  | [x] => x
  | x :: t => x.add (exactSum t)

/-- Whether one value lies below another, -0 equal to +0; false where either is a NaN (03 R87). -/
def Num.lt (a b : Num) : Bool :=
  match a, b with
  | .nan _, _ | _, .nan _ => false
  | .inf s, .inf t => s && !t
  | .inf s, .fin .. => s
  | .fin .., .inf t => !t
  | .fin s m e, .fin t n f =>
    let l := min e f
    decide (signed s m * 2 ^ (e - l).toNat < signed t n * 2 ^ (f - l).toNat)

/-- Whether two values are equal, -0 equal to +0; false where either is a NaN (03 R87). -/
def Num.eq (a b : Num) : Bool :=
  match a, b with
  | .nan _, _ | _, .nan _ => false
  | _, _ => !a.lt b && !b.lt a

/-- Whether a value is a NaN. -/
def Num.isNan : Num → Bool
  | .nan _ => true
  | _ => false

/-- Smaller or larger of two patterns in the order of R84. -/
def Fmt.minmax (f : Fmt) (larger : Bool) (x y : Nat) : Nat :=
  let a := f.decode x
  let b := f.decode y
  if a.isNan then (if b.isNan then f.cnan else y)
  else if b.isNan then x
  else
    let below := a.lt b || (a.eq b && a.neg && !b.neg)
    if below != larger then x else y

/-- Arithmetic on patterns of a format, each rounded once to nearest even (03 R82). -/
def Fmt.add (f : Fmt) (x y : Nat) : Nat := f.encode .rne ((f.decode x).add (f.decode y))
def Fmt.sub (f : Fmt) (x y : Nat) : Nat := f.encode .rne ((f.decode x).add (f.decode y).negate)
def Fmt.mul (f : Fmt) (x y : Nat) : Nat := f.encode .rne ((f.decode x).mul (f.decode y))
/-- a × b + d (03 R82). -/
def Fmt.fma (f : Fmt) (d a b : Nat) : Nat := f.encode .rne (((f.decode a).mul (f.decode b)).add (f.decode d))
/-- a × b − d. -/
def Fmt.fms (f : Fmt) (d a b : Nat) : Nat := f.encode .rne (((f.decode a).mul (f.decode b)).add (f.decode d).negate)
/-- d − a × b. -/
def Fmt.nma (f : Fmt) (d a b : Nat) : Nat := f.encode .rne ((f.decode d).add ((f.decode a).mul (f.decode b)).negate)

/-- FABS and FNEG of a pattern (03 R85). -/
def Fmt.abs (f : Fmt) (x : Nat) : Nat := if (f.decode x).isNan then f.cnan else x % 2 ^ f.top
def Fmt.neg (f : Fmt) (x : Nat) : Nat :=
  if (f.decode x).isNan then f.cnan else (x + 2 ^ f.top) % 2 ^ (f.top + 1)

/-- FCLASS of an f32 pattern (03 R88). -/
def fclassOf (x : Nat) : Nat :=
  let neg := x / 2 ^ 31 % 2 = 1
  let ex := x / 2 ^ 23 % 256
  let fr := x % 2 ^ 23
  if ex = 255 then
    if fr = 0 then (if neg then 2 ^ 0 else 2 ^ 7) else if fr / 2 ^ 22 = 1 then 2 ^ 9 else 2 ^ 8
  else if ex = 0 then
    if fr = 0 then (if neg then 2 ^ 3 else 2 ^ 4) else if neg then 2 ^ 2 else 2 ^ 5
  else if neg then 2 ^ 1 else 2 ^ 6

/-- A format code of CVT (01 R30). -/
inductive Ty where
  | int (bits : Nat) (sgn : Bool)
  | flt (f : Fmt)
  | tap (m : Nat)
  deriving DecidableEq, Repr

/-- The type a code of DT or ST names (01 R30). -/
def tyOf (c : Nat) : Ty :=
  match c with
  | 0 => .int 8 true
  | 1 => .int 8 false
  | 2 => .int 16 true
  | 3 => .int 16 false
  | 4 => .int 32 true
  | 5 => .int 32 false
  | 6 => .int 64 true
  | 7 => .int 64 false
  | 8 => .flt F16
  | 9 => .flt BF16
  | 10 => .flt F32
  | 11 => .flt F64
  | 12 => .flt E4M3
  | 13 => .flt E5M2
  | 14 => .tap 7
  | _ => .tap 5

/-- The value of a pattern of a type; the bits above it are ignored (03 R72, R77). -/
def Ty.decode (t : Ty) (x : Nat) : Num :=
  match t with
  | .int n sgn =>
    let v := x % 2 ^ n
    if sgn && decide (2 ^ (n - 1) ≤ v) then .fin true (2 ^ n - v) 0 else .fin false v 0
  | .flt f => f.decode (x % 2 ^ (f.top + 1))
  | .tap m => taperDecode m (x % 2 ^ (m + 1))

/-- An integer saturated to a type's range and extended to 64 bits (03 R72, R90). -/
def satInt (n : Nat) (sgn : Bool) (v : Int) : Int :=
  if sgn then max (-(2 ^ (n - 1) : Int)) (min (2 ^ (n - 1) - 1) v) else max 0 (min (2 ^ n - 1) v)

/-- A value in a destination type, as 64 bits, integers extended (03 R72, R77, R90). -/
def Ty.encode (t : Ty) (c : Rnd) (v : Num) : BitVec 64 :=
  match t with
  | .int n sgn =>
    (match v with
     | .nan _ => 0
     | .inf neg => BitVec.ofInt 64 (satInt n sgn (if neg then -(2 ^ 70 : Int) else 2 ^ 70))
     | .fin neg m e => BitVec.ofInt 64 (satInt n sgn (roundInt c neg m e)))
  | .flt f => BitVec.ofNat 64 (f.encode c v)
  | .tap m => BitVec.ofNat 64 (taperEncode m c v)

/-- CVT of one element (03 R89, R90). -/
def cvtOne (dt st : Nat) (c : Rnd) (x : BitVec 64) : BitVec 64 := (tyOf dt).encode c ((tyOf st).decode x.toNat)

/-- The rounding code of a CVT (03 R79). -/
def rndOf (code r : Nat) : Rnd :=
  match code with
  | 0 => .rne
  | 1 => .rtz
  | 2 => .rup
  | 3 => .rdn
  | 4 => .rto
  | 5 => .sto r
  | _ => .rna

/-- The next state of the stochastic generator (03 R94). -/
def srNext (s : BitVec 64) : BitVec 64 := s + 0x9E3779B97F4A7C15#64

/-- The word drawn from a generator state (03 R94). -/
def srWord (s : BitVec 64) : BitVec 64 :=
  let w := (s ^^^ (s >>> 30)) * 0xBF58476D1CE4E5B9#64
  let w := (w ^^^ (w >>> 27)) * 0x94D049BB133111EB#64
  w ^^^ (w >>> 31)

/-- The random bits of lane i: element 0 takes [15:0], element 1 [31:16] (03 R94). -/
def srBits (w : BitVec 64) (i elem : Nat) : Nat := ((w.rotateRight (5 * i % 64)) >>> (16 * elem)).toNat % 2 ^ 16

end Sys2Proof.Machine
end

