-- ==== Sys2Proof/Machine/State.lean ====
section
/-!
DEFINITION. The state of the Pertal TX-960 as plain data: device and host interface, memory and its copies, the resident
graph, groups, bundles and streams, and the model's own fields. INVENTORY.md lists every piece with the rule that names it.
-/
namespace Sys2Proof.Machine

/-- The classes of a clause header (01 R9). -/
inductive Class where
  | alu | mem | mxe | sfq | ste | trv | ctl | sys
  deriving DecidableEq, Repr

/-- A value with its shape tag (04 R111): uniform, affine (base and stride), or one word a lane, lane 0 first. -/
inductive Val where
  | u (w : Word)
  | a (base stride : Word)
  | g (lanes : List Word)
  deriving DecidableEq, Repr

/-- What a v register holds: a value in place, or a general value in an automatic spill slot (04 R111, R116). -/
inductive VReg where
  | val (x : Val)
  | spilled (slot : Nat)
  deriving DecidableEq, Repr

/-- A trap: cause code (01 R49), TRAPINFO and TRAPADDR (15 R341); atOnce marks an engine's that found its stream waiting on a flag
which the command would have cleared (11 R271, 12 R290). -/
structure Trap where
  cause : Nat
  info  : Word := 0
  addr  : DWord := 0
  atOnce : Bool := false
  deriving DecidableEq, Repr

/-- The streams of the device are named by group, bundle and kind; acc is the A-stream (11 R249). -/
structure Who where
  gid : Nat := 0
  bid : Nat := 0
  acc : Bool := false
  deriving DecidableEq, Repr

/-- The registers a clause or a token marks, by designator and k number (01 R15). -/
structure Marks where
  src  : List Nat := []
  dst  : List Nat := []
  ksrc : List Nat := []
  kdst : List Nat := []
  deriving DecidableEq, Repr

/-- A clause that has issued and has not completed (01 R13, R15): its class, flags, the marks of its words that have not
performed, whether its sources are read, the marks of its words that have performed, which may or may not have cleared yet
(log 20), and whether it issued in handler mode (15 R340). -/
structure Outst where
  id       : Nat
  cls      : Class
  seta     : Nat
  setb     : Nat
  marks    : Marks
  srcsRead : Bool
  late     : Marks := {}
  handler  : Bool := false
  deriving DecidableEq, Repr

/-- A finished translation: key of the byte, kind and ordering of its page, the leaf entry, page base and log2 size, the
keys of the entries that describe the page, and whether a free choice was made for it (07 R174, R175, 15 R343). -/
structure Xlat where
  key   : Nat
  kind  : Nat
  ord   : Nat
  leaf  : DWord
  base  : Nat
  size  : Nat
  ents  : List Nat
  drew  : Bool := false
  deriving DecidableEq, Repr

/-- Pool nodes that a clause has reserved for its FRAGINS on a layered slot at issue, or what stopped the reservation: a fault, or a
page that is not present (13 R321); with the target they come from: its address, its words as bound, and the key of its descriptor. -/
structure Reserve where
  slot  : Nat
  va    : DWord := 0
  desc  : List Word := []
  dkey  : Nat := 0
  clause : Nat := 0
  nodes : List Nat
  fault : Option (Nat × DWord) := none
  miss  : Option DWord := none
  deriving DecidableEq, Repr

/-- The clause a stream is in: header, words, next word, EXEC at issue and pending EXEC (01 R9, 04 R108). The clause is in
progress while idx is below the number of words. -/
structure Clause where
  header  : Word := 0
  words   : List Word := []
  idx     : Nat := 0
  exec0   : DWord := 0
  execP   : DWord := 0
  target  : Option Word := none   -- where a transfer of control goes (01 R19)
  id      : Nat := 0
  arrived : Bool := false   -- BAR.SYNC or GBAR has made its arrival (04 R134, 05 R157)
  gen     : Nat := 0        -- the launch's GBAR count at that arrival
  pins    : List Xlat := [] -- the translations found at issue, which its words use (02 R64)
  pool    : List Reserve := []   -- nodes reserved for its FRAGINS, by slot (13 R321)
  deriving DecidableEq, Repr

/-- What a stream waits on (15 R352, R366). -/
inductive WaitOn where
  | nothing
  | flags (f : Nat)
  | barrier (b : Nat)
  | queue (q : Nat) (room : Bool)
  | tokens (mask : Nat)
  | waita (va : Nat) (expected : Word)
  | waitp (off : Nat) (expected : Word) (cond : Nat)
  | sect
  | tile (t : Nat)
  | gbar
  | acquire
  | exit
  | reform
  | room
  | parked
  deriving DecidableEq, Repr

/-- One stream of a bundle (02 R50, 11 R249, 15 R333, R337, R338). -/
structure Stream where
  present   : Bool := false
  ended     : Bool := false
  exiting   : Bool := false        -- has executed EXIT, which waits (02 R71)
  pc        : Word := 0
  exec      : DWord := 0
  k         : Tab DWord := []      -- k0 to k15
  x         : Tab Word := []       -- x0 to x31, A-stream
  bad       : List (Nat × Nat) := []   -- poison of k register n as (n, lane), of x register n as (32 + n, 0) (15 R350, 19 R402)
  flags     : Tab Nat := []        -- f0 to f11
  outst     : List Outst := []
  nextId    : Nat := 1             -- the model's: names the next clause
  clause    : Clause := {}
  wait      : WaitOn := .nothing
  entryMade : Bool := false        -- the clause at pc has made its region entry (15 R333)
  -- region
  rgnPc     : Word := 0
  rgnWord   : Nat := 0
  rgnCount  : Word := 0
  entryExec : DWord := 0
  -- trap state
  trapCause : Nat := 0
  trapInfo  : Word := 0
  trapPc    : Word := 0
  trapAddr  : DWord := 0
  trapExec  : DWord := 0
  trapCount : Option Nat := none   -- COUNT of the header at TRAPPC, where one was decoded (15 R340)
  handler   : Bool := false
  mask      : Bool := false
  pnote     : Bool := false
  pnoted    : Bool := false        -- PREEMPT taken for the request in force (15 R359)
  pend      : Option Trap := none  -- trap taken, its entry waiting for issued clauses (15 R337)
  due       : List Trap := []      -- engine traps due or held, in the order taken (15 R332, R337)
  barRec    : Tab Nat := []        -- generation of the latest arrival, by barrier (04 R133)
  waiter    : Bool := false        -- stands in the waiter pool (07 R185)
  wakeTry   : Bool := false        -- released by WAKE or a poll: reads the word again (07 R185, R186)
  since     : Nat := 0             -- clock of its latest reading at WAITA (07 R185)
  resumeAt  : Nat := 0             -- word at which the clause at pc is taken again (15 R335, R353)
  yielded   : Bool := false        -- stands at a YLD or YIELD switch point (05 R153)
  held      : Option Outst := none -- record of the clause at rgnPc or trapPc, interrupted at a wait, that still counts (15 R335, R353)
  heldGen   : Option Nat := none   -- the arrival of that interrupted wait has been made, at this count (15 R353)
  spare     : List Reserve := []   -- reserved pool nodes that its clauses have not used (13 R321)
  deriving DecidableEq, Repr

/-- One entry of a queue that stands in it: its value, the stream that holds a pop of it, if one does, and its poisoned lanes (11 R252,
R254, 15 R350). -/
structure QEnt where
  val : Val
  pop : Option Bool := none
  bad : List Nat := []
  deriving DecidableEq, Repr

/-- A queue: visible entries, oldest first, the held pushes of the two streams, and the poisoned lanes of held pushes by stream and place
(11 R254, 15 R350). -/
structure Queue where
  ents  : List QEnt := []
  heldX : List Val := []
  heldA : List Val := []
  heldBad : List (Bool × Nat × Nat) := []
  deriving DecidableEq, Repr

/-- The pattern of the affine address engine (11 R261): base, lane count, counts and strides of the four dimensions. -/
structure Pattern where
  base : DWord := 0
  l    : Nat := 0
  cs   : List (Nat × Word) := [(1, 0), (1, 0), (1, 0), (1, 0)]
  deriving DecidableEq, Repr

/-- A walk in progress (11 R262): its copy of the pattern, direction, words an entry, queue, lane stride, next point,
whether it is parked, and the stream and clause that issued it. -/
structure Walk where
  pat    : Pattern
  store  : Bool
  n      : Nat
  q      : Nat
  ls     : Word
  point  : Nat
  acc    : Bool
  clause : Nat
  handler : Bool := false          -- issued in handler mode
  parked : Bool := false
  deriving DecidableEq, Repr

/-- A special-function token (12 R296): its operand and function as captured at issue, its destination, whether its
result has been written, and the clause that issued it. -/
structure Token where
  pending : Bool := false
  dest    : Nat := 0
  fn      : Nat := 0
  opnd    : Val := .u 0
  exec    : DWord := 0
  written : Bool := false
  clause  : Nat := 0
  atEntry : Bool := false          -- pending at the latest region entry (12 R301)
  deriving DecidableEq, Repr

/-- The frame of a tree (13 R309, R312, R314): world space, or an instance's object space with its ray, its node 0, its
triangles, its flags word and its index. -/
structure TFrame where
  top   : Bool
  inst  : Nat := 0
  o     : List Word
  d     : List Word
  root  : DWord
  tri   : DWord := 0
  flags : Word := 0
  deriving DecidableEq, Repr

/-- An entry of a traversal stack (13 R312): a node (type 1), a leaf of triangles (2) or an instance (3), its index and leaf
count, its frame, and the tenter it was pushed with. -/
structure TEnt where
  ty    : Nat
  idx   : Nat
  cnt   : Nat
  frame : TFrame
  te    : Word
  deriving DecidableEq, Repr

/-- A hit a lane holds (13 R311, R315, R316). -/
structure THit where
  t    : Word
  b1   : Word
  b2   : Word
  prim : Word
  inst : Nat
  negd : Bool
  deriving DecidableEq, Repr

/-- A lane's traversal (13 R312, R317). -/
structure TLane where
  lane  : Nat
  ray   : List Word
  stack : List TEnt := []
  hit   : Option THit := none
  ovf   : Bool := false
  bad   : Bool := false
  fault : Option (Nat × DWord) := none
  deriving DecidableEq, Repr

/-- A TRACE in progress (13 R308 to R317): slot, binding as read at issue, mode, first destination, whether its results are
uniform, its lanes, EXEC and its clause. -/
structure Trace where
  slot   : Nat
  desc   : List Word
  mode   : Nat
  d      : Nat
  uni    : Bool
  lanes  : List TLane
  exec   : DWord
  clause : Nat
  parked : Bool := false
  deriving DecidableEq, Repr

/-- A list operation of a layered target that is parked on a pool node (13 R320, R321): 0 FRAGINS, 1 LPOP, 2 LRESOLVE,
3 LCLEAR; its binding, its lanes still to run with their source words, what the lanes before have given (six words: up to
four of the destination, the k15 bit last), reserved nodes, and the first fault. -/
structure ListOp where
  kind   : Nat
  slot   : Nat
  va     : DWord
  desc   : List Word
  lanes  : List (Nat × List Word)
  outs   : List (Nat × List Word)
  d      : Nat
  res    : List Nat
  fault  : Option (Nat × DWord) := none
  handler : Bool := false
  clause : Nat
  parked : Bool := false
  deriving DecidableEq, Repr

/-- An entry of the SPILL forwarding table (07 R171): slot, counted from 0 in the explicit part and from 128 in the automatic
one, value, what is to be written (key, whether the page is RC, bytes), the issuing clause, and what of it carries poison, as runs of
keys (15 R350). -/
structure Fwd where
  slot   : Nat
  val    : Val
  data   : List (Nat × Bool × List Byte)
  clause : Nat
  bad    : List (Nat × Nat) := []
  deriving DecidableEq, Repr

/-- A cell to be stored: the backing of its line as runs of keys, its own bytes' keys, its value (09 R231, R235). -/
structure Cell where
  runs : List (Nat × Nat)
  keys : List Nat
  val  : Nat
  deriving DecidableEq, Repr

/-- A bundle (02 R50, 04 R102, R103, 11 R252, R261, 12 R296). -/
structure Bundle where
  started : Bool := false
  bundle  : Nat := 0               -- BUNDLE
  slot    : Nat := 0               -- bundle slot on the core (15 R366)
  live    : DWord := 0
  v       : Tab VReg := []
  o       : Tab (List Word) := []
  l0      : List Word := []
  l1      : List Word := []
  ra      : Word := 0
  sr      : DWord := 0             -- stochastic-rounding state (03 R93)
  srEntry : DWord := 0
  spillBase : Word := 0
  orig    : List Nat := []         -- original strand index of each lane (04 R131)
  fwd     : List Fwd := []         -- SPILL forwarding table, newest first (07 R171)
  queues  : Tab Queue := []
  pat     : Pattern := {}
  walks   : List Walk := []
  toks    : Tab Token := []
  traces  : List Trace := []
  lists   : List ListOp := []
  poison  : List (Nat × Nat) := [] -- poisoned lane values of v, o and l registers: designator, lane (15 R350)
  ready   : Nat := 0               -- clock since which it is ready (05 R152)
  isReady : Bool := true           -- whether it was ready when the scheduler last looked (05 R152)
  promoted : Bool := false
  current  : Bool := false         -- the current bundle of its ORDERED node on the core (05 R153)
  lastAcc  : Bool := false         -- the model's: the stream that issued last (log 3)
  xs      : Stream := {}
  as      : Stream := {}
  deriving DecidableEq, Repr

/-- A named barrier (04 R133). -/
structure Bar where
  e   : Nat := 0
  cnt : Nat := 0
  gen : Nat := 0
  deriving DecidableEq, Repr

/-- A strand filed by REFORM: original index, its carried registers, and its stochastic entry (04 R129, R131). -/
structure Strand where
  orig : Nat
  regs : List Word
  since : Nat
  deriving DecidableEq, Repr

/-- Owner state of a tile (12 R276). -/
inductive Owner where
  | vec | mxe | busy
  deriving DecidableEq, Repr

/-- An accumulator tile: owner, and the elements written so far by 128 m + n; others hold +0 (12 R275). -/
structure Tile where
  owner : Owner := .vec
  elems : Tab Word := []
  deriving DecidableEq, Repr

/-- A matrix command in progress on a tile (12 R286, R291, R293). -/
structure MCmd where
  drain  : Bool
  block  : Nat
  blk    : List Word
  descs  : List (List Word)
  bid    : Nat
  acc    : Bool
  clause : Nat
  cur    : Nat := 0
  s0     : DWord := 0
  amax   : Word := 0
  begun  : Bool := false           -- rows have been drained, so that an amax is to be merged (12 R294)
  parked : Bool := false
  deriving DecidableEq, Repr

/-- State of a stream context (11 R264). -/
inductive CtxState where
  | closed | held | running | done | error
  deriving DecidableEq, Repr

/-- What a context runs (15 R361). -/
inductive CtxKind where
  | none | stream | copy | sort | bin | coll
  deriving DecidableEq, Repr

/-- A stream context (11 R264 to R272, 15 R361). -/
structure Ctx where
  st       : CtxState := .closed
  kind     : CtxKind := .none
  cause    : Nat := 0
  block    : Nat := 0
  blk      : List Word := []       -- the record or block as read at issue
  desc     : List Word := []       -- the tensor entry as read at issue (11 R258)
  total    : Nat := 0              -- S, slots to transfer
  done     : Nat := 0              -- slots completed
  released : Nat := 0              -- slots released or handed over
  curA     : Nat := 0
  curB     : Nat := 0
  work     : List Nat := []        -- counts of BIN, elements of COLL so far
  skip     : Nat := 0              -- stream patches skipped
  begun    : Bool := false         -- a fill's slot is in progress, its page awaited (11 R267)
  closing  : Bool := false
  bound    : Nat := 0              -- slots handed over when an SCLOSE stopped a drain (11 R267)
  bid      : Nat := 0
  acc      : Bool := false
  clause   : Nat := 0              -- clause that completes with the command
  closers  : List (Who × Nat) := []   -- clauses of the SCLOSEs waiting for it
  parked   : Bool := false
  deriving DecidableEq, Repr

/-- Life of a group (05 R148); a PENDING group stands in its launch. -/
inductive GState where
  | prologue | full | saved | exiting | gone
  deriving DecidableEq, Repr

/-- Ordered-section state of a group (13 R327). -/
inductive Sect where
  | notyet | held | passed
  deriving DecidableEq, Repr

/-- A group (05 R147, R148, 04 R100 to R133, 07 R163, R188, 09 R238, 11 R264, 12 R275, 13 R303, R327). -/
structure Group where
  st       : GState := .prologue
  node     : Nat := 0              -- node index
  handle   : Word := 0
  group    : Nat := 0              -- GROUP
  serial   : Nat := 0              -- launch
  core     : Nat := 0
  w        : Nat := 8
  nb       : Nat := 0              -- B, bundle count
  records  : List (List Word) := []
  recBase  : Nat := 0
  scr      : Bytes := []
  scrSize  : Nat := 0
  isFull   : Bool := false
  acqReq   : Option Nat := none    -- order of its ACQUIRE request (05 R150, R151)
  acqWho   : Who := {}
  bars     : Tab Bar := []
  rbins    : List (Word × List Strand) := []   -- REFORM bins by code offset (04 R130)
  aged     : List Word := []       -- bins whose age has passed REFORMAGE (04 R130)
  srLeft   : Tab DWord := []       -- stochastic state an index's last bundle left (04 R131)
  areas    : Tab Word := []        -- SPILLBASE of each index that has started (07 R167)
  tiles    : Tab Tile := []
  mcmds    : Tab MCmd := []
  ctxs     : Tab Ctx := []
  regions  : Tab (DWord × List Word) := []     -- bound region slots: descriptor address, words (09 R238)
  camera   : Option (DWord × List Word) := none
  bvhs     : Tab (DWord × List Word) := []
  layers   : Tab (DWord × List Word) := []
  sect     : Sect := .notyet
  cbuf     : List (Nat × List (Nat × Byte)) := []   -- containment lines in allocation order (07 R188)
  cells    : Tab Cell := []        -- the cells of the exact words among them, by the word's key in words (07 R188, 09 R234)
  hits     : List (Nat × Bool) := []   -- streams whose WAITP a write has satisfied while they wait (07 R187)
  scrOld   : Tab Byte := []        -- scratchpad bytes its read buffer may still hold from before an engine's write (08 R195)
  engOld   : Tab (Tab (Byte × Nat)) := []   -- the same of the engine paths' staging, with the path of the latest write, 9 once fenced
  committed : Bool := false
  relaunches : Nat := 0
  branches : Nat := 0              -- conditional branches, and the sum of occupancies in parts of occUnit (04 R101)
  occSum   : Nat := 0
  deadline : Option Nat := none    -- clock at which DEADLINE expires (15 R355)
  faultAt  : Option Nat := none    -- clock since which FAULTSAVE counts: the first parking or, later, the last issue (15 R354)
  saving   : Option Nat := none    -- save under way, with its reason (15 R353, R361)
  husk     : Option Nat := none    -- virtual address of the written Husk
  savedAt  : Nat := 0              -- clock of its save: the order of saving (15 R351)
  awaits   : Option Nat := none    -- saved for FAULTSAVE: the cluster whose REPLAYALL it waits for (15 R354, 16 R370)
  named    : Bool := false         -- a request has named its class while it was resident or saved (15 R351)
  sysIdx   : BitVec 12 := 0        -- SYSIDX as read at its admission (04 R106, 18 R380)
  drains   : Bool := false         -- drains under a pre-emption request (15 R351)
  bundles  : Tab Bundle := []
  deriving DecidableEq, Repr

/-- Who is parked on a page (15 R345): a walk by its queue, a TRACE by its first destination; a peer's request by its port. -/
inductive Parker where
  | clause (w : Who)
  | fetch (w : Who)
  | walk (gid bid q : Nat)
  | ctx (gid n : Nat)
  | tile (gid t : Nat)
  | trace (gid bid n : Nat)
  | list (gid bid n : Nat)
  | peer (port : Nat) (op : PeerOp)
  deriving DecidableEq, Repr

/-- One access that found VALID 0: page, access bits, word, lane, address, and its path where that is not the instruction's
own (15 R346, R348). -/
structure Miss where
  vpn  : Nat
  acc  : Nat
  word : Nat := 0
  lane : Nat := 0
  va   : DWord := 0
  path : Option Nat := none
  deriving DecidableEq, Repr

/-- A parked access (15 R345, R348, R368), with its cluster, core and path. -/
structure Parked where
  who     : Parker
  cluster : Nat
  core    : Nat
  path    : Nat
  misses  : List Miss
  deriving DecidableEq, Repr

/-- The fault window and miss table of a cluster (15 R346, R347). Entries hold 16 bytes as a number; FBPUT and FBGET are put and
get modulo 2^32, which both start at 2^32; keys carry the entry number, or none for DROPPED. -/
structure FWin where
  ents   : Tab Nat := []
  put    : Nat := 2 ^ 32
  get    : Nat := 2 ^ 32
  drop   : Bool := false
  dropCount : Nat := 0
  failVa : DWord := 0
  keys   : List (Nat × Option Nat) := []
  deriving DecidableEq, Repr

/-- A translation a TLB holds (15 R342, R343): page base and log2 size, the leaf entry, its level, and the keys of the entries that
describe the page (07 R177). -/
structure TlbEnt where
  cluster : Nat
  base    : Nat
  size    : Nat
  leaf    : DWord
  rights  : Nat
  ents    : List Nat := []
  deriving DecidableEq, Repr

/-- A copy of one byte in an L1 or a cluster unit: value, and whether it is dirty (08 R198). -/
abbrev Copy := Byte × Bool

/-- A contribution accepted and not yet applied (08 R214, 09 R233, R241): an addition to an exact cell, or a sample for an
estimator cell, with the keys of the cell's bytes, its operands, the region's descriptor for a sample, and its owner. -/
structure Contrib where
  sample : Bool
  line   : Nat := 0                -- 64-byte line of the exact word, and its backing as runs of keys (09 R235)
  runs   : List (Nat × Nat) := []
  keys   : List Nat
  x      : Word
  y      : Word := 0
  region : DWord := 0
  desc   : List Word := []
  owner  : Who
  clause : Nat
  pages  : List (Nat × Nat) := []  -- the pages it was translated on: base and log2 size (15 R344)
  deriving DecidableEq, Repr

/-- What a load of a UO page still has to bring: its lane, destination, bytes, how they are extended (0 zero, 8 or 16 the bits of a signed
value), and whether the result is uniform (02 R63). -/
structure UoLoad where
  lane : Nat
  dest : Nat
  n    : Nat
  sign : Nat
  uni  : Bool
  deriving DecidableEq, Repr

/-- An access to a UO page that has left its stream and not yet performed (08 R201): its stream, clause and word, its core, the key of
its first byte, the bytes of a store, whether it is a release store, the load that it is, if it is one, and its page. -/
structure UoStore where
  who    : Who
  clause : Nat
  core   : Nat
  key    : Nat
  bytes  : List Byte
  word   : Nat := 0
  rel    : Bool := false
  load   : Option UoLoad := none
  page   : Nat × Nat := (0, 0)
  deriving DecidableEq, Repr

/-- The MSI-X vector of a mailbox: its table entry's address, data and mask, its pending bit, and how often it has been raised
(18 R393). -/
structure Vector where
  addr    : DWord := 0
  data    : Word := 0
  masked  : Bool := true
  pending : Bool := false
  raised  : Nat := 0
  deriving DecidableEq, Repr

/-- A record that has been formed and not yet appended (05 R142, 09 R245): the stream and clause of its EMIT or ESWEEP, its node, the
handle and the record. -/
structure Sprout where
  who    : Who
  clause : Nat
  node   : Nat
  handle : Word
  rcd    : List Word
  deriving DecidableEq, Repr

/-- A mailbox (18 R381 to R383): the slot's seal and payload, last accepted SEQ, whether a LOAD keeps it BUSY, and the rest. -/
structure Mbox where
  hdr    : DWord := 0
  words  : List Word := []
  seq    : Nat := 0xFFFF
  busy   : Bool := false
  bound  : Option Word := none     -- bound node handle
  ring   : Option (Nat × Nat) := none   -- reply ring base and LOGN
  get    : Word := 0
  put    : Word := 0
  rdrop  : Nat := 0
  waiting : List (List Word) := []  -- replies and records waiting for room or not yet written
  held   : List (Nat × DWord × List Word) := []   -- the message that keeps BUSY set: type, seal, words
  deriving DecidableEq, Repr

/-- Status of a node (18 R385). -/
structure NStat where
  stale  : Nat := 0
  groups : Nat := 0
  orderr : Bool := false
  ckill  : Nat := 0
  restore : Nat := 0
  deriving DecidableEq, Repr

/-- A link port (18 R395, R397). -/
structure Port where
  peer    : BitVec 12 := 0
  up      : Bool := false
  dropwr  : Nat := 0
  retries : Nat := 0
  tags    : List Nat := []         -- sequence tags already applied (08 R214)
  deriving DecidableEq, Repr

/-- The hash descriptor of a memory region (18 R379, 19 R404). -/
structure HashD where
  slices : List Word := List.replicate 8 0xFFFFFFFF
  valid  : Bool := true
  repair : Word := 0               -- word 10
  done   : Nat := 0                -- DONE, 128 bits
  deriving DecidableEq, Repr

/-- A group that is to start again from its beginning (07 R191, 15 R358): GROUP, relaunches so far, section state, and
the cluster it must not take, if there is one. -/
structure Again where
  group : Nat
  tries : Nat
  sect  : Sect
  avoid : Option Nat
  deriving DecidableEq, Repr

/-- A launch of a node (05 R146, R149, R156, R157): its groups, the next GROUP to admit, width, records, groups that have
ended and that have passed their section, where each was placed, and the GBAR arrivals. -/
structure Launch where
  node    : Nat
  total   : Nat
  next    : Nat := 0
  w       : Nat := 8
  records : List (List Word) := []
  again   : List Again := []
  ended   : Nat := 0
  passed  : List Nat := []
  placed  : List (Nat × Nat) := []
  arrived : List Who := []
  gbarGen : Nat := 0
  deriving DecidableEq, Repr

/-- A resident graph (05 R137 to R141): header words, node records, CODEWIN, and per-node data. -/
structure Graph where
  header  : List Word := []
  nodes   : List (List Word) := []
  codeWin : DWord := 0
  gen     : Nat := 0
  codeSize : Nat := 0
  constSize : Nat := 0
  errBox  : Nat := 0
  spill   : Nat := 0               -- Pod spill area, bytes, and its address (18 R392)
  spillSize : Nat := 0
  poolVa  : Nat := 0               -- waiter pool (07 R185)
  poolSize : Nat := 0
  pool    : List (Nat × Who × Nat) := []       -- waiters: physical key, stream, sequence number
  poolSeq : Nat := 0
  div     : Tab (List Nat) := []   -- divergence record by node, newest first (04 R101)
  bins    : Tab (List (Nat × List Word)) := [] -- records by node with arrival clock (05 R146)
  lastAdm : List (Nat × Nat × Nat) := []       -- STAGGER: node, die, clock (05 R149)
  tids    : Tab (List Word) := []  -- tensor identifiers (11 R258)
  launches : Tab Launch := []
  image   : List Byte := []        -- the image as loaded, for its hash (19 R407)
  deriving DecidableEq, Repr

/-- A graph in a freeze area: the area's address and bytes, the graph with its saved groups and node status, its three vectors, and
whether its generation is still skipped (18 R392, 05 R141). -/
structure Frozen where
  pa     : Nat
  img    : List Byte
  graph  : Graph
  groups : Tab Group
  nstats : Tab NStat
  vecs   : Word × Word × Word
  live   : Bool := true
  deriving DecidableEq, Repr

/-- The pre-emption requests in force (15 R351): the classes messages have named, and whether a graph swap names all. -/
structure Preempt where
  classes : Nat := 0
  swap    : Bool := false
  deriving DecidableEq, Repr

/-- The state image a CHECKPOINT names (18 R389): the timers by node with the arrival clocks of their records, the last launch
serial, the launches in admission order with the next GROUP of each, and the pre-emption state. -/
structure Image where
  number   : Nat := 0
  timers   : List (Nat × List Nat) := []
  serial   : Nat := 0
  launches : List (Nat × Nat) := []
  preempt  : Preempt := {}
  deriving DecidableEq, Repr

/-- A LOAD accepted and waiting to install (18 R392). -/
structure LoadReq where
  mbox  : Nat
  seq   : Nat
  words : List Word
  deriving DecidableEq, Repr

/-- The control block (15 R336). -/
structure CtlBlock where
  tvecx     : Word := 0xFFFFFFFF
  tveca     : Word := 0xFFFFFFFF
  svec      : Word := 0xFFFFFFFF
  hangLimit : Word := 0x1000000
  ptRoot    : DWord := 0
  hangBuf   : DWord := 0
  tlbInvVa  : DWord := 0
  tlbInvSz  : Word := 12
  tlbBusy   : Bool := false
  tlbPend   : Option (Nat × Nat) := none  -- pending invalidation: base and log2 size, 64 for all
  faultSave : Word := 4096
  xaccWin   : DWord := 0
  xaccBack  : DWord := 0
  deriving DecidableEq, Repr

/-- The device and host interface outside the resident graph (18 R380 to R399, 19 R402 to R408). -/
structure Device where
  mode     : Nat := 0              -- DEVSTAT MODE
  standby  : Bool := true
  swap     : Bool := false
  sysIdx   : BitVec 12 := 0
  serial   : Word := 0             -- HULLSERIAL: next journal serial
  bootStage : Nat := 0
  bootCode : Nat := 0
  failCount : Nat := 0
  told     : Bool := false         -- MINIMAL has been posted (19 R408)
  fuses    : Config.Fuses := Config.fuses      -- fuses and firmware store (19 R406; log 13)
  store    : List Byte × List Byte := Config.firmware
  fw       : Nat := 0              -- the firmware copy that runs: 0 copy A, 1 copy B (19 R406)
  ctl      : CtlBlock := {}
  ports    : Tab Port := []
  mboxes   : Tab Mbox := []
  fwins    : Tab FWin := []
  nstats   : Tab NStat := []
  hash     : Tab HashD := []
  coll     : Tab (List Word) := [] -- collective groups: the words of each (18 R399)
  collIn   : List (Nat × CollXfer) := []   -- transfers of collectives not yet combined, by port; 32 this device's own part,
                                   -- 33 that its subtree's has gone up, 34 the result (18 R399, R401; log 24)
  collOut  : List (Nat × CollXfer) := []   -- transfers sent, by port (log 24)
  hdmBase  : DWord := 0
  hdmLen   : DWord := 0
  hostHeld : List Nat := []        -- HDM lines the host may hold (18 R394)
  cetab    : Tab (List (Nat × Nat × Nat)) := []   -- corrected errors by stack: bank, row, column (19 R403)
  spares   : Tab (List (Nat × Nat)) := []         -- spares used by stack: bank, kind
  banksUsed : Tab (List (Nat × Nat)) := []        -- substitutions by stack, in order: old bank, spare bank
  bankMig  : Tab (List (Nat × Nat × Nat)) := []   -- bank migrations by stack, the first in progress: old, new, chunks done
  coresOut : List Nat := []
  hulls    : Nat := 2
  journal  : List (List Word) := []
  ckpt     : Image := {}           -- the latest CHECKPOINT's image (18 R389)
  msix     : Tab Vector := []      -- the MSI-X vectors by mailbox (18 R393)
  fifo     : List (List Word) := []
  kicks    : List Nat := []        -- pending kicks by node index (18 R388)
  launchCtr : Nat := 0             -- last launch serial (18 R389)
  deriving DecidableEq, Repr

/-- The whole machine. -/
structure State where
  clock    : Nat
  dev      : Device
  mem      : Bytes
  poisoned : List Nat
  l1       : Tab (Tab Copy)
  cl       : Tab (Tab Copy)
  tlb      : List TlbEnt
  ectab    : Tab (Word × Nat)
  contribs : List Contrib
  uoq      : List UoStore
  sprouts  : List Sprout
  pbuf     : Tab (Tab Copy)
  overlay  : Tab (List (Nat × Byte))
  graph    : Option Graph
  loads    : Nat
  frozen   : List Frozen
  preempt  : Preempt
  loading  : Option LoadReq
  hangCtr  : Nat
  hangOut  : Bool
  groups   : Tab Group
  parked   : List Parked
  -- the model's own fields (log 3, 4, 5); found: the translations found so far, while the words of a clause are checked at issue
  cur      : Who
  found    : Option (List Xlat)
  agenda   : List Instr
  turn     : Bool
  freeCtr  : Nat
  hullTop  : Nat
  nextGid  : Nat
  deriving DecidableEq, Repr

/-- The machine right after reset, start sequence passed (15 R336, 18 R380, 19 R405): no graph resident, memory with
nothing listed, every register of the interface at the value INVENTORY.md names. -/
def State.reset : State where
  clock := 0
  dev := {}
  mem := []
  poisoned := []
  l1 := []
  cl := []
  tlb := []
  ectab := []
  contribs := []
  uoq := []
  sprouts := []
  pbuf := []
  overlay := []
  graph := none
  loads := 0
  frozen := []
  preempt := {}
  loading := none
  hangCtr := 0
  hangOut := false
  groups := []
  parked := []
  cur := {}
  found := none
  agenda := []
  turn := false
  freeCtr := 0
  hullTop := 0
  nextGid := 0

/-- Why the machine stops with a fault. -/
inductive Fault where
  /-- Raised by an access of the device whose physical address the spec says does not exist and for which it names no trap
  (18 R379 gives every such access a trap or a result, so no meaning raises it today). Safe: the model stops where the
  hardware would go on. -/
  | noSuchAddress (pa : Nat)
  deriving DecidableEq, Repr

/-- Why an instruction has no meaning. -/
inductive Refusal where
  /-- Raised by an arm of exec whose instruction is not modelled yet. Safe: the model stops. -/
  | notModelled (mnemonic : String)
  deriving DecidableEq, Repr

end Sys2Proof.Machine
end

