-- ==== Sys2Proof/Machine/Legal.lean ====
section
/-!
DEFINITION. Which instruction words are legal where: the class of each instruction (01 R35), the field values that trap with
ILLINSTR (01 R31, R33, R36 to R45, 02 R58), what the A-stream may execute (01 R12, 11 R250), and what must end its clause
(01 R18, 02 R70, 15 R340). Designators are checked in Machine/Operands.lean.
-/
namespace Sys2Proof.Machine

/-- The class of clause that admits an instruction; none for an event (01 R35). -/
def classOf (i : Instr) : Option Class :=
  match i with
  | .iadd .. | .isub .. | .imul .. | .imulh .. | .imac .. | .imin .. | .imax .. | .iadd64 .. | .isub64 .. | .and ..
  | .or .. | .xor .. | .andn .. | .shl .. | .shr .. | .sar .. | .rotl .. | .bfx .. | .bfi .. | .popc .. | .clz ..
  | .brev .. | .sel .. | .mov .. | .fadd .. | .fsub .. | .fmul .. | .ffma .. | .ffms .. | .fnma .. | .fmin ..
  | .fmax .. | .icmpEq .. | .icmpNe .. | .icmpLt .. | .icmpLe .. | .icmpLtn .. | .icmpLen .. | .fcmpEq ..
  | .fcmpNe .. | .fcmpLt .. | .fcmpLe .. | .fcmpUn .. | .dcmpLt .. | .dcmpEq .. | .fabs .. | .fneg .. | .fclass ..
  | .shflIdx .. | .shflXor .. | .shflUp .. | .shflDn .. | .ballot .. | .redadd .. | .redmm .. | .scan ..
  | .readlane .. | .shapeof .. | .shapegen .. | .movk .. | .mov64 .. | .iaddi .. | .andi .. | .ori .. | .xori ..
  | .shli .. | .shri .. | .sari .. | .imuli .. | .icmpiEq .. | .icmpiLt .. | .icmpiLtn .. | .iaddi64 .. | .gets ..
  | .sets .. | .affine .. | .ldiLo .. | .ldiHi .. | .ldiS .. | .ldif .. | .cvt .. | .kopAnd .. | .kopOr ..
  | .kopXor .. | .kopAndn .. | .kopNot .. | .kopMov .. | .kopSetall .. | .kopClear .. | .kexecSave ..
  | .kexecSet .. | .kexecAnd .. | .kexecAndn .. | .kexecOr .. | .kexecAll => some .alu
  | .ldN8 .. | .ldI8 .. | .ldN16 .. | .ldI16 .. | .ld32 .. | .ld64 .. | .ld128 .. | .st8 .. | .st16 .. | .st32 ..
  | .st64 .. | .st128 .. | .ldp32 .. | .ldp128 .. | .stp32 .. | .stp128 .. | .atomAddI32 .. | .atomAddI64 ..
  | .atomMinI32 .. | .atomMaxI32 .. | .atomMinN32 .. | .atomMaxN32 .. | .atomAnd .. | .atomOr .. | .atomXor ..
  | .atomXchg .. | .atomCas .. | .atomXchg64 .. | .fenceAcq .. | .fenceRel .. | .fenceFull .. | .xfence ..
  | .spill .. | .fill .. | .waita .. | .wake .. | .waitp .. | .xadd .. | .esample .. | .eload .. | .edecay ..
  | .esweep .. | .eregion .. | .prefetch .. | .fenceLocal => some .mem
  | .mma .. | .mdrain .. | .mzero .. | .tkgive .. | .tktake .. | .accrd .. | .accwr .. | .mstat .. => some .mxe
  | .sfi .. | .sfwait .. | .sfpoll .. => some .sfq
  | .tidset .. | .sopen .. | .sgo .. | .sslot .. | .sstat .. | .sclose .. | .copy .. | .sort .. | .bin ..
  | .agdim .. | .agbase .. | .agld .. | .agst .. | .qstat .. | .coll .. => some .ste
  | .camset .. | .camgen .. | .bvhset .. | .trace .. | .mltset .. | .fragins .. | .lpop .. | .lresolve ..
  | .lclear .. => some .trv
  | .bra .. | .brany .. | .brall .. | .brnone .. | .call .. | .reform .. | .barInit .. | .barArrive ..
  | .barWait .. | .barSync .. | .jmpr .. | .trap .. | .ret | .nop | .gbar | .yield | .exit | .acquire | .rte
  | .rteSkip | .brk | .ordenter | .ordexit => some .ctl
  | .emit .. | .cycles .. | .commit => some .sys
  | .clauseIssue .. | .clauseCompletion .. | .sourcesRead .. | .estContributionApply .. | .overlayEviction ..
  | .sfiResult .. | .slotFill .. | .slotDrain .. | .walkPoint .. | .sortPass .. | .binCompletion .. | .mmaChunk ..
  | .mdrainRow .. | .traceCompletion .. | .freshBundleDraw .. | .reformageExpiry .. | .starvationPromotion ..
  | .waitaPoll .. | .acquireGrant .. | .groupAdmission .. | .binTimerExpiry .. | .groupSave .. | .groupRestore ..
  | .replyEntryWrite .. | .record .. | .bind .. | .replycfg .. | .load .. | .preempt .. | .withdraw .. | .attest ..
  | .restart .. | .replayall .. | .fail .. | .fbgetWrite .. | .fbstatClear .. | .replygetWrite .. | .rdropClear ..
  | .stalecntClear .. | .orderrClear .. | .lossesClear .. | .dropwrClear .. | .retriesClear ..
  | .hashDescriptorWrite .. | .registerWrite .. | .peerRequest .. | .flitReplay .. | .linkDown .. | .linkUp ..
  | .hostHdmAccess .. | .collTransfer .. | .timingDetectorFire .. | .correctedError .. | .bankMigrationChunk ..
  | .deviceReset .. | .lineEviction .. | .uncorrectableError .. | .hdmDecoderWrite .. | .staggerExpiry
  | .completionAck | .faultsaveExpiry | .deadlineExpiry | .hangDetection | .loadInstall | .tlbInvalidateRange
  | .tlbInvalidateAll | .hullTakeover | .hullFailure | .tlbInvalidationComplete => none

/-- Field values that are legal for an instruction; any other traps with ILLINSTR. -/
def fieldsLegal (i : Instr) : Bool :=
  match i with
  | .iadd _ m _ _ _ | .isub _ m _ _ _ | .imulh _ m _ _ _ | .icmpEq _ m _ _ _ | .icmpNe _ m _ _ _
  | .icmpLt _ m _ _ _ | .icmpLe _ m _ _ _ | .icmpLtn _ m _ _ _ | .icmpLen _ m _ _ _ | .fcmpEq _ m _ _ _
  | .fcmpNe _ m _ _ _ | .fcmpLt _ m _ _ _ | .fcmpLe _ m _ _ _ | .fcmpUn _ m _ _ _ | .dcmpLt _ m _ _ _
  | .dcmpEq _ m _ _ _ | .trace _ _ m _ => decide (m.toNat ≤ 2)
  | .imin _ m _ _ _ | .imax _ m _ _ _ | .bfx _ m _ _ _ => decide (m.toNat ≤ 1)
  | .shli _ _ i | .shri _ _ i | .sari _ _ i => decide (i.toNat ≤ 31)
  | .cvt _ _ _ _ r => decide (r.toNat ≤ 6)
  | .barInit _ c => decide (c.toNat ≠ 0)
  | .ldN8 o _ _ _ | .ldI8 o _ _ _ | .ldN16 o _ _ _ | .ldI16 o _ _ _ | .ld32 o _ _ _ | .ld64 o _ _ _
  | .ld128 o _ _ _ => decide (o.toNat ≤ 1)
  | .st8 o _ _ _ | .st16 o _ _ _ | .st32 o _ _ _ | .st64 o _ _ _ | .st128 o _ _ _ => decide (o.toNat % 2 = 0)
  | .xfence b a _ => decide (b.toNat ≠ 0) && decide (a.toNat ≠ 0)
  | .waitp _ _ c => decide (c.toNat ≤ 2)
  | .xadd _ _ s => decide (2 ≤ s.toNat)
  | .sfi _ _ _ f => decide (f.toNat % 16 ≤ 13)
  | .agld _ _ z | .agst _ _ z => decide (z.toNat ≤ 2)
  | .emit _ _ c => decide (c.toNat ≤ 15)
  | .imul .. | .imac .. | .iadd64 .. | .isub64 .. | .and .. | .or .. | .xor .. | .andn .. | .shl .. | .shr ..
  | .sar .. | .rotl .. | .bfi .. | .popc .. | .clz .. | .brev .. | .sel .. | .mov .. | .fadd .. | .fsub ..
  | .fmul .. | .ffma .. | .ffms .. | .fnma .. | .fmin .. | .fmax .. | .fabs .. | .fneg .. | .fclass ..
  | .shflIdx .. | .shflXor .. | .shflUp .. | .shflDn .. | .ballot .. | .redadd .. | .redmm .. | .scan ..
  | .readlane .. | .shapeof .. | .shapegen .. | .movk .. | .mov64 .. | .iaddi .. | .andi .. | .ori .. | .xori ..
  | .imuli .. | .icmpiEq .. | .icmpiLt .. | .icmpiLtn .. | .iaddi64 .. | .gets .. | .sets .. | .affine ..
  | .ldiLo .. | .ldiHi .. | .ldiS .. | .ldif .. | .kopAnd .. | .kopOr .. | .kopXor .. | .kopAndn .. | .kopNot ..
  | .kopMov .. | .kopSetall .. | .kopClear .. | .kexecSave .. | .kexecSet .. | .kexecAnd .. | .kexecAndn ..
  | .kexecOr .. | .bra .. | .brany .. | .brall .. | .brnone .. | .call .. | .reform .. | .barArrive ..
  | .barWait .. | .barSync .. | .jmpr .. | .trap .. | .ldp32 .. | .ldp128 .. | .stp32 .. | .stp128 ..
  | .atomAddI32 .. | .atomAddI64 .. | .atomMinI32 .. | .atomMaxI32 .. | .atomMinN32 .. | .atomMaxN32 ..
  | .atomAnd .. | .atomOr .. | .atomXor .. | .atomXchg .. | .atomCas .. | .atomXchg64 .. | .fenceAcq ..
  | .fenceRel .. | .fenceFull .. | .spill .. | .fill .. | .waita .. | .wake .. | .esample .. | .eload ..
  | .edecay .. | .esweep .. | .eregion .. | .prefetch .. | .mma .. | .mdrain .. | .mzero .. | .tkgive ..
  | .tktake .. | .accrd .. | .accwr .. | .mstat .. | .sfwait .. | .sfpoll .. | .tidset .. | .sopen .. | .sgo ..
  | .sslot .. | .sstat .. | .sclose .. | .copy .. | .sort .. | .bin .. | .agdim .. | .agbase .. | .qstat ..
  | .coll .. | .camset .. | .camgen .. | .bvhset .. | .mltset .. | .fragins .. | .lpop .. | .lresolve ..
  | .lclear .. | .cycles .. | .kexecAll | .ret | .nop | .gbar | .yield | .exit | .acquire | .rte | .rteSkip | .brk
  | .ordenter | .ordexit | .fenceLocal | .commit | .clauseIssue .. | .clauseCompletion .. | .sourcesRead ..
  | .estContributionApply .. | .overlayEviction .. | .sfiResult .. | .slotFill .. | .slotDrain .. | .walkPoint ..
  | .sortPass .. | .binCompletion .. | .mmaChunk .. | .mdrainRow .. | .traceCompletion .. | .freshBundleDraw ..
  | .reformageExpiry .. | .starvationPromotion .. | .waitaPoll .. | .acquireGrant .. | .groupAdmission ..
  | .binTimerExpiry .. | .groupSave .. | .groupRestore .. | .replyEntryWrite .. | .record .. | .bind ..
  | .replycfg .. | .load .. | .preempt .. | .withdraw .. | .attest .. | .restart .. | .replayall .. | .fail ..
  | .fbgetWrite .. | .fbstatClear .. | .replygetWrite .. | .rdropClear .. | .stalecntClear .. | .orderrClear ..
  | .lossesClear .. | .dropwrClear .. | .retriesClear .. | .hashDescriptorWrite .. | .registerWrite ..
  | .peerRequest .. | .flitReplay .. | .linkDown .. | .linkUp .. | .hostHdmAccess .. | .collTransfer ..
  | .timingDetectorFire .. | .correctedError .. | .bankMigrationChunk .. | .deviceReset .. | .lineEviction ..
  | .uncorrectableError .. | .hdmDecoderWrite .. | .staggerExpiry | .completionAck | .faultsaveExpiry
  | .deadlineExpiry | .hangDetection | .loadInstall | .tlbInvalidateRange | .tlbInvalidateAll | .hullTakeover
  | .hullFailure | .tlbInvalidationComplete => true

/-- Whether an instruction must be the last of its clause (01 R18, 02 R70, 15 R340). -/
def mustBeLast (i : Instr) : Bool :=
  match i with
  | .bra .. | .brany .. | .brall .. | .brnone .. | .call .. | .reform .. | .jmpr .. | .trap .. | .ret | .exit
  | .rte | .rteSkip | .brk => true
  | .clauseIssue .. | .clauseCompletion .. | .sourcesRead .. | .estContributionApply .. | .overlayEviction ..
  | .sfiResult .. | .slotFill .. | .slotDrain .. | .walkPoint .. | .sortPass .. | .binCompletion .. | .mmaChunk ..
  | .mdrainRow .. | .traceCompletion .. | .freshBundleDraw .. | .reformageExpiry .. | .starvationPromotion ..
  | .waitaPoll .. | .acquireGrant .. | .groupAdmission .. | .binTimerExpiry .. | .groupSave .. | .groupRestore ..
  | .replyEntryWrite .. | .record .. | .bind .. | .replycfg .. | .load .. | .preempt .. | .withdraw .. | .attest ..
  | .restart .. | .replayall .. | .fail .. | .fbgetWrite .. | .fbstatClear .. | .replygetWrite .. | .rdropClear ..
  | .stalecntClear .. | .orderrClear .. | .lossesClear .. | .dropwrClear .. | .retriesClear ..
  | .hashDescriptorWrite .. | .registerWrite .. | .peerRequest .. | .flitReplay .. | .linkDown .. | .linkUp ..
  | .hostHdmAccess .. | .collTransfer .. | .timingDetectorFire .. | .correctedError .. | .bankMigrationChunk ..
  | .deviceReset .. | .iadd .. | .isub .. | .imul .. | .imulh .. | .imac .. | .imin .. | .imax .. | .iadd64 ..
  | .isub64 .. | .and .. | .or .. | .xor .. | .andn .. | .shl .. | .shr .. | .sar .. | .rotl .. | .bfx .. | .bfi ..
  | .popc .. | .clz .. | .brev .. | .sel .. | .mov .. | .fadd .. | .fsub .. | .fmul .. | .ffma .. | .ffms ..
  | .fnma .. | .fmin .. | .fmax .. | .icmpEq .. | .icmpNe .. | .icmpLt .. | .icmpLe .. | .icmpLtn .. | .icmpLen ..
  | .fcmpEq .. | .fcmpNe .. | .fcmpLt .. | .fcmpLe .. | .fcmpUn .. | .dcmpLt .. | .dcmpEq .. | .fabs .. | .fneg ..
  | .fclass .. | .shflIdx .. | .shflXor .. | .shflUp .. | .shflDn .. | .ballot .. | .redadd .. | .redmm ..
  | .scan .. | .readlane .. | .shapeof .. | .shapegen .. | .movk .. | .mov64 .. | .iaddi .. | .andi .. | .ori ..
  | .xori .. | .shli .. | .shri .. | .sari .. | .imuli .. | .icmpiEq .. | .icmpiLt .. | .icmpiLtn .. | .iaddi64 ..
  | .gets .. | .sets .. | .affine .. | .ldiLo .. | .ldiHi .. | .ldiS .. | .ldif .. | .cvt .. | .kopAnd ..
  | .kopOr .. | .kopXor .. | .kopAndn .. | .kopNot .. | .kopMov .. | .kopSetall .. | .kopClear .. | .kexecSave ..
  | .kexecSet .. | .kexecAnd .. | .kexecAndn .. | .kexecOr .. | .barInit .. | .barArrive .. | .barWait ..
  | .barSync .. | .ldN8 .. | .ldI8 .. | .ldN16 .. | .ldI16 .. | .ld32 .. | .ld64 .. | .ld128 .. | .st8 ..
  | .st16 .. | .st32 .. | .st64 .. | .st128 .. | .ldp32 .. | .ldp128 .. | .stp32 .. | .stp128 .. | .atomAddI32 ..
  | .atomAddI64 .. | .atomMinI32 .. | .atomMaxI32 .. | .atomMinN32 .. | .atomMaxN32 .. | .atomAnd .. | .atomOr ..
  | .atomXor .. | .atomXchg .. | .atomCas .. | .atomXchg64 .. | .fenceAcq .. | .fenceRel .. | .fenceFull ..
  | .xfence .. | .spill .. | .fill .. | .waita .. | .wake .. | .waitp .. | .xadd .. | .esample .. | .eload ..
  | .edecay .. | .esweep .. | .eregion .. | .prefetch .. | .mma .. | .mdrain .. | .mzero .. | .tkgive ..
  | .tktake .. | .accrd .. | .accwr .. | .mstat .. | .sfi .. | .sfwait .. | .sfpoll .. | .tidset .. | .sopen ..
  | .sgo .. | .sslot .. | .sstat .. | .sclose .. | .copy .. | .sort .. | .bin .. | .agdim .. | .agbase ..
  | .agld .. | .agst .. | .qstat .. | .coll .. | .camset .. | .camgen .. | .bvhset .. | .trace .. | .mltset ..
  | .fragins .. | .lpop .. | .lresolve .. | .lclear .. | .emit .. | .cycles .. | .lineEviction ..
  | .uncorrectableError .. | .hdmDecoderWrite .. | .staggerExpiry | .completionAck | .faultsaveExpiry
  | .deadlineExpiry | .hangDetection | .loadInstall | .tlbInvalidateRange | .tlbInvalidateAll | .hullTakeover
  | .hullFailure | .kexecAll | .nop | .gbar | .yield | .acquire | .ordenter | .ordexit | .fenceLocal | .commit
  | .tlbInvalidationComplete => false

/-- Whether a stream may execute an instruction: the A-stream has no cross-lane, shape, spill, exact or estimator
instruction and no class but ALU, MEM, STE and CTL (01 R12, 11 R250); the X-stream programs no walk (11 R250). -/
def streamLegal (acc : Bool) (i : Instr) : Bool :=
  match i with
  | .shflIdx .. | .shflXor .. | .shflUp .. | .shflDn .. | .ballot .. | .redadd .. | .redmm .. | .scan ..
  | .readlane .. | .shapeof .. | .shapegen .. | .movk .. | .affine .. | .reform .. | .spill .. | .fill ..
  | .xadd .. | .esample .. | .eload .. | .edecay .. | .esweep .. | .eregion .. | .mma .. | .mdrain .. | .mzero ..
  | .tkgive .. | .tktake .. | .accrd .. | .accwr .. | .mstat .. | .sfi .. | .sfwait .. | .sfpoll .. | .camset ..
  | .camgen .. | .bvhset .. | .trace .. | .mltset .. | .fragins .. | .lpop .. | .lresolve .. | .lclear ..
  | .emit .. | .cycles .. | .commit => !acc
  | .agdim .. | .agbase .. | .agld .. | .agst .. => acc
  | .clauseIssue .. | .clauseCompletion .. | .sourcesRead .. | .estContributionApply .. | .overlayEviction ..
  | .sfiResult .. | .slotFill .. | .slotDrain .. | .walkPoint .. | .sortPass .. | .binCompletion .. | .mmaChunk ..
  | .mdrainRow .. | .traceCompletion .. | .freshBundleDraw .. | .reformageExpiry .. | .starvationPromotion ..
  | .waitaPoll .. | .acquireGrant .. | .groupAdmission .. | .binTimerExpiry .. | .groupSave .. | .groupRestore ..
  | .replyEntryWrite .. | .record .. | .bind .. | .replycfg .. | .load .. | .preempt .. | .withdraw .. | .attest ..
  | .restart .. | .replayall .. | .fail .. | .fbgetWrite .. | .fbstatClear .. | .replygetWrite .. | .rdropClear ..
  | .stalecntClear .. | .orderrClear .. | .lossesClear .. | .dropwrClear .. | .retriesClear ..
  | .hashDescriptorWrite .. | .registerWrite .. | .peerRequest .. | .flitReplay .. | .linkDown .. | .linkUp ..
  | .hostHdmAccess .. | .collTransfer .. | .timingDetectorFire .. | .correctedError .. | .bankMigrationChunk ..
  | .deviceReset .. | .iadd .. | .isub .. | .imul .. | .imulh .. | .imac .. | .imin .. | .imax .. | .iadd64 ..
  | .isub64 .. | .and .. | .or .. | .xor .. | .andn .. | .shl .. | .shr .. | .sar .. | .rotl .. | .bfx .. | .bfi ..
  | .popc .. | .clz .. | .brev .. | .sel .. | .mov .. | .fadd .. | .fsub .. | .fmul .. | .ffma .. | .ffms ..
  | .fnma .. | .fmin .. | .fmax .. | .icmpEq .. | .icmpNe .. | .icmpLt .. | .icmpLe .. | .icmpLtn .. | .icmpLen ..
  | .fcmpEq .. | .fcmpNe .. | .fcmpLt .. | .fcmpLe .. | .fcmpUn .. | .dcmpLt .. | .dcmpEq .. | .fabs .. | .fneg ..
  | .fclass .. | .mov64 .. | .iaddi .. | .andi .. | .ori .. | .xori .. | .shli .. | .shri .. | .sari .. | .imuli ..
  | .icmpiEq .. | .icmpiLt .. | .icmpiLtn .. | .iaddi64 .. | .gets .. | .sets .. | .ldiLo .. | .ldiHi .. | .ldiS ..
  | .ldif .. | .cvt .. | .kopAnd .. | .kopOr .. | .kopXor .. | .kopAndn .. | .kopNot .. | .kopMov ..
  | .kopSetall .. | .kopClear .. | .kexecSave .. | .kexecSet .. | .kexecAnd .. | .kexecAndn .. | .kexecOr ..
  | .bra .. | .brany .. | .brall .. | .brnone .. | .call .. | .barInit .. | .barArrive .. | .barWait ..
  | .barSync .. | .jmpr .. | .trap .. | .ldN8 .. | .ldI8 .. | .ldN16 .. | .ldI16 .. | .ld32 .. | .ld64 ..
  | .ld128 .. | .st8 .. | .st16 .. | .st32 .. | .st64 .. | .st128 .. | .ldp32 .. | .ldp128 .. | .stp32 ..
  | .stp128 .. | .atomAddI32 .. | .atomAddI64 .. | .atomMinI32 .. | .atomMaxI32 .. | .atomMinN32 ..
  | .atomMaxN32 .. | .atomAnd .. | .atomOr .. | .atomXor .. | .atomXchg .. | .atomCas .. | .atomXchg64 ..
  | .fenceAcq .. | .fenceRel .. | .fenceFull .. | .xfence .. | .waita .. | .wake .. | .waitp .. | .prefetch ..
  | .tidset .. | .sopen .. | .sgo .. | .sslot .. | .sstat .. | .sclose .. | .copy .. | .sort .. | .bin ..
  | .qstat .. | .coll .. | .lineEviction .. | .uncorrectableError .. | .hdmDecoderWrite .. | .staggerExpiry
  | .completionAck | .faultsaveExpiry | .deadlineExpiry | .hangDetection | .loadInstall | .tlbInvalidateRange
  | .tlbInvalidateAll | .hullTakeover | .hullFailure | .kexecAll | .ret | .nop | .gbar | .yield | .exit | .acquire
  | .rte | .rteSkip | .brk | .ordenter | .ordexit | .fenceLocal | .tlbInvalidationComplete => true

/-- The NB bit of an instruction (01 R28, R29). -/
def nbOf (i : Instr) : Bool :=
  match i with
  | .iadd n _ _ _ _ | .isub n _ _ _ _ | .imul n _ _ _ | .imulh n _ _ _ _ | .imac n _ _ _ | .imin n _ _ _ _
  | .imax n _ _ _ _ | .iadd64 n _ _ _ | .isub64 n _ _ _ | .and n _ _ _ | .or n _ _ _ | .xor n _ _ _ | .andn n _ _ _
  | .shl n _ _ _ | .shr n _ _ _ | .sar n _ _ _ | .rotl n _ _ _ | .bfx n _ _ _ _ | .bfi n _ _ _ | .popc n _ _
  | .clz n _ _ | .brev n _ _ | .sel n _ _ _ _ | .mov n _ _ | .fadd n _ _ _ _ | .fsub n _ _ _ _ | .fmul n _ _ _ _
  | .ffma n _ _ _ _ | .ffms n _ _ _ _ | .fnma n _ _ _ _ | .fmin n _ _ _ _ | .fmax n _ _ _ _ | .icmpEq n _ _ _ _
  | .icmpNe n _ _ _ _ | .icmpLt n _ _ _ _ | .icmpLe n _ _ _ _ | .icmpLtn n _ _ _ _ | .icmpLen n _ _ _ _
  | .fcmpEq n _ _ _ _ | .fcmpNe n _ _ _ _ | .fcmpLt n _ _ _ _ | .fcmpLe n _ _ _ _ | .fcmpUn n _ _ _ _
  | .dcmpLt n _ _ _ _ | .dcmpEq n _ _ _ _ | .fabs n _ _ _ | .fneg n _ _ _ | .fclass n _ _ | .shflIdx n _ _ _
  | .shflXor n _ _ _ | .shflUp n _ _ _ | .shflDn n _ _ _ | .ballot n _ _ | .redadd n _ _ _ _ | .redmm n _ _ _ _
  | .scan n _ _ _ _ | .readlane n _ _ _ | .shapeof n _ _ | .shapegen n _ _ | .movk n _ _ | .mov64 n _ _ => n = 1#1
  | .clauseIssue .. | .clauseCompletion .. | .sourcesRead .. | .estContributionApply .. | .overlayEviction ..
  | .sfiResult .. | .slotFill .. | .slotDrain .. | .walkPoint .. | .sortPass .. | .binCompletion .. | .mmaChunk ..
  | .mdrainRow .. | .traceCompletion .. | .freshBundleDraw .. | .reformageExpiry .. | .starvationPromotion ..
  | .waitaPoll .. | .acquireGrant .. | .groupAdmission .. | .binTimerExpiry .. | .groupSave .. | .groupRestore ..
  | .replyEntryWrite .. | .record .. | .bind .. | .replycfg .. | .load .. | .preempt .. | .withdraw .. | .attest ..
  | .restart .. | .replayall .. | .fail .. | .fbgetWrite .. | .fbstatClear .. | .replygetWrite .. | .rdropClear ..
  | .stalecntClear .. | .orderrClear .. | .lossesClear .. | .dropwrClear .. | .retriesClear ..
  | .hashDescriptorWrite .. | .registerWrite .. | .peerRequest .. | .flitReplay .. | .linkDown .. | .linkUp ..
  | .hostHdmAccess .. | .collTransfer .. | .timingDetectorFire .. | .correctedError .. | .bankMigrationChunk ..
  | .deviceReset .. | .iaddi .. | .andi .. | .ori .. | .xori .. | .shli .. | .shri .. | .sari .. | .imuli ..
  | .icmpiEq .. | .icmpiLt .. | .icmpiLtn .. | .iaddi64 .. | .gets .. | .sets .. | .affine .. | .ldiLo ..
  | .ldiHi .. | .ldiS .. | .ldif .. | .cvt .. | .kopAnd .. | .kopOr .. | .kopXor .. | .kopAndn .. | .kopNot ..
  | .kopMov .. | .kopSetall .. | .kopClear .. | .kexecSave .. | .kexecSet .. | .kexecAnd .. | .kexecAndn ..
  | .kexecOr .. | .bra .. | .brany .. | .brall .. | .brnone .. | .call .. | .reform .. | .barInit ..
  | .barArrive .. | .barWait .. | .barSync .. | .jmpr .. | .trap .. | .ldN8 .. | .ldI8 .. | .ldN16 .. | .ldI16 ..
  | .ld32 .. | .ld64 .. | .ld128 .. | .st8 .. | .st16 .. | .st32 .. | .st64 .. | .st128 .. | .ldp32 .. | .ldp128 ..
  | .stp32 .. | .stp128 .. | .atomAddI32 .. | .atomAddI64 .. | .atomMinI32 .. | .atomMaxI32 .. | .atomMinN32 ..
  | .atomMaxN32 .. | .atomAnd .. | .atomOr .. | .atomXor .. | .atomXchg .. | .atomCas .. | .atomXchg64 ..
  | .fenceAcq .. | .fenceRel .. | .fenceFull .. | .xfence .. | .spill .. | .fill .. | .waita .. | .wake ..
  | .waitp .. | .xadd .. | .esample .. | .eload .. | .edecay .. | .esweep .. | .eregion .. | .prefetch .. | .mma ..
  | .mdrain .. | .mzero .. | .tkgive .. | .tktake .. | .accrd .. | .accwr .. | .mstat .. | .sfi .. | .sfwait ..
  | .sfpoll .. | .tidset .. | .sopen .. | .sgo .. | .sslot .. | .sstat .. | .sclose .. | .copy .. | .sort ..
  | .bin .. | .agdim .. | .agbase .. | .agld .. | .agst .. | .qstat .. | .coll .. | .camset .. | .camgen ..
  | .bvhset .. | .trace .. | .mltset .. | .fragins .. | .lpop .. | .lresolve .. | .lclear .. | .emit ..
  | .cycles .. | .lineEviction .. | .uncorrectableError .. | .hdmDecoderWrite .. | .staggerExpiry | .completionAck
  | .faultsaveExpiry | .deadlineExpiry | .hangDetection | .loadInstall | .tlbInvalidateRange | .tlbInvalidateAll
  | .hullTakeover | .hullFailure | .kexecAll | .ret | .nop | .gbar | .yield | .exit | .acquire | .rte | .rteSkip
  | .brk | .ordenter | .ordexit | .fenceLocal | .commit | .tlbInvalidationComplete => false

end Sys2Proof.Machine
end

