-- ==== Sys2Proof/Machine/Access.lean ====
section
/-!
DEFINITION. Reading and writing the pieces of State by name: groups, bundles, streams, registers that need no rule beyond
their home. The current stream is the one State.cur names.
-/
namespace Sys2Proof.Machine

/-- The group of identity g; a group that does not exist reads as an empty one that has left the device. -/
def State.group (s : State) (g : Nat) : Group := Tab.get { st := .gone } s.groups g

/-- The state with group g replaced. -/
def State.setGroup (s : State) (g : Nat) (x : Group) : State := { s with groups := Tab.put s.groups g x }

/-- Bundle b of a group. -/
def Group.bundle (g : Group) (b : Nat) : Bundle := Tab.get {} g.bundles b

/-- The group with bundle b replaced. -/
def Group.setBundle (g : Group) (b : Nat) (x : Bundle) : Group := { g with bundles := Tab.put g.bundles b x }

/-- Bundle b of group g. -/
def State.bundle (s : State) (g b : Nat) : Bundle := (s.group g).bundle b

/-- The state with bundle b of group g replaced. -/
def State.setBundle (s : State) (g b : Nat) (x : Bundle) : State := s.setGroup g ((s.group g).setBundle b x)

/-- A stream of a bundle. -/
def Bundle.stream (b : Bundle) (acc : Bool) : Stream := if acc then b.as else b.xs

/-- The bundle with a stream replaced. -/
def Bundle.setStream (b : Bundle) (acc : Bool) (x : Stream) : Bundle :=
  if acc then { b with as := x } else { b with xs := x }

/-- The stream a name stands for. -/
def State.stream (s : State) (w : Who) : Stream := (s.bundle w.gid w.bid).stream w.acc

/-- The state with a stream replaced. -/
def State.setStream (s : State) (w : Who) (x : Stream) : State :=
  s.setBundle w.gid w.bid ((s.bundle w.gid w.bid).setStream w.acc x)

/-- The current group. -/
def State.grp (s : State) : Group := s.group s.cur.gid

/-- The current bundle. -/
def State.bun (s : State) : Bundle := s.bundle s.cur.gid s.cur.bid

/-- The current stream. -/
def State.str (s : State) : Stream := s.stream s.cur

/-- The state with the current group replaced. -/
def State.setGrp (s : State) (x : Group) : State := s.setGroup s.cur.gid x

/-- The state with the current bundle replaced. -/
def State.setBun (s : State) (x : Bundle) : State := s.setBundle s.cur.gid s.cur.bid x

/-- The state with the current stream replaced. -/
def State.setStr (s : State) (x : Stream) : State := s.setStream s.cur x

/-- Lanes of the current stream: W for the X-stream, one for the A-stream (04 R100, 11 R249). -/
def State.lanes (s : State) : Nat := if s.cur.acc then 1 else s.grp.w

/-- Ones in the low n bits. -/
def onesMask (n : Nat) : DWord := BitVec.ofNat 64 (2 ^ n - 1)

/-- EXEC as the words of the clause in progress use it: its value at issue (04 R108). -/
def State.exec0 (s : State) : DWord := s.str.clause.exec0

/-- The state is at its next core clock (log 2). -/
def State.tick (s : State) : State := { s with clock := s.clock + 1 }

/-- A fresh index into a free value, and the state that has used it (log 4). -/
def State.drawFree (s : State) : Nat × State := (s.freeCtr, { s with freeCtr := s.freeCtr + 1 })

/-- k register n of the current stream (02 R50, 11 R249). -/
def State.readK (s : State) (n : Nat) : DWord := Tab.get 0 s.str.k n

/-- Clear the poison of a register in the lanes of a mask (15 R350). -/
def clearRegPoison (p : List (Nat × Nat)) (d : Nat) (exec : DWord) : List (Nat × Nat) :=
  p.filter fun e => !(e.1 = d && exec.getLsbD e.2)

/-- Write k register n, of which the lanes of m are new; bits above the lanes become zero (02 R52, 11 R249, 15 R350). -/
def State.putK (s : State) (n : Nat) (x m : DWord) : State :=
  s.setStr { s.str with k := Tab.put s.str.k n (x &&& onesMask s.lanes), bad := clearRegPoison s.str.bad n m }

/-- Write k register n whole. -/
def State.writeK (s : State) (n : Nat) (x : DWord) : State := s.putK n x (onesMask 64)

/-- Write a k register under a mode, in the lanes of EXEC: 0 set, 1 and-into, 2 or-into (02 R52). -/
def State.writeKMode (s : State) (n mode : Nat) (c : DWord) : State :=
  let old := s.readK n
  let new := if mode = 0 then c else if mode = 1 then old &&& c else old ||| c
  s.putK n ((new &&& s.exec0) ||| (old &&& ~~~ s.exec0)) s.exec0

/-- x register n of the A-stream (11 R249). -/
def State.readX (s : State) (n : Nat) : Word := Tab.get 0 s.str.x n

/-- Write x register n. -/
def State.writeX (s : State) (n : Nat) (w : Word) : State :=
  s.setStr { s.str with x := Tab.put s.str.x n w, bad := clearRegPoison s.str.bad (32 + n) 1 }

/-- Flag f of a stream (01 R13). -/
def Stream.flag (x : Stream) (f : Nat) : Nat := Tab.get 0 x.flags f

/-- A stream with a flag raised by one; 15 names no flag (01 R9). -/
def Stream.raise (x : Stream) (f : Nat) : Stream :=
  if f < 12 then { x with flags := Tab.put x.flags f (x.flag f + 1) } else x

/-- A stream with a flag lowered by one (01 R13). -/
def Stream.lower (x : Stream) (f : Nat) : Stream :=
  if f < 12 then { x with flags := Tab.put x.flags f (x.flag f - 1) } else x

/-- A byte of the group's scratchpad. -/
def Group.scrByte (g : Group) (a : Nat) : Byte := Bytes.read g.scr a

/-- A word of the group's scratchpad (07 R165). -/
def Group.scrWord (g : Group) (a : Nat) : Word := BitVec.ofNat 32 (leNat (Bytes.readList g.scr a 4))

/-- The group with a scratchpad word written. -/
def Group.setScrWord (g : Group) (a : Nat) (w : Word) : Group :=
  { g with scr := Bytes.writeList g.scr a (leBytes 4 w.toNat) }

/-- n words of the group's scratchpad. -/
def Group.scrWords (g : Group) (a n : Nat) : List Word := (List.range n).map fun i => g.scrWord (a + 4 * i)

/-- Word i of a record or descriptor; words beyond its end read as zero. -/
def wordAt (l : List Word) (i : Nat) : Word := l.getD i 0

/-- A bit field [hi:lo] of a word, as a number. -/
def bits (w : Word) (hi lo : Nat) : Nat := (w.toNat / 2 ^ lo) % 2 ^ (hi - lo + 1)

/-- A bit of a word. -/
def bit (w : Word) (i : Nat) : Bool := w.getLsbD i

/-- Two words as 64 bits, low word first. -/
def pair64 (lo hi : Word) : DWord := hi ++ lo

/-- The low or high word of 64 bits. -/
def half (hi : Bool) (x : DWord) : Word := if hi then x.extractLsb' 32 32 else x.setWidth 32

/-- A number rounded up to a multiple of m. -/
def roundUp (n m : Nat) : Nat := (n + m - 1) / m * m

/-- Quotient rounded up. -/
def divUp (n d : Nat) : Nat := (n + d - 1) / d

/-- Saturating increment of a counter of w bits. -/
def satInc (w n : Nat) : Nat := min (n + 1) (2 ^ w - 1)

/-- Word i of the node record a group runs (05 R138). -/
def State.nodeWord (s : State) (n i : Nat) : Word :=
  match s.graph with
  | some g => wordAt (g.nodes.getD n []) i
  | none => 0

end Sys2Proof.Machine
end

