-- ==== Sys2Proof/Machine/Mem.lean ====
section
/-!
DEFINITION. Memory below the instructions: physical keys, the copies in L1 and cluster units, release and acquire, poison,
the five-level walk with its checks, TLBs, and the containment buffer (07 R162 to R178, R188, R189; 08 R196 to R205; 15 R342
to R344, R350; 18 R379).
-/
namespace Sys2Proof.Machine

/-- The key under which a byte stands in State.mem: the target of its page and its physical address (07 R174). -/
def memKey (target pa : Nat) : Nat := target * 2 ^ 52 + pa

/-- The target of a key. -/
def keyTarget (k : Nat) : Nat := k / 2 ^ 52

/-- Scopes: 0 group, 1 cluster, 2 device, 3 system (01 R33, 08 R196). -/
abbrev Scope := Nat

/-- The byte at its home: the home slice, the host or the peer (07 R162). -/
def State.homeByte (s : State) (k : Nat) : Byte := Bytes.read s.mem k

/-- n bytes at home. -/
def State.homeBytes (s : State) (k n : Nat) : List Byte := Bytes.readList s.mem k n

/-- Whether the link or target of a key takes requests: a port that is down drops writes and poisons reads (18 R397). Keys of
target 16 + t hold the exact cells of the peer with target t (log 17). -/
def State.targetUp (s : State) (k : Nat) : Bool :=
  let t := keyTarget k % 16
  if t < 2 then true else (Tab.get {} s.dev.ports (t - 2)).up

/-- Whether a byte's 8-byte unit is poisoned, or its link is down (15 R350, 18 R397). -/
def State.poisonedAt (s : State) (k : Nat) : Bool := s.poisoned.contains (k / 8) || !s.targetUp k

/-- Whether any of n bytes is poisoned. -/
def State.poisonedIn (s : State) (k n : Nat) : Bool := (List.range n).any fun i => s.poisonedAt (k + i)

/-- A write that covers whole 8-byte units clears their poison (15 R350). -/
def clearPoison (p : List Nat) (k n : Nat) : List Nat :=
  p.filter fun u => !(decide (k ≤ 8 * u) && decide (8 * u + 8 ≤ k + n))

/-- BACK_INVALIDATION: the host's copies of the lines that n bytes touch are taken back before a device access performs on
them (18 R394). -/
def State.backInv (s : State) (k n : Nat) : State :=
  if s.dev.hostHeld.isEmpty then s
  else { s with dev := { s.dev with hostHeld := s.dev.hostHeld.filter fun l => !(decide (k / 64 ≤ l) && decide (64 * l < k + n)) } }

/-- Write bytes at home. A write to a link that is down is dropped and counted (18 R397). -/
def State.homeWrite (s : State) (k : Nat) (bs : List Byte) : State :=
  let s := s.backInv k bs.length
  if s.targetUp k then
    { s with mem := Bytes.writeList s.mem k bs, poisoned := clearPoison s.poisoned k bs.length }
  else
    let p := keyTarget k % 16 - 2
    let x := Tab.get {} s.dev.ports p
    { s with dev := { s.dev with ports := Tab.put s.dev.ports p { x with dropwr := satInc 32 x.dropwr } } }

/-- Write bytes at home, consecutive keys together: one write for each run (15 R350). -/
def State.homeRuns (s : State) : Nat → List (Nat × Byte) → State
  | 0, _ => s
  | _, [] => s
  | n + 1, (k, b) :: t =>
    let run := (List.range t.length).takeWhile fun i => (t.getD i (0, 0)).1 = k + i + 1
    let m := run.length
    State.homeRuns (s.homeWrite k (b :: (t.take m).map (·.2))) n (t.drop m)

/-- Write some bytes of one line at home. Where its link is down the line is dropped, and counts once (18 R397). -/
def State.homeLine (s : State) (cs : List (Nat × Byte)) : State :=
  match cs with
  | [] => s
  | (k, b) :: _ => if s.targetUp k then s.homeRuns cs.length cs else s.homeWrite k [b]

/-- Write bytes at home line by line; n bounds their number. -/
def State.homeLines (s : State) : Nat → List (Nat × Byte) → State
  | 0, _ => s
  | _, [] => s
  | n + 1, (k, b) :: t =>
    let m := (t.takeWhile fun c => c.1 / 64 = k / 64).length
    State.homeLines (s.homeLine ((k, b) :: t.take m)) n (t.drop m)

/-- Write bytes in rising order at home, as lines of 64 bytes go back (08 R198). -/
def State.homePut (s : State) (cs : List (Nat × Byte)) : State := s.homeLines cs.length cs

/-- A word at home, little-endian (00 R5). -/
def State.homeWord (s : State) (k : Nat) : Word := BitVec.ofNat 32 (leNat (s.homeBytes k 4))

/-- Write a word at home. -/
def State.setHomeWord (s : State) (k : Nat) (w : Word) : State := s.homeWrite k (leBytes 4 w.toNat)

/-- n words at home. -/
def State.homeWords (s : State) (k n : Nat) : List Word := (List.range n).map fun i => s.homeWord (k + 4 * i)

/-- Write words at home from a key upward. -/
def State.setHomeWords (s : State) (k : Nat) (ws : List Word) : State :=
  s.homeWrite k (ws.flatMap fun w => leBytes 4 w.toNat)

/-- The L1 copies of a core. -/
def State.l1Of (s : State) (core : Nat) : Tab Copy := Tab.get [] s.l1 core

/-- The copies of a cluster unit. -/
def State.clOf (s : State) (cluster : Nat) : Tab Copy := Tab.get [] s.cl cluster

/-- The byte a plain load of a core sees: its L1, else its cluster unit, else home (08 R198). -/
def State.viewByte (s : State) (core k : Nat) : Byte :=
  match Tab.find? (s.l1Of core) k with
  | some c => c.1
  | none =>
    match Tab.find? (s.clOf (Config.clusterOf core)) k with
    | some c => c.1
    | none => s.homeByte k

/-- n bytes as a plain load of a core sees them. -/
def State.viewBytes (s : State) (core k n : Nat) : List Byte := (List.range n).map fun i => s.viewByte core (k + i)

/-- Put copies into an L1. -/
def State.putL1 (s : State) (core : Nat) (cs : List (Nat × Copy)) : State :=
  { s with l1 := Tab.put s.l1 core (cs.foldl (fun t c => Tab.put t c.1 c.2) (s.l1Of core)) }

/-- Put copies into a cluster unit. -/
def State.putCl (s : State) (cluster : Nat) (cs : List (Nat × Copy)) : State :=
  { s with cl := Tab.put s.cl cluster (cs.foldl (fun t c => Tab.put t c.1 c.2) (s.clOf cluster)) }

/-- A plain load fills clean copies of the bytes its L1 does not hold, in whole 8-byte units, so that what a later load finds of a unit is of
one time (08 R194, R198). -/
def State.fillL1 (s : State) (core k n : Nat) : State :=
  let a := k / 8 * 8
  let ks := (List.range (roundUp (k + n) 8 - a)).map (a + ·)
  let miss := ks.filter fun j => (Tab.find? (s.l1Of core) j).isNone
  if miss.isEmpty then s else (s.backInv k n).putL1 core (miss.map fun j => (j, (s.viewByte core j, false)))

/-- A plain store enters L1 (08 R198). The poison of its home stands until the bytes come there (15 R350). -/
def State.storeL1 (s : State) (core k : Nat) (bs : List Byte) : State :=
  s.putL1 core ((List.range bs.length).map fun i => (k + i, (bs.getD i 0, true)))

/-- Whether the copies a core loads from hold the byte of a key; where dirty is set only written ones count. -/
def State.copyHeld (s : State) (core k : Nat) (dirty : Bool) : Bool :=
  let has := fun (t : Tab Copy) => (Tab.find? t k).any fun c => c.2 || !dirty
  has (s.l1Of core) || has (s.clOf (Config.clusterOf core))

/-- Whether a core finds poison in n bytes: their 8-byte unit is poisoned at home, or its link is down, and the core's copies do
not hold the whole unit. An access at home regards the written copies alone, which go there before it (15 R350). -/
def State.viewPoison (s : State) (core k n : Nat) (home : Bool) : Bool :=
  (List.range n).any fun i =>
    s.poisonedAt (k + i) && !(List.range 8).all fun j => s.copyHeld core ((k + i) / 8 * 8 + j) home

/-- The copies of a table that are dirty, or whose whole 8-byte unit it holds: clean pieces of units are not kept (08 R194). -/
def wholeUnits (t : Tab Copy) : Tab Copy :=
  t.filter fun c => c.2.2 || (List.range 8).all fun j => (Tab.find? t (c.1 / 8 * 8 + j)).isSome

/-- Write the dirty copies of an L1 back to its cluster unit and leave them clean (08 R204). -/
def State.wbL1 (s : State) (core : Nat) : State :=
  let t := s.l1Of core
  let dirty := t.filter fun c => c.2.2
  if dirty.isEmpty then s else
    let s := s.putCl (Config.clusterOf core) dirty
    { s with l1 := Tab.put s.l1 core (wholeUnits (t.map fun c => (c.1, (c.2.1, false)))) }

/-- Write the dirty copies of a cluster unit back to home and leave them clean (08 R204). -/
def State.wbCl (s : State) (cluster : Nat) : State :=
  let t := s.clOf cluster
  let dirty := t.filter fun c => c.2.2
  if dirty.isEmpty then s else
    let s := s.homePut (dirty.map fun c => (c.1, c.2.1))
    { s with cl := Tab.put s.cl cluster (wholeUnits (t.map fun c => (c.1, (c.2.1, false)))) }

/-- Release of a core's LSU writes at a scope (08 R204, steps 2 to 4). -/
def State.releaseLsu (s : State) (core : Nat) (scope : Scope) : State :=
  if scope = 0 then s else
    let s := s.wbL1 core
    if scope = 1 then s else s.wbCl (Config.clusterOf core)

/-- Acquire at a scope: clean copies of the core's L1 are dropped, and of its cluster unit from device scope (08 R205). -/
def State.acquireLsu (s : State) (core : Nat) (scope : Scope) : State :=
  if scope = 0 then s else
    let s := { s with l1 := Tab.put s.l1 core ((s.l1Of core).filter fun c => c.2.2) }
    if scope = 1 then s else
      let c := Config.clusterOf core
      { s with cl := Tab.put s.cl c ((s.clOf c).filter fun c => c.2.2) }

/-- Take some bytes out of a core's L1, dirty ones to its cluster unit. -/
def State.flushL1 (s : State) (core k n : Nat) : State :=
  let inside := fun (c : Nat × Copy) => decide (k ≤ c.1) && decide (c.1 < k + n)
  let t := s.l1Of core
  let dirty := t.filter fun c => inside c && c.2.2
  if t.any inside then
    let s := if dirty.isEmpty then s else s.putCl (Config.clusterOf core) dirty
    { s with l1 := Tab.put s.l1 core (t.filter fun c => !inside c) }
  else s

/-- Take the 8-byte units of some bytes out of a core's L1 and cluster unit, dirty ones to home (08 R200, 07 R182). -/
def State.flush (s : State) (core k n : Nat) : State :=
  let a := k / 8 * 8
  let m := roundUp (k + n) 8 - a
  let s := (s.flushL1 core a m).backInv k n
  let c := Config.clusterOf core
  let inside := fun (x : Nat × Copy) => decide (a ≤ x.1) && decide (x.1 < a + m)
  let t := s.clOf c
  if t.any inside then
    let s := s.homePut ((t.filter fun x => inside x && x.2.2).map fun x => (x.1, x.2.1))
    { s with cl := Tab.put s.cl c (t.filter fun x => !inside x) }
  else s

/-- Data that carries poison comes to n bytes at home: their 8-byte units are poisoned (15 R350). -/
def State.poisonHome (s : State) (k n : Nat) : State :=
  let us := (List.range (roundUp (k + n) 8 / 8 - k / 8)).map (k / 8 + ·)
  { s with poisoned := us ++ s.poisoned.filter fun u => !us.contains u }

/-- Data that carries poison comes to n bytes from a core, whose copies of their units leave it (15 R350). -/
def State.poisonBytes (s : State) (core k n : Nat) : State := (s.flush core k n).poisonHome k n

/-! ## The overlay of the home slices -/

/-- The bytes of an overlay line: those of its 16 cells (09 R235). -/
def State.overlayLine (s : State) (line : Nat) : List (Nat × Byte) := Tab.get [] s.overlay line

/-- A cell as its slice holds it: the overlay copy where there is one, else the backing (09 R235). -/
def State.readCell (s : State) (line : Nat) (keys : List Nat) : Nat :=
  let o : Tab Byte := s.overlayLine line
  leNat (keys.map fun k => (Tab.find? o k).getD (s.homeByte k))

/-- The bytes an overlay entry takes when a line comes in: those of its 16 cells whose pages are there and which carry no
poison, by rising key (09 R235). runs names the line's backing as runs of keys. -/
def State.overlayFill (s : State) (runs : List (Nat × Nat)) : List (Nat × Byte) :=
  (runs.flatMap fun r => (List.range r.2).map (r.1 + ·)).filterMap fun k =>
    if s.poisonedAt k then none else some (k, s.homeByte k)

/-- BACK_INVALIDATION for some runs of keys, as a line's backing is read (18 R394). -/
def State.backRuns (s : State) (runs : List (Nat × Nat)) : State := runs.foldl (fun s r => s.backInv r.1 r.2) s

/-- Write a cell into the overlay (09 R235). -/
def State.writeCell (s : State) (line : Nat) (runs : List (Nat × Nat)) (keys : List Nat) (v : Nat) : State :=
  let bs := leBytes 48 v
  let s := if (s.overlayLine line).isEmpty then s.backRuns runs else s
  let o : Tab Byte := if (s.overlayLine line).isEmpty then s.overlayFill runs else s.overlayLine line
  let o' := (List.range keys.length).foldl (fun (t : Tab Byte) i => Tab.put t (keys.getD i 0) (bs.getD i 0)) o
  { s with overlay := Tab.put s.overlay line o' }

/-- A cell goes to its slice; one behind a link that is down is dropped and counted (09 R235, 18 R397). -/
def State.putCell (s : State) (line : Nat) (runs : List (Nat × Nat)) (keys : List Nat) (v : Nat) : State :=
  if !s.targetUp (keys.headD 0) then s.homeWrite (keys.headD 0) [0] else s.writeCell line runs keys v

/-- OVERLAY_EVICTION: a line's cells are written to their backing and leave the overlay (09 R235). -/
def State.evictLine (s : State) (line : Nat) : State :=
  let o := s.overlayLine line
  { s.homePut o with overlay := Tab.del s.overlay line }

/-- Evict every overlay line that covers one of n bytes of backing from key k: before a load, or a store, of kind-100 bytes in
handler mode (09 R235). -/
def State.evictOver (s : State) (k n : Nat) : State :=
  let ls := s.overlay.filter fun o => o.2.any fun c => decide (k ≤ c.1) && decide (c.1 < k + n)
  ls.foldl (fun s o => s.evictLine o.1) s

/-- Whether a local physical address lies in a region that holds memory (18 R379). -/
def State.localValid (s : State) (pa : Nat) : Bool :=
  decide (pa < Config.localBytes) && (Tab.get {} s.dev.hash (pa / 2 ^ 30)).valid

/-- The home slice of the line at a local physical address, from the hash descriptor of its region (18 R379). -/
def State.homeSlice (s : State) (pa : Nat) : Nat :=
  let sl := (Tab.get {} s.dev.hash (pa / 2 ^ 30) : HashD).slices
  let x := pa / 64 % 2 ^ 24
  let h := (x % 2 ^ 16) ^^^ (x / 2 ^ 8 % 2 ^ 16)
  let set := (List.range 256).filter fun i => (sl.getD (i / 32) 0).getLsbD (i % 32)
  set.getD (h * set.length / 2 ^ 16) 0

/-- The die a home slice lies on (18 R378). -/
def dieOfSlice (slice : Nat) : Nat := slice / 64

/-- Access bits of a translation: 1 read, 2 write, 4 fetch (15 R347). -/
abbrev AccBits := Nat

/-- The result of a walk. -/
inductive Xl where
  | ok (x : Xlat)
  | absent
  | bad (cause : Nat)
  deriving DecidableEq, Repr

/-- Trap cause codes (01 R49). -/
def cILLCLAUSE : Nat := 0x01
def cILLINSTR : Nat := 0x02
def cILLOPND : Nat := 0x03
def cALIGN : Nat := 0x04
def cPAGE : Nat := 0x05
def cPROT : Nat := 0x06
def cKIND : Nat := 0x07
def cWRANGE : Nat := 0x08
def cTOKEN : Nat := 0x09
def cPOOL : Nat := 0x0A
def cSHAPECAP : Nat := 0x0B
def cTRAPI : Nat := 0x0C
def cBREAK : Nat := 0x0D
def cHAZARD : Nat := 0x0E
def cQUEUE : Nat := 0x0F
def cPOISON : Nat := 0x10
def cPREEMPT : Nat := 0x11
def cHANG : Nat := 0x12
def cORDERR : Nat := 0x13

/-- A bit field of a 64-bit entry. -/
def dbits (w : DWord) (hi lo : Nat) : Nat := (w.toNat / 2 ^ lo) % 2 ^ (hi - lo + 1)

/-- The log2 size of a leaf's page by level and SPAN; none where the level has no such SPAN (07 R175). -/
def pageLog (level span : Nat) : Option Nat :=
  if level = 1 ∧ span ≤ 4 then some (12 + 2 * span)
  else if level = 2 ∧ span = 0 then some 21
  else if level = 2 ∧ span = 1 then some 24
  else if level = 2 ∧ span = 2 then some 26
  else if level = 2 ∧ span = 3 then some 28
  else if level = 3 ∧ span = 0 then some 30
  else none

/-- A leaf checked and turned into a translation (07 R174 to R176, 18 R379). -/
def State.leafXl (s : State) (va level ekey : Nat) (e : DWord) : Xl :=
  let target := dbits e 61 56
  let kind := dbits e 9 7
  let ord := dbits e 6 5
  match pageLog level (dbits e 4 2) with
  | none => .bad cPROT
  | some sz =>
    let n := 2 ^ (sz - (3 + 9 * level))
    let frame := (dbits e 55 16 * 4096) / 2 ^ sz * 2 ^ sz
    let pa := frame + va % 2 ^ sz
    if 14 ≤ target ∨ 5 ≤ kind ∨ ord = 3 then .bad cPROT
    else if (kind = 1 ∨ kind = 2 ∨ kind = 4) ∧ target ≠ 0 then .bad cPROT
    else if kind = 3 ∧ target = 1 then .bad cPROT
    else if target = 0 ∧ !s.localValid pa then .bad cPROT
    else
      let first := ekey - (va / 2 ^ (3 + 9 * level) % 512) % n * 8
      .ok { key := memKey target pa, kind := kind, ord := ord, leaf := e, base := va / 2 ^ sz * 2 ^ sz, size := sz,
            ents := (List.range n).map fun i => first + 8 * i }

/-- The walk from a table at a level down. Of the n entries of a large page it uses the one that the address indexes, where the
manual allows any of them (07 R173 to R176, 15 R342; DESIGN CHOICE, log 62). -/
def State.walkFrom (s : State) (va : Nat) : Nat → Nat → Xl
  | 0, _ => .bad cPROT
  | l + 1, table =>
    let ekey := table + 8 * (va / 2 ^ (12 + 9 * l) % 512)
    if !s.localValid ekey then .bad cPROT
    else if s.poisonedIn ekey 8 then .bad cPOISON
    else
      let e : DWord := BitVec.ofNat 64 (leNat (s.homeBytes ekey 8))
      if !e.getLsbD 0 then .absent
      else if e.getLsbD 1 then s.leafXl va (l + 1) ekey e
      else if l = 0 then .bad cPROT
      else State.walkFrom s va l (dbits e 55 16 * 4096)

/-- The leaf entry that a walk comes to, whatever it holds (07 R173). -/
def State.rawLeaf (s : State) (va : Nat) : Nat → Nat → Option DWord
  | 0, _ => none
  | l + 1, table =>
    let ekey := table + 8 * (va / 2 ^ (12 + 9 * l) % 512)
    let e : DWord := BitVec.ofNat 64 (leNat (s.homeBytes ekey 8))
    if !s.localValid ekey || s.poisonedIn ekey 8 || !e.getLsbD 0 then none
    else if e.getLsbD 1 then some e
    else State.rawLeaf s va l (dbits e 55 16 * 4096)

/-- The table entries that a walk reads, from a table at a level down (07 R173). -/
def State.walkKeys (s : State) (va : Nat) : Nat → Nat → List Nat
  | 0, _ => []
  | l + 1, table =>
    let ekey := table + 8 * (va / 2 ^ (12 + 9 * l) % 512)
    let e : DWord := BitVec.ofNat 64 (leNat (s.homeBytes ekey 8))
    if !s.localValid ekey then []
    else ekey :: if !e.getLsbD 0 || e.getLsbD 1 then [] else State.walkKeys s va l (dbits e 55 16 * 4096)

/-- BACK_INVALIDATION before a walk reads its table entries (18 R394). -/
def State.backWalk (s : State) (va : Nat) : State :=
  if s.dev.hostHeld.isEmpty then s
  else (s.walkKeys va 5 (dbits s.dev.ctl.ptRoot 51 12 * 4096)).foldl (fun s k => s.backInv k 8) s

/-- Base of the virtual addresses the Hull allocates spill areas and Husks from (DESIGN CHOICE, log 5). -/
def hullVa : Nat := 0x700000000000

/-- Base of the local frames behind them (DESIGN CHOICE, log 5). -/
def hullPa : Nat := 0x8000000000

/-- The leaf of a page the Hull has allocated: local, normal, RC, writable (07 R167; log 5). -/
def hullLeaf (va : Nat) : DWord := BitVec.ofNat 64 ((hullPa + (va - hullVa)) / 4096 * 2 ^ 16 + 0x403)

/-- The walk of a virtual address from PTROOT. Where the tables hold nothing for it, a page the Hull allocated answers. -/
def State.walk (s : State) (va : Nat) : Xl :=
  match s.walkFrom va 5 (dbits s.dev.ctl.ptRoot 51 12 * 4096) with
  | .absent =>
    if hullVa ≤ va ∧ va < hullVa + s.hullTop then
      if !s.localValid (hullPa + (va - hullVa)) then .bad cPROT else
      .ok { key := hullPa + (va - hullVa), kind := 0, ord := 0, leaf := hullLeaf va, base := va / 4096 * 4096, size := 12,
            ents := [] }
    else .absent
  | r => r

/-- Allocate n bytes of the Hull's pages, 64 KiB-aligned: the address, and the state with them taken (07 R167, 18 R388). -/
def State.hullAlloc (s : State) (n : Nat) : Nat × State :=
  (hullVa + s.hullTop, { s with hullTop := s.hullTop + roundUp n 65536 })

/-- The key of a byte of the Hull's pages. -/
def hullKey (va : Nat) : Nat := hullPa + (va - hullVa)

/-- The entry without the bits the hardware sets (07 R177). -/
def leafCore (e : DWord) : DWord := e &&& ~~~ 0x6000#64

/-- The TLB entry of a cluster that covers an address. -/
def State.tlbFind (s : State) (cluster va : Nat) : Option TlbEnt :=
  s.tlb.find? fun t => t.cluster = cluster ∧ va / 2 ^ t.size = t.base / 2 ^ t.size

/-- Translate: the walk's answer, or, where a TLB still holds another one, freely either, with the entries it was read from (15 R343,
07 R177; log 6). -/
def State.translate (s : State) (cluster va : Nat) : Xl :=
  let new := s.walk va
  match s.tlbFind cluster va with
  | none => new
  | some t =>
    match new with
    | .ok x =>
      if leafCore x.leaf = leafCore t.leaf ∧ x.size = t.size then new
      else if Config.useStale s.freeCtr then
        (match s.leafXl va t.rights 0 t.leaf with
         | .ok y => .ok { y with ents := t.ents, drew := true }
         | r => r)
      else .ok { x with drew := true }
    | _ =>
      if Config.useStale s.freeCtr then
        (match s.leafXl va t.rights 0 t.leaf with
         | .ok y => .ok { y with ents := t.ents, drew := true }
         | r => r)
      else new

/-- The level of a leaf from its page size. -/
def levelOf (size : Nat) : Nat := if size < 21 then 1 else if size < 30 then 2 else 3

/-- Set bits in an entry at home (07 R177). -/
def State.orEntry (s : State) (m : DWord) (ekey : Nat) : State :=
  let e : DWord := BitVec.ofNat 64 (leNat (s.homeBytes ekey 8))
  s.homeWrite ekey (leBytes 8 (e ||| m).toNat)

/-- The page at x as it reads for another address on it. -/
def Xlat.moved (x : Xlat) (va : Nat) : Xlat := { x with key := x.key / 2 ^ x.size * 2 ^ x.size + va % 2 ^ x.size }

/-- The translation among some that covers an address. -/
def pinOf (ps : List Xlat) (va : Nat) : Option Xlat :=
  (ps.find? fun x => va / 2 ^ x.size = x.base / 2 ^ x.size).map fun x => x.moved va

/-- While a clause's words are checked at issue, the translations they find are kept for the words to use (02 R64). -/
def State.pin (s : State) (x : Xlat) : State :=
  match s.found with
  | some ps => if (pinOf ps x.base).isNone then { s with found := some (x :: ps) } else s
  | none => s

/-- Whether a TLB entry of a cluster is the one that a translation stands in: its page, its leaf but for the marks, and its entries (07
R177, 15 R343). -/
def TlbEnt.holds (t : TlbEnt) (cluster : Nat) (x : Xlat) : Bool :=
  t.cluster = cluster && t.base = x.base && t.size = x.size && leafCore t.leaf = leafCore x.leaf && t.ents = x.ents

/-- An access is about to perform through a translation: ACCESSED and DIRTY are set in every entry of the page where this
is the first translation or the first write, and the TLB holds it (07 R177, 15 R342). -/
def State.touch (s : State) (cluster : Nat) (x : Xlat) (acc : AccBits) : State :=
  let s := (if x.drew then { s with freeCtr := s.freeCtr + 1 } else s).pin x
  if x.ents.isEmpty then s else
    let old := s.tlb.find? fun t => t.holds cluster x
    let s := if old.isNone then s.backWalk x.base else s
    let seen : DWord := match old with
      | some t => t.leaf
      | none => x.leaf
    let wr := acc / 2 % 2 = 1
    let m : DWord := (if old.isNone then 0x4000 else 0) ||| (if wr ∧ !seen.getLsbD 13 then 0x2000 else 0)
    if m = 0 then s else
      let s := x.ents.foldl (fun s k => s.orEntry m k) s
      let t : TlbEnt := { cluster := cluster, base := x.base, size := x.size, leaf := x.leaf ||| seen &&& 0x6000 ||| m,
                          rights := levelOf x.size, ents := x.ents }
      { s with tlb := t :: s.tlb.filter fun u => !(u.cluster = cluster ∧ u.base = x.base ∧ u.size = x.size) }

/-- Rights of a page for an access: SYS, WRITE and EXEC (07 R174). -/
def rightsOk (leaf : DWord) (handler : Bool) (acc : AccBits) : Bool :=
  (!leaf.getLsbD 12 || handler) && (acc / 2 % 2 = 0 || leaf.getLsbD 10) && (acc / 4 % 2 = 0 || leaf.getLsbD 11)

/-- Whether bits [63:57] of an address equal bit 56 (02 R62). -/
def canonical (va : DWord) : Bool :=
  let h := va.extractLsb' 56 8
  h = 0 || h = 0xFF

/-- Whether an address lies in the scratchpad aperture (07 R164). -/
def inAperture (va : DWord) : Bool := va.extractLsb' 32 32 = 0xFFFFFFFE#32

/-- Where an access goes: a scratchpad offset, or a translated byte. -/
inductive Loc where
  | scr (off : Nat)
  | mem (x : Xlat)
  deriving DecidableEq, Repr

/-- The answer for one address of an access. -/
inductive Acc1 where
  | ok (l : Loc)
  | bad (cause : Nat)
  | miss
  deriving DecidableEq, Repr

/-- Who accesses: core, handler mode, the scratchpad allotment, and the translations found at issue. -/
structure Party where
  core    : Nat
  handler : Bool := false
  scr     : Nat := 0
  pins    : List Xlat := []
  deriving DecidableEq, Repr

/-- The translation of an address for a party: the one its clause found at issue, else a new one (02 R64). -/
def State.transFor (s : State) (p : Party) (va : Nat) : Xl :=
  match pinOf p.pins va with
  | some x => .ok x
  | none => s.translate (Config.clusterOf p.core) va

/-- A scratchpad offset checked: alignment, then range (07 R163). -/
def scrAcc (p : Party) (off size : Nat) : Acc1 :=
  if off % size ≠ 0 then .bad cALIGN
  else if p.scr < off + size then .bad cPROT
  else .ok (.scr off)

/-- A global access checked after alignment: canonical form, translation, rights, and the kinds admitted (02 R62, 07 R176,
R178). -/
def State.globAcc (s : State) (p : Party) (va : DWord) (acc : AccBits) (kinds : List Nat) : Acc1 :=
  if !canonical va then .bad cPROT
  else
    match s.transFor p (va.toNat % 2 ^ 57) with
    | .absent => .miss
    | .bad c => .bad c
    | .ok x =>
      if !rightsOk x.leaf p.handler acc then .bad cPROT
      else if !kinds.contains x.kind then .bad cKIND
      else .ok (.mem x)

/-- An access that may lie in the aperture or in memory: ALIGN first (02 R62, 07 R164). -/
def State.anyAcc (s : State) (p : Party) (va : DWord) (size : Nat) (acc : AccBits) (kinds : List Nat) : Acc1 :=
  if inAperture va then scrAcc p (va.toNat % 2 ^ 32) size
  else if va.toNat % size ≠ 0 then .bad cALIGN
  else s.globAcc p va acc kinds

/-- An access that accepts no aperture address: KIND (07 R164). -/
def State.memAcc (s : State) (p : Party) (va : DWord) (size : Nat) (acc : AccBits) (kinds : List Nat) : Acc1 :=
  if va.toNat % size ≠ 0 then .bad cALIGN
  else if inAperture va then .bad cKIND
  else s.globAcc p va acc kinds

/-- The page number of an address as the miss table keys it (15 R346). -/
def vpnOf (va : DWord) : Nat := va.toNat % 2 ^ 57 / 4096

/-- The party the current stream is. -/
def State.party (s : State) : Party :=
  { core := s.grp.core, handler := s.str.handler, scr := s.grp.scrSize, pins := s.found.getD s.str.clause.pins }

/-- Whether the current group holds its stores in a containment buffer (07 R188). -/
def State.contains (s : State) (g : Group) : Bool := bit (s.nodeWord g.node 3) 6

/-- One line of a containment buffer written: exact words through the overlay, the other bytes to home, overlay entries that
cover them written back first (07 R189, 09 R234, R235). -/
def State.commitLine (s : State) (core : Nat) (cells : Tab Cell) (l : Nat × List (Nat × Byte)) : State :=
  let isCell := fun (c : Nat × Byte) => (Tab.find? cells (c.1 / 4)).isSome
  let s := (cells.filter fun c => c.1 / 16 = l.1).foldl (fun s c => s.putCell l.1 c.2.runs c.2.keys c.2.val) s
  let bs := l.2.filter fun c => !isCell c
  (bs.foldl (fun s c => (s.evictOver c.1 1).flush core c.1 1) s).homePut bs

/-- Commit a group's containment buffer: every entry, in allocation order, to home (07 R189). -/
def State.commitBuf (s : State) (gid : Nat) : State :=
  let g := s.group gid
  if g.cbuf.isEmpty then s else
    let s := g.cbuf.foldl (fun s line => s.commitLine g.core g.cells line) s
    s.setGroup gid { s.group gid with cbuf := [], cells := [], committed := true }

/-- The buffered byte of a group, if there is one. -/
def Group.bufByte (g : Group) (k : Nat) : Option Byte :=
  (g.cbuf.find? fun l => l.1 = k / 64).bind fun l => (l.2.find? fun c => c.1 = k).map (·.2)

/-- The condition of WAITP (07 R187). -/
def waitpHolds (c : Nat) (w e : Word) : Bool :=
  if c = 0 then w == e else if c = 1 then w != e else decide (e.toNat ≤ w.toNat)

/-- Bytes entered into a line of the buffer; a later byte replaces an earlier one. -/
def bufMerge (old : List (Nat × Byte)) (k : Nat) (bs : List Byte) : List (Nat × Byte) :=
  (List.range bs.length).foldl (fun t i => Tab.put t (k + i) (bs.getD i 0)) old

/-- A write of a group that no buffer holds, a SPILL's, replaces what an older store left of its bytes in the containment buffer (07 R171,
R188; 08 R199). -/
def State.unbuffer (s : State) (gid k n : Nat) : State :=
  let g := s.group gid
  let inside := fun (c : Nat × Byte) => decide (k ≤ c.1) && decide (c.1 < k + n)
  if g.cbuf.any fun l => l.2.any inside then
    let lines := g.cbuf.map fun l => (l.1, l.2.filter fun c => !inside c)
    s.setGroup gid { g with cbuf := lines.filter fun l => !l.2.isEmpty }
  else s

/-- A store entered into a group's buffer; where no entry is free the buffer commits first (07 R188). -/
def State.bufStore (s : State) (gid k : Nat) (bs : List Byte) : State :=
  let g := s.group gid
  let line := k / 64
  if g.cbuf.any fun l => l.1 = line then
    s.setGroup gid { g with cbuf := g.cbuf.map fun l => if l.1 = line then (l.1, bufMerge l.2 k bs) else l }
  else
    let s := if 256 ≤ g.cbuf.length then s.commitBuf gid else s
    let g := s.group gid
    s.setGroup gid { g with cbuf := g.cbuf ++ [(line, bufMerge [] k bs)] }

/-- A direct global write of a CONTAIN group commits its buffer first and sets COMMITTED (07 R189). -/
def State.directWrite (s : State) (gid : Nat) : State :=
  if s.contains (s.group gid) then
    let s := s.commitBuf gid
    s.setGroup gid { s.group gid with committed := true }
  else s

/-- Bytes of a plain load of a group on the LSU path, and the state with the copies it leaves: buffered bytes first, then
L1 for RC pages of kind normal, home for the others (07 R188, 08 R198, R200, R201). -/
def State.loadPlain (s : State) (gid : Nat) (x : Xlat) (n : Nat) : List Byte × State :=
  let g := s.group gid
  if x.ord = 0 ∧ x.kind = 0 then
    let bs := (List.range n).map fun i => (g.bufByte (x.key + i)).getD (s.viewByte g.core (x.key + i))
    (bs, s.fillL1 g.core x.key n)
  else
    let s := s.flush g.core x.key n
    ((List.range n).map fun i => (g.bufByte (x.key + i)).getD (s.homeByte (x.key + i)), s)

/-- The words that a UO load brings into its destination (02 R63). -/
def UoLoad.words (l : UoLoad) (bs : List Byte) : List Word :=
  if l.sign ≠ 0 then [(BitVec.ofNat l.sign (leNat bs)).signExtend 32]
  else if l.n < 4 then [BitVec.ofNat 32 (leNat bs)]
  else leWords bs (l.n / 4)

/-- One word of a UO load enters its lane of register d, where that register stands in place (02 R63; log 52). -/
def Bundle.bringUo (b : Bundle) (acc : Bool) (l : UoLoad) (d : Nat) (w : Word) : Bundle :=
  if acc then { b with as := { b.as with x := Tab.put b.as.x d w } }
  else if d < 0x60 then
    match Tab.find? b.v d with
    | some (.val (.g ws)) => { b with v := Tab.put b.v d (.val (.g (ws.set l.lane w))) }
    | some (.val (.u _)) => if l.uni then { b with v := Tab.put b.v d (.val (.u w)) } else b
    | _ => b
  else { b with o := Tab.put b.o (d - 0x60) ((Tab.get [] b.o (d - 0x60)).set l.lane w) }

/-- A UO load that has waited performs: it reads at its place and brings its words (08 R201). Where the place carries poison, or the bundle
is gone, what it had read at its word stands. -/
def State.performLoad (s : State) (u : UoStore) (l : UoLoad) : State :=
  if (Tab.find? (s.group u.who.gid).bundles u.who.bid).isNone || s.poisonedIn u.key l.n then s
  else
    let ws := l.words (s.homeBytes u.key l.n)
    let b := s.bundle u.who.gid u.who.bid
    s.setBundle u.who.gid u.who.bid
      ((List.range ws.length).foldl (fun b j => b.bringUo u.who.acc l (l.dest + j) (ws.getD j 0)) b)

/-- An access to a UO page performs at its place, without passing through L1 (08 R201). -/
def State.performUo (s : State) (u : UoStore) : State :=
  let s := if u.bytes.isEmpty then s else (s.flush u.core u.key u.bytes.length).homeWrite u.key u.bytes
  match u.load with
  | some l => s.performLoad u l
  | none => s

/-- Whether a UO store that waits must perform before a later one of its stream: a release store before a store to its bytes, and a lower
lane of one instruction before a higher one on the same bytes (02 R63, 08 R193, R207). -/
def UoStore.before (v u : UoStore) : Bool :=
  v.load.isNone && v.who = u.who && decide (v.key < u.key + u.bytes.length) && decide (u.key < v.key + v.bytes.length) &&
    (v.rel || (v.clause = u.clause && v.word = u.word))

/-- The UO accesses that satisfy p perform, in the order in which they left their streams (08 R201, R209). -/
def State.drainUo (s : State) (p : UoStore → Bool) : State :=
  if s.uoq.any p then
    let s' := (s.uoq.filter p).foldl State.performUo s
    { s' with uoq := s.uoq.filter fun u => !p u }
  else s

/-- A store on the LSU path that no containment buffer holds, by a word of a clause of a stream, rel for a release store (08 R198, R200,
R201). A store to a UO page performs now or later, freely, but never before one that has to go first (log 52). -/
def State.storeMem (s : State) (who : Who) (clause word : Nat) (rel : Bool) (x : Xlat) (bs : List Byte) : State :=
  let core := (s.group who.gid).core
  if x.ord = 0 ∧ x.kind = 0 then s.storeL1 core x.key bs
  else
    let u : UoStore := { who := who, clause := clause, core := core, key := x.key, bytes := bs, word := word, rel := rel,
                         page := (x.base, x.size) }
    if x.ord = 2 then
      let later := Config.uoLater s.freeCtr
      let s := { s with freeCtr := s.freeCtr + 1 }
      if later || s.uoq.any (·.before u) then { s with uoq := s.uoq ++ [u] } else s.performUo u
    else s.performUo u

/-- A plain store of the current stream: into its group's containment buffer, or to memory (07 R188). -/
def State.storePlain (s : State) (rel : Bool) (x : Xlat) (bs : List Byte) : State :=
  if s.contains (s.group s.cur.gid) then s.bufStore s.cur.gid x.key bs
  else s.storeMem s.cur s.str.clause.id s.str.clause.idx rel x bs

/-- The streams of a group whose WAITP a write of n scratchpad bytes satisfies (07 R187): the writes of every path are tested. -/
def Group.waitpHits (g : Group) (off n : Nat) : List (Nat × Bool) :=
  g.bundles.flatMap fun b => [false, true].filterMap fun a =>
    match (b.2.stream a).wait with
    | .waitp o e c =>
      if decide (off < o + 4) && decide (o < off + n) && waitpHolds c (g.scrWord o) e && !g.hits.contains (b.1, a)
      then some (b.1, a) else none
    | _ => none

/-- The group with scratchpad bytes written, and the WAITPs they satisfy noted (07 R187). -/
def Group.scrPut (g : Group) (off : Nat) (bs : List Byte) : Group :=
  let g := { g with scr := Bytes.writeList g.scr off bs }
  { g with hits := g.hits ++ g.waitpHits off bs.length }

/-- A table without n entries from an offset on. -/
def Tab.without {α : Type} (t : Tab α) (off n : Nat) : Tab α := t.filter fun c => !(decide (off ≤ c.1) && decide (c.1 < off + n))

/-- What the staging of an engine path may hold of n scratchpad bytes that path p is about to write: nothing older where it is the path
itself; else, freely, what it could hold before of each byte, or what stands there (08 R195, 12 R288; log 54). -/
def Group.stage (g : Group) (clock p off n : Nat) (q : Nat) : Tab (Byte × Nat) :=
  let t := Tab.get [] g.engOld q
  if q = p then Tab.without t off n
  else if Config.stagesOld clock q then
    (List.range n).foldl (fun (t : Tab (Byte × Nat)) i =>
      Tab.put t (off + i) (((Tab.find? t (off + i)).map (·.1)).getD (g.scrByte (off + i)), p)) t
  else t

/-- Scratchpad bytes of a group written by a path, 0 for the LSU path: the WAITPs they satisfy are noted, and what the staging of the
engine paths may still hold (07 R187, 08 R195). -/
def Group.scrPath (g : Group) (clock p off : Nat) (bs : List Byte) : Group :=
  { g.scrPut off bs with engOld := [(2, g.stage clock p off bs.length 2), (3, g.stage clock p off bs.length 3)] }

/-- A core writes scratchpad bytes of a group; its read buffer then holds nothing older of them. -/
def State.scrWrite (s : State) (gid off : Nat) (bs : List Byte) : State :=
  let g := (s.group gid).scrPath s.clock 0 off bs
  s.setGroup gid { g with scrOld := Tab.without g.scrOld off bs.length }

/-- An engine writes scratchpad bytes of a group; the scratchpad read buffer may still hold what stood there (08 R195, R212,
R224). -/
def State.scrWriteEng (s : State) (gid off : Nat) (bs : List Byte) (path : Nat := 2) : State :=
  let g := s.group gid
  let old := (List.range bs.length).foldl (fun (t : Tab Byte) i => Tab.put t (off + i) (g.scrByte (off + i))) g.scrOld
  s.setGroup gid { g.scrPath s.clock path off bs with scrOld := old }

/-- The bytes a plain load of a scratchpad finds: what stands there, or, where the read buffer may hold something older, freely
that; once what stands there has been found nothing older is (07 R166, 08 R195, R216, R224; log 53). -/
def State.scrLoad (s : State) (gid off n : Nat) : List Byte × State :=
  let g := s.group gid
  let now := Bytes.readList g.scr off n
  if (List.range n).any fun i => (Tab.find? g.scrOld (off + i)).isSome then
    let old := Config.readsOld s.freeCtr
    let s := { s with freeCtr := s.freeCtr + 1 }
    if old then ((List.range n).map fun i => (Tab.find? g.scrOld (off + i)).getD (g.scrByte (off + i)), s)
    else (now, s.setGroup gid { g with scrOld := Tab.without g.scrOld off n })
  else (now, s)

/-- The scratchpad byte that an engine path finds where its staging holds an older one (08 R195). -/
def Group.stagedByte (g : Group) (path a : Nat) : Byte :=
  ((Tab.find? (Tab.get [] g.engOld path) a).map (·.1)).getD (g.scrByte a)

/-- The bytes an engine path reads of a scratchpad: what stands there, or, where its staging may hold something older, freely that, as a
load does (08 R195, R216, 12 R288; log 54). -/
def State.stageRead (s : State) (gid path off n : Nat) : List Byte × State :=
  let g := s.group gid
  let t := Tab.get [] g.engOld path
  if (List.range n).any fun i => (Tab.find? t (off + i)).isSome then
    let old := Config.readsOld s.freeCtr
    let s := { s with freeCtr := s.freeCtr + 1 }
    if old then ((List.range n).map fun i => g.stagedByte path (off + i), s)
    else (Bytes.readList g.scr off n, s.setGroup gid { g with engOld := Tab.put g.engOld path (Tab.without t off n) })
  else (Bytes.readList g.scr off n, s)

/-- The writes of some paths to a group's scratchpad have performed where every path finds them (08 R210). -/
def State.stageFence (s : State) (gid : Nat) (before : Nat → Bool) : State :=
  let g := s.group gid
  if g.engOld.all (·.2.isEmpty) then s
  else s.setGroup gid { g with engOld := g.engOld.map fun q =>
    (q.1, q.2.map fun c => (c.1, (c.2.1, if before c.2.2 then 9 else c.2.2))) }

/-- The staging of an engine path drops what a fenced write has made stale (08 R210). -/
def State.stageDrop (s : State) (gid path : Nat) : State :=
  let g := s.group gid
  if (Tab.get [] g.engOld path).isEmpty then s
  else s.setGroup gid { g with engOld := Tab.put g.engOld path ((Tab.get [] g.engOld path).filter fun c => c.2.2 ≠ 9) }

/-- The scratchpad read buffers of a group are invalidated (08 R205, R212). -/
def State.dropOld (s : State) (gid : Nat) : State :=
  let g := s.group gid
  if g.scrOld.isEmpty then s else s.setGroup gid { g with scrOld := [] }

/-- Write the bytes of a slot that an entry of the forwarding table holds, on the LSU path (07 R171). -/
def State.fwdWrite (s : State) (core k : Nat) (rc : Bool) (bs : List Byte) : State :=
  if rc then s.storeL1 core k bs else (s.flush core k bs.length).homeWrite k bs

/-- The oldest n entries of a bundle's forwarding table leave it for memory, the oldest first (07 R169, R171). -/
def State.drainFwd (s : State) (gid bid n : Nat) : State :=
  let b := s.bundle gid bid
  let g := s.group gid
  if b.fwd.isEmpty || n = 0 then s else
    let keep := b.fwd.length - n
    let s := (b.fwd.drop keep).reverse.foldl (fun s e =>
      let s := e.data.foldl (fun s w => (s.fwdWrite g.core w.1 w.2.1 w.2.2).unbuffer gid w.1 w.2.2.length) s
      e.bad.foldl (fun s w => s.poisonBytes g.core w.1 w.2) s) s
    s.setBundle gid bid { s.bundle gid bid with fwd := b.fwd.take keep }

/-- Every entry of the forwarding tables of a group leaves for memory (07 R171, 08 R204). -/
def State.drainFwds (s : State) (gid : Nat) : State :=
  ((s.group gid).bundles.map (·.1)).foldl (fun s b => s.drainFwd gid b (s.bundle gid b).fwd.length) s

/-- A release at a scope by a group's stream, with the commit of R189 from cluster scope: the group's SPILL entries and UO
stores have performed, and its LSU writes go where the scope sees them (07 R171, 08 R201, R204). -/
def State.releaseGroup (s : State) (gid : Nat) (scope : Scope) : State :=
  let s := (s.drainFwds gid).drainUo fun u => u.who.gid = gid
  let s := if 1 ≤ scope then s.commitBuf gid else s
  s.releaseLsu (s.group gid).core scope

/-- An acquire at a scope by a group's stream (08 R205). -/
def State.acquireGroup (s : State) (gid : Nat) (scope : Scope) : State :=
  (s.dropOld gid).acquireLsu (s.group gid).core scope

/-! ## The buffers of the engine paths (08 R195) -/

/-- Paths by their XFENCE bit: 2 STE, 3 MXE, 4 TRV, 5 COL have buffers of their own here. -/
abbrev Path := Nat

/-- The copies a path of a core holds. -/
def State.pathBuf (s : State) (core : Nat) (p : Path) : Tab Copy := Tab.get [] s.pbuf (8 * core + p)

/-- The state with a path's copies replaced. -/
def State.setPathBuf (s : State) (core : Nat) (p : Path) (t : Tab Copy) : State :=
  { s with pbuf := if t.isEmpty then Tab.del s.pbuf (8 * core + p) else Tab.put s.pbuf (8 * core + p) t }

/-- The byte an engine path sees. -/
def State.pathByte (s : State) (core : Nat) (p : Path) (k : Nat) : Byte :=
  match Tab.find? (s.pathBuf core p) k with
  | some c => c.1
  | none => s.homeByte k

/-- The writes a path holds go home, and it keeps clean copies (08 R210, R213). -/
def State.wbPath (s : State) (core : Nat) (p : Path) : State :=
  let t := s.pathBuf core p
  let dirty := t.filter fun c => c.2.2
  if dirty.isEmpty then s
  else (s.homePut (dirty.map fun c => (c.1, c.2.1))).setPathBuf core p (t.map fun c => (c.1, (c.2.1, false)))

/-- The clean copies a path holds are invalidated (08 R210, R213). -/
def State.dropPath (s : State) (core : Nat) (p : Path) : State :=
  let t := s.pathBuf core p
  if t.isEmpty then s else s.setPathBuf core p (t.filter fun c => c.2.2)

/-- The engine paths. -/
def enginePaths : List Path := [2, 3, 4, 5]

/-- Bytes of a page that an engine path reads, and the state with the copies it keeps, freely, of an RC page (08 R195, R198;
log 54). -/
def State.pathRead (s : State) (core : Nat) (p : Path) (x : Xlat) (n : Nat) : List Byte × State :=
  let s := s.backInv x.key n
  let bs := (List.range n).map fun i => s.pathByte core p (x.key + i)
  if x.ord = 0 then
    let keep := Config.keepsCopy s.freeCtr
    let s := { s with freeCtr := s.freeCtr + 1 }
    (bs, if keep then s.setPathBuf core p ((List.range n).foldl (fun t i =>
        if (Tab.find? t (x.key + i)).isSome then t else Tab.put t (x.key + i) (bs.getD i 0, false)) (s.pathBuf core p)) else s)
  else (bs, s)

/-- Bytes that an engine path writes: to home at once, or, on an RC page, freely held by the path (08 R195, R198; log 54). -/
def State.pathWrite (s : State) (core : Nat) (p : Path) (x : Xlat) (bs : List Byte) : State :=
  let keep := x.ord = 0 && Config.keepsCopy s.freeCtr
  let s := if x.ord = 0 then { s with freeCtr := s.freeCtr + 1 } else s
  let t := s.pathBuf core p
  if keep then
    s.setPathBuf core p ((List.range bs.length).foldl (fun t i => Tab.put t (x.key + i) (bs.getD i 0, true)) t)
  else
    let s := if t.isEmpty then s else
      s.setPathBuf core p (t.filter fun c => !(decide (x.key ≤ c.1) && decide (c.1 < x.key + bs.length)))
    s.homeWrite x.key bs

/-- Whether an engine path finds poison in n bytes: in those its buffer does not hold (15 R350). -/
def State.pathPoison (s : State) (core : Nat) (p : Path) (k n : Nat) : Bool :=
  (List.range n).any fun i => s.poisonedAt (k + i) && (Tab.find? (s.pathBuf core p) (k + i)).isNone

/-- The cluster of a group's core. -/
def Group.cluster (g : Group) : Nat := Config.clusterOf g.core

end Sys2Proof.Machine
end

