-- ==== Sys2Proof/Machine/Node.lean ====
section
/-!
DEFINITION. The fields of a node record and what follows from them: strands, bundles, launch size, per-core capacity,
hierarchy digits, and the width AUTO chooses (04 R100 to R107, 05 R138, R139).
-/
namespace Sys2Proof.Machine

/-- The record of node n of the resident graph, empty where there is none. -/
def State.nodeRec (s : State) (n : Nat) : List Word :=
  match s.graph with
  | some g => g.nodes.getD n []
  | none => []

/-- Fields of a node record (05 R138). -/
def nNB (r : List Word) : Nat := bits (wordAt r 2) 24 18
def nRecw (r : List Word) : Nat := bits (wordAt r 2) 17 14 + 1
def nPrio (r : List Word) : Nat := bits (wordAt r 2) 13 11
def nLevels (r : List Word) : Nat := bits (wordAt r 2) 10 7
def nWcode (r : List Word) : Nat := bits (wordAt r 2) 2 0
def nHomeDie (r : List Word) : Nat := bits (wordAt r 3) 9 8
def nOrdered (r : List Word) : Bool := bit (wordAt r 3) 0
def nPersist (r : List Word) : Bool := bit (wordAt r 3) 1
def nCohort (r : List Word) : Bool := bit (wordAt r 3) 2
def nCheckw (r : List Word) : Bool := bit (wordAt r 3) 3
def nStagger (r : List Word) : Bool := bit (wordAt r 3) 4
def nCamera (r : List Word) : Bool := bit (wordAt r 3) 5
def nContain (r : List Word) : Bool := bit (wordAt r 3) 6
def nRelaunch (r : List Word) : Bool := bit (wordAt r 3) 7
def nBinTimer (r : List Word) : Nat := bits (wordAt r 4) 31 16
def nCoal (r : List Word) : Nat := bits (wordAt r 4) 9 0 + 1
def nReformAge (r : List Word) : Nat := bits (wordAt r 5) 31 16
def nCarry (r : List Word) : Nat := 4 * bits (wordAt r 5) 14 11
def nTiles (r : List Word) : Nat := bits (wordAt r 5) 10 7
def nGslots (r : List Word) : Nat := bits (wordAt r 5) 6 0
def nProscr (r : List Word) : Nat := (wordAt r 6).toNat
def nScratch (r : List Word) : Nat := (wordAt r 7).toNat
def nSpillsz (r : List Word) : Nat := (wordAt r 8).toNat
def nDeadline (r : List Word) : Nat := if wordAt r 9 = 0 then 2 ^ 20 else (wordAt r 9).toNat
def nStaggern (r : List Word) : Nat := bits (wordAt r 10) 23 0
def nSeed (r : List Word) : DWord := pair64 (wordAt r 12) (wordAt r 13)
def nExtent (r : List Word) (k : Nat) : Nat := if k < nLevels r then bits (wordAt r (16 + k)) 15 0 else 1
def nDomain (r : List Word) (k : Nat) : Nat := bits (wordAt r (16 + k)) 18 16

/-- Whether a node has an A entry (05 R138). -/
def nHasA (r : List Word) : Bool := wordAt r 1 ≠ 0xFFFFFFFF#32

/-- The product of the extents of the levels whose domain meets p. -/
def nProd (r : List Word) (p : Nat → Bool) : Nat :=
  (List.range (nLevels r)).foldl (fun a k => if p (nDomain r k) then a * nExtent r k else a) 1

/-- T, the strands of a group (04 R104); with fixed W the lane levels count W exactly. -/
def nT (r : List Word) : Nat := nProd r (fun d => decide (d ≤ 1))

/-- G_L, the groups of a launch (05 R139). -/
def nGL (r : List Word) : Nat := nProd r (fun d => decide (2 ≤ d))

/-- G_core, the groups of a launch that share a core (05 R139). -/
def nGcore (r : List Word) : Nat := nProd r (fun d => d = 2)

/-- The width of a code; none for AUTO (04 R100). -/
def widthOf (code : Nat) : Option Nat :=
  if code = 1 then some 8 else if code = 2 then some 16 else if code = 3 then some 32 else if code = 4 then some 64 else none

/-- The code of a width (15 R361). -/
def codeOfWidth (w : Nat) : Nat := if w ≤ 8 then 1 else if w ≤ 16 then 2 else if w ≤ 32 then 3 else 4

/-- The smallest width not below n. -/
def widthAtLeast (n : Nat) : Nat := if n ≤ 8 then 8 else if n ≤ 16 then 16 else if n ≤ 32 then 32 else 64

/-- The width AUTO takes from the divergence record of a node (04 R101). -/
def autoWidth (hist : List Nat) (t : Nat) : Nat :=
  let m := if hist.isEmpty then 32 else hist.sum / hist.length
  let w := if 48 ≤ m then 64 else if 24 ≤ m then 32 else if 12 ≤ m then 16 else 8
  max w (widthAtLeast (divUp t 16))

/-- The width of a launch of node n (04 R100, R101). -/
def State.launchWidth (s : State) (n : Nat) : Nat :=
  let r := s.nodeRec n
  match widthOf (nWcode r), s.graph with
  | some w, _ => w
  | none, some g => autoWidth (Tab.get [] g.div n) (nT r)
  | none, none => 8

/-- B for the capacity of R139: with AUTO, T over the least width it may choose. -/
def nBmax (r : List Word) : Nat :=
  match widthOf (nWcode r) with
  | some w => nT r / w
  | none => nT r / widthAtLeast (divUp (nT r) 16)

/-- The least of a bound and a quotient whose divisor may be zero, in which case it is left out (05 R139). -/
def minDiv (a n d : Nat) : Nat := if d = 0 then a else min a (n / d)

/-- The per-core capacity c of a node (05 R139). -/
def nCap (r : List Word) : Nat :=
  let b := nBmax r
  let wmax := (widthOf (nWcode r)).getD 64
  minDiv (minDiv (minDiv (minDiv (minDiv 8 48 b) 64 (nNB r)) 917504 (nScratch r)) 8 (nTiles r)) 393216
    (b * nGslots r * 4 * wmax)

/-- The mixed-radix digits of a number over the levels whose domain meets p, lowest level fastest (04 R106). -/
def nDigit (r : List Word) (p : Nat → Bool) (x k : Nat) : Nat :=
  let q := (List.range k).foldl (fun a j => if p (nDomain r j) then a * nExtent r j else a) 1
  x / q % nExtent r k

/-- Hierarchy index of level k for lane 0 of a bundle (04 R106, R107): AUTO decomposes the strand index over lane and bundle
levels together; the system-bound levels decompose the index of the device, sys. -/
def nIndex (r : List Word) (sys w group bundle : Nat) (k : Nat) : Nat :=
  if nLevels r ≤ k then 0
  else if nDomain r k = 6 then nDigit r (fun d => d = 6) sys k
  else if 2 ≤ nDomain r k then nDigit r (fun d => decide (2 ≤ d)) group k
  else if nWcode r = 0 then nDigit r (fun d => decide (d ≤ 1)) (bundle * w) k
  else if nDomain r k = 0 then 0
  else nDigit r (fun d => d = 1) bundle k

/-- The digits of GROUP at the levels whose domain is lo or above. -/
def nKey (r : List Word) (group lo : Nat) : List Nat :=
  ((List.range (nLevels r)).filter fun k => decide (lo ≤ nDomain r k)).map
    fun k => nDigit r (fun d => decide (2 ≤ d)) group k

/-- The number that the digits of GROUP at the levels of one domain make, the lowest level fastest (04 R106). -/
def nRank (r : List Word) (group dom : Nat) : Nat :=
  ((List.range (nLevels r)).foldl (fun (a : Nat × Nat) k =>
    if nDomain r k = dom then (a.1 + a.2 * nDigit r (fun d => decide (2 ≤ d)) group k, a.2 * nExtent r k) else a) (0, 1)).1

/-- The groups a core holds. -/
def State.groupsOn (s : State) (core : Nat) : List Group :=
  (Tab.vals s.groups).filter fun g => g.core = core ∧ (g.st = .prologue ∨ g.st = .full ∨ g.st = .exiting)

/-- Whether a group stands on its core: its commands work only there (15 R353). -/
def State.resident (s : State) (gid : Nat) : Bool := (s.group gid).st ≠ .saved && (s.group gid).st ≠ .gone

/-- The G budget of a bundle of a group (04 R115). -/
def State.budget (s : State) (g : Group) : Nat := if g.isFull then nGslots (s.nodeRec g.node) else 8

/-- What a core's groups hold: groups, bundles, scratchpad bytes, barriers, tiles, register-file bytes (05 R139, R148). -/
structure Load where
  groups : Nat := 0
  bundles : Nat := 0
  scr : Nat := 0
  bars : Nat := 0
  tiles : Nat := 0
  regs : Nat := 0
  deriving DecidableEq, Repr

/-- The load of one group with a given allotment. -/
def groupLoad (r : List Word) (w b scr budget : Nat) : Load :=
  { groups := 1, bundles := b, scr := scr, bars := nNB r, tiles := nTiles r, regs := b * budget * 4 * w }

/-- The sum of two loads. -/
def Load.add (a b : Load) : Load :=
  { groups := a.groups + b.groups, bundles := a.bundles + b.bundles, scr := a.scr + b.scr, bars := a.bars + b.bars,
    tiles := a.tiles + b.tiles, regs := a.regs + b.regs }

/-- Whether a core can carry a load (04 R102, R133, 05 R139, 12 R275). -/
def Load.fits (l : Load) : Bool :=
  decide (l.groups ≤ 8) && decide (l.bundles ≤ 48) && decide (l.scr ≤ 917504) && decide (l.bars ≤ 64) &&
    decide (l.tiles ≤ 8) && decide (l.regs ≤ 393216)

/-- The load of a core. -/
def State.coreLoad (s : State) (core : Nat) : Load :=
  (s.groupsOn core).foldl (fun l g => l.add (groupLoad (s.nodeRec g.node) g.w g.nb g.scrSize (s.budget g))) {}

end Sys2Proof.Machine
end

