-- ==== Sys2Proof/Machine/Post.lean ====
section
/-!
DEFINITION. Replies, error records and status records (18 R383), node status (18 R385), the Hull's journal (18 R389), and the
records that enter bins and form launches (05 R142 to R146, 13 R306).
-/
namespace Sys2Proof.Machine

/-- Whether the device takes requests from outside: it starts, or a Hull controller works; after a failure of the sole controller nothing
but a device reset is accepted (18 R390). -/
def State.accepts (s : State) : Bool := s.dev.mode = 2 || decide (0 < s.dev.hulls)

/-- A request from outside, where the device takes any. -/
def State.request (s : State) (f : State → State) : State := if s.accepts then f s else s

/-- A mailbox. -/
def State.mbox (s : State) (m : Nat) : Mbox := Tab.get {} s.dev.mboxes m

/-- The state with a mailbox replaced. -/
def State.setMbox (s : State) (m : Nat) (x : Mbox) : State := { s with dev := { s.dev with mboxes := Tab.put s.dev.mboxes m x } }

/-- Post an entry to a mailbox's reply ring (18 R383): without a ring every class is dropped and counted; records of class 2
and 3 are dropped when the ring is full; a reply waits. The entry is class, SEQ and body; REPLY_ENTRY_WRITE writes it. -/
def State.post (s : State) (m cls seq : Nat) (body : List Word) : State :=
  let x := s.mbox m
  match x.ring with
  | none => s.setMbox m { x with rdrop := satInc 32 x.rdrop }
  | some (_, logn) =>
    let used := (x.put - x.get).toNat
    if cls ≠ 1 ∧ used ≤ 2 ^ logn ∧ 2 ^ logn ≤ used + x.waiting.length then s.setMbox m { x with rdrop := satInc 32 x.rdrop }
    else s.setMbox m { x with waiting := x.waiting ++ [BitVec.ofNat 32 cls :: BitVec.ofNat 32 seq :: body] }

/-- An error record of the resident graph, to its ERRMBOX (05 R137, 18 R383). -/
def State.postErr (s : State) (body : List Word) : State :=
  match s.graph with
  | some g => s.post g.errBox 2 0 body
  | none => s

/-- A status record, to mailbox 0 (18 R383). -/
def State.postStatus (s : State) (code a b c : Word) : State := s.post 0 3 0 [code, a, b, c]

/-- Status of a node. -/
def State.nstat (s : State) (n : Nat) : NStat := Tab.get {} s.dev.nstats n

/-- The state with a node's status replaced. -/
def State.setNstat (s : State) (n : Nat) (x : NStat) : State := { s with dev := { s.dev with nstats := Tab.put s.dev.nstats n x } }

/-- The full state image of a CHECKPOINT (18 R389). -/
def State.image (s : State) (n : Nat) : Image :=
  let g := s.graph.getD {}
  { number := n, timers := g.bins.map fun b => (b.1, b.2.map (·.1)), serial := s.dev.launchCtr,
    launches := g.launches.map fun l => (l.1, l.2.next), preempt := s.preempt }

/-- One more journal entry (18 R389); a CHECKPOINT stands at every serial that is a multiple of 1,024. -/
def State.journal1 (s : State) (ty node : Nat) (w2 w3 : Word) : State :=
  let k := s.dev.serial + 1
  let e : List Word := [k, BitVec.ofNat 32 (ty * 2 ^ 24 + node), w2, w3]
  { s with dev := { s.dev with serial := k, journal := (e :: s.dev.journal).take 16384,
                                ckpt := if ty = 1 then s.image w2.toNat else s.dev.ckpt } }

/-- A decision's journal entry, after a CHECKPOINT where one is due. -/
def State.journal (s : State) (ty node : Nat) (w2 w3 : Word) : State :=
  let s := if (s.dev.serial + 1).toNat % 1024 = 0 then s.journal1 1 0 (BitVec.ofNat 32 ((s.dev.serial + 1).toNat / 1024)) 0 else s
  s.journal1 ty node w2 w3

/-- The live node a handle names, if it names one (05 R141). -/
def State.liveNode (s : State) (h : Word) : Option Nat :=
  match s.graph with
  | some g => if bits h 31 16 = g.gen ∧ bits h 15 0 < g.nodes.length then some (bits h 15 0) else none
  | none => none

/-- The handle of node n of the resident graph (05 R141). -/
def State.handleOf (s : State) (n : Nat) : Word :=
  match s.graph with
  | some g => BitVec.ofNat 32 (g.gen * 65536 + n)
  | none => 0

/-- Records in the bin of node n. -/
def State.bin (s : State) (n : Nat) : List (Nat × List Word) :=
  match s.graph with
  | some g => Tab.get [] g.bins n
  | none => []

/-- Records that stand in the bank of a node: bank n mod 64 of the Pod of its HOMEDIE (18 R386). -/
def State.bankCount (s : State) (n : Nat) : Nat :=
  match s.graph with
  | some g =>
    (g.bins.filter fun b => b.1 % 64 = n % 64 ∧ nHomeDie (s.nodeRec b.1) = nHomeDie (s.nodeRec n)).foldl
      (fun a b => a + b.2.length) 0
  | none => 0

/-- Whether the bank of a node takes one more record: 512 on chip and, in the spill part, 64 bytes each (18 R386; log 16). -/
def State.binRoom (s : State) (n : Nat) : Bool :=
  match s.graph with
  | some g => decide (s.bankCount n < 512 + g.spillSize / 256 / 64)
  | none => false

/-- The state with the graph changed. -/
def State.mapGraph (s : State) (f : Graph → Graph) : State := { s with graph := s.graph.map f }

/-- Set a node's pending kick (18 R388). -/
def State.kick (s : State) (n : Nat) : State :=
  if s.dev.kicks.contains n then s else { s with dev := { s.dev with kicks := n :: s.dev.kicks } }

/-- Form a launch of node n from records (05 R146). -/
def State.newLaunch (s : State) (n total : Nat) (recs : List (List Word)) : State :=
  let serial := s.dev.launchCtr + 1
  let s := s.journal 2 n (BitVec.ofNat 32 serial) (BitVec.ofNat 32 total)
  let l : Launch := { node := n, total := total, w := s.launchWidth n, records := recs }
  let s := { s with dev := { s.dev with launchCtr := serial } }
  (s.mapGraph fun g => { g with launches := Tab.put g.launches serial l }).kick n

/-- Replace a node's bin. -/
def State.setBin (s : State) (n : Nat) (b : List (Nat × List Word)) : State :=
  s.mapGraph fun g => { g with bins := Tab.put g.bins n b }

/-- Form the launches that the records of a bin allow (05 R146). -/
def State.formLaunch (s : State) (n : Nat) : State :=
  let r := s.nodeRec n
  let b := s.bin n
  if nCoal r ≤ b.length then
    (s.setBin n (b.drop (nCoal r))).newLaunch n (nGL r) ((b.take (nCoal r)).map (·.2))
  else s

/-- A CAMERA record forms its launch at once, or is discarded with CAMEXTENT (13 R306). -/
def State.cameraRecord (s : State) (n : Nat) (rcd : List Word) : State :=
  let wi := wordAt rcd 0
  let hi := wordAt rcd 1
  if wi = 0 ∨ hi = 0 ∨ 65535 < wi.toNat ∨ 65535 < hi.toNat then s.postErr [4, s.handleOf n, wi, hi]
  else s.newLaunch n (divUp wi.toNat 8 * divUp hi.toNat 8) [rcd]

/-- A record enters the bin of node n, padded to its length (05 R142, R146). -/
def State.appendRecord (s : State) (n : Nat) (rcd : List Word) : State :=
  let r := s.nodeRec n
  let rcd := (List.range (nRecw r)).map fun i => wordAt rcd i
  if nCamera r then s.cameraRecord n rcd
  else (s.setBin n (s.bin n ++ [(s.clock, rcd)])).formLaunch n

/-- Discard a record: the emitter's stale-handle counter rises and an error record is posted (05 R143). -/
def State.discardRecord (s : State) (code emitter : Nat) (handle : Word) (words : Nat) : State :=
  let x := s.nstat emitter
  (s.setNstat emitter { x with stale := satInc 32 x.stale }).postErr
    [BitVec.ofNat 32 code, s.handleOf emitter, handle, BitVec.ofNat 32 words]

/-- Send one record to a handle; none where its bin has no room (05 R142, 18 R386). -/
def State.sendRecord (s : State) (emitter : Nat) (handle : Word) (rcd : List Word) : Option State :=
  match s.liveNode handle with
  | none => some (s.discardRecord 1 emitter handle rcd.length)
  | some n =>
    if nRecw (s.nodeRec n) < rcd.length then some (s.discardRecord 2 emitter handle rcd.length)
    else if !nCamera (s.nodeRec n) && !s.binRoom n then none
    else some (s.appendRecord n rcd)

end Sys2Proof.Machine
end

