-- ==== Sys2Proof/Machine/Life.lean ====
section
/-!
DEFINITION. The life of a group: the start of a bundle, admission to a core, fresh bundles from REFORM bins, retirement,
killing and relaunching, and the reset of the context (04 R101 to R103, R130, R131, 05 R147 to R159, 07 R167, R168, R191,
13 R327, R328, 15 R339, R355, 18 R391).
-/
namespace Sys2Proof.Machine

/-- The stochastic-rounding state a bundle index starts with (03 R93). -/
def srSeed (seed : DWord) (group bundle : Nat) : DWord :=
  seed ^^^ (0x9E3779B97F4A7C15#64 * BitVec.ofNat 64 (group * 16 + bundle))

/-- ESLOTS and AUTOCAP of a spill area (07 R168). -/
def spillSlots (spillsz w : Nat) : Nat × Nat :=
  let e := min 128 ((spillsz - 512) / (8 * w))
  (e, min 96 ((spillsz - 512 - e * 4 * w) / (4 * w)))

/-- The Hull sets up the spill area of a bundle index: its SPILLBASE, and the state with the area written (07 R167, R168). -/
def State.newArea (s : State) (spillsz w : Nat) : Word × State :=
  let (va, s) := s.hullAlloc spillsz
  let k := hullKey va
  let (e, a) := spillSlots spillsz w
  let s := s.homeWrite k (List.replicate 128 3)
  let s := s.homeWrite (k + 0x80) (List.replicate 96 0)
  let s := s.homeWrite (k + 0xE0) (List.replicate 96 0xFF)
  let s := s.homeWrite (k + 0x200) (List.replicate ((e + a) * 4 * w) 0)
  let s := s.setHomeWord (k + 0x140) (BitVec.ofNat 32 e)
  (BitVec.ofNat 32 (va / 65536), s.setHomeWord (k + 0x144) (BitVec.ofNat 32 a))

/-- The lowest bundle slot of a core that no bundle holds (15 R366). -/
def State.freeSlot (s : State) (core : Nat) : Nat :=
  let used := (s.groupsOn core).flatMap fun g => (Tab.vals g.bundles).map (·.slot)
  ((List.range 48).find? fun i => !used.contains i).getD 48

/-- A bundle index starts, with its lanes and entry points (02 R50, 04 R103, R131, 11 R249). The spill area is the index's
own, set up at its first start. -/
def State.startBundle (s : State) (gid idx : Nat) (live : DWord) (orig : List Nat) (xpc : Word) (v : Tab VReg) : State :=
  let g := s.group gid
  let r := s.nodeRec g.node
  let (area, s) := match Tab.find? g.areas idx with
    | some a => (a, s)
    | none => s.newArea (nSpillsz r) g.w
  let sr := Tab.get (srSeed (nSeed r) g.group idx) g.srLeft idx
  let hasA := nHasA r
  let b : Bundle := {
    started := true, bundle := idx, slot := s.freeSlot g.core, live := live, v := v, sr := sr, srEntry := sr,
    spillBase := area, orig := orig, pat := { l := g.w }, ready := s.clock,
    xs := { present := true, pc := xpc, exec := live, entryExec := live },
    as := { present := hasA, pc := if hasA then wordAt r 1 else 0, exec := if hasA then 1 else 0,
            entryExec := if hasA then 1 else 0 } }
  let g := s.group gid
  s.setGroup gid { g with bundles := Tab.put g.bundles idx b, areas := Tab.put g.areas idx area }

/-- The Morton code of a tile (13 R306). -/
def morton : Nat → Nat → Nat → Nat
  | 0, _, _ => 0
  | n + 1, x, y => x % 2 + 2 * (y % 2) + 4 * morton n (x / 2) (y / 2)

/-- The tile of a Morton code. -/
def unmorton : Nat → Nat → Nat × Nat
  | 0, _ => (0, 0)
  | n + 1, c => let p := unmorton n (c / 4); (c % 2 + 2 * p.1, c / 2 % 2 + 2 * p.2)

/-- The tile of rank g among the tiles of the image in Morton order (13 R306). -/
def cameraTile (wi hi g : Nat) : Nat × Nat :=
  let tw := divUp wi 8
  let th := divUp hi 8
  let side := 2 ^ (max tw th).log2 * 2
  let inside := (List.range (side * side)).filter fun c =>
    decide ((unmorton 14 c).1 < tw) && decide ((unmorton 14 c).2 < th)
  unmorton 14 (inside.getD g 0)

/-- The records a group of a launch receives: under CAMERA words 2 and 3 name its tile (05 R146, 13 R306). -/
def groupRecords (r : List Word) (recs : List (List Word)) (group : Nat) : List (List Word) :=
  if nCamera r then
    recs.map fun rc =>
      let t := cameraTile (wordAt rc 0).toNat (wordAt rc 1).toNat group
      (rc.set 2 (BitVec.ofNat 32 (8 * t.1))).set 3 (BitVec.ofNat 32 (8 * t.2))
  else recs

/-- RECBASE (05 R147). -/
def recBaseOf (r : List Word) : Nat :=
  if 0x100 + nCoal r * nRecw r * 4 ≤ nProscr r then 0x100 else 0

/-- Launch of a serial. -/
def State.launch? (s : State) (serial : Nat) : Option Launch :=
  match s.graph with
  | some g => Tab.find? g.launches serial
  | none => none

/-- The state with a launch replaced. -/
def State.setLaunch (s : State) (serial : Nat) (l : Launch) : State :=
  s.mapGraph fun g => { g with launches := Tab.put g.launches serial l }

/-- Start a group on a core (05 R147 to R149): its records in scratchpad, its bundles at their entries, its start an acquire
at device scope (05 R144) and, for a mailbox's records, at system scope (18 R384). -/
def State.startGroup (s : State) (serial : Nat) (l : Launch) (group core tries : Nat) (sect : Sect) : State :=
  let r := s.nodeRec l.node
  let gid := s.nextGid
  let b := nT r / l.w
  let recs := groupRecords r l.records group
  let base := recBaseOf r
  let scr := Bytes.writeList [] base (recs.flatten.flatMap fun w => leBytes 4 w.toNat)
  let g : Group := {
    st := .prologue, node := l.node, handle := s.handleOf l.node, group := group, serial := serial, core := core, w := l.w,
    nb := b, records := recs, recBase := base, scr := scr, scrSize := nProscr r, sect := sect, relaunches := tries,
    sysIdx := s.dev.sysIdx }
  let s := s.journal 3 l.node (BitVec.ofNat 32 serial) (BitVec.ofNat 32 (group * 512 + core))
  let s := { s with nextGid := gid + 1 }
  let s := s.setGroup gid g
  let s := (List.range b).foldl (fun s i =>
    s.startBundle gid i (onesMask l.w) ((List.range l.w).map fun j => i * l.w + j) (wordAt r 0) []) s
  let n := s.nstat l.node
  let s := s.setNstat l.node { n with groups := satInc 16 n.groups }
  let now := (l.node, Config.dieOf core, s.clock)
  let s := s.mapGraph fun gr =>
    { gr with lastAdm := now :: (gr.lastAdm.filter fun t => !(t.1 = l.node ∧ t.2.1 = Config.dieOf core)) }
  s.acquireLsu core 3

/-- Whether placement of GROUP on a core agrees with the groups of the launch placed before it: one core for groups that
agree from cluster level up, one cluster from die level up, one die from device level up; groups that differ at those levels
stand apart. Groups whose digits of GROUP differ at a system-bound level are placed without regard to each other (04 R106,
05 R139; log 55). -/
def placeOk (r : List Word) (placed : List (Nat × Nat)) (group core : Nat) : Bool :=
  placed.all fun p =>
    nKey r group 6 ≠ nKey r p.1 6 ||
    let same3 := nKey r group 3 = nKey r p.1 3
    let same4 := nKey r group 4 = nKey r p.1 4
    let same5 := nKey r group 5 = nKey r p.1 5
    (same3 == decide (core = p.2)) &&
      (!same4 || decide (Config.clusterOf core = Config.clusterOf p.2)) && (same4 || decide (Config.clusterOf core ≠ Config.clusterOf p.2)) &&
      (!same5 || decide (Config.dieOf core = Config.dieOf p.2)) && (same5 || decide (Config.dieOf core ≠ Config.dieOf p.2))

/-- Whether a core is in service (19 R402). -/
def State.coreIn (s : State) (core : Nat) : Bool := decide (core < Config.cores) && !s.dev.coresOut.contains core

/-- Whether an ACQUIRE is pending on a core (05 R149). -/
def State.acqPending (s : State) (core : Nat) : Bool := (s.groupsOn core).any fun g => g.acqReq.isSome

/-- Whether the requests in force name a class; a graph swap names all (15 R351). -/
def Preempt.names (p : Preempt) (prio : Nat) : Bool := p.swap || p.classes / 2 ^ prio % 2 = 1

/-- Whether a class may be admitted: not named by the requests in force, and no saved group of it waits to be restored that a
request has named (15 R351). -/
def State.classOpen (s : State) (prio : Nat) : Bool :=
  !(s.dev.mode ≠ 0) && decide (0 < s.dev.hulls) && !s.preempt.names prio &&
    !(Tab.vals s.groups).any fun g => g.st = .saved && g.named && decide (nPrio (s.nodeRec g.node) = prio)

/-- Whether a core can take n groups of a node with their prologue allotment (05 R148, R149). -/
def State.coreTakes (s : State) (r : List Word) (w n core : Nat) : Bool :=
  s.coreIn core && !s.acqPending core &&
    ((List.range n).foldl (fun (l : Load) _ => l.add (groupLoad r w (nT r / w) (nProscr r) 8)) (s.coreLoad core)).fits

/-- Whether STAGGER lets a node admit on a die now: the interval since its last admission there has run out (05 R149). -/
def State.staggerOk (s : State) (node die : Nat) : Bool :=
  !nStagger (s.nodeRec node) ||
    (match s.graph with
     | some g => g.lastAdm.all fun t => !(t.1 = node ∧ t.2.1 = die)
     | none => true)

/-- The lowest GROUP of those that are to start again. -/
def lowestAgain : List Again → Option Again
  | [] => none
  | a :: t =>
    match lowestAgain t with
    | some b => if b.group < a.group then some b else some a
    | none => some a

/-- The group of a launch that starts next, the lowest GROUP that is PENDING: of those to start again, all of which stand below
the next GROUP, else that one (05 R149). -/
def Launch.nextUp (l : Launch) : Option Again :=
  match lowestAgain l.again with
  | some a => some a
  | none => if l.next < l.total then some { group := l.next, tries := 0, sect := .notyet, avoid := none } else none

/-- The launch with its next group taken. One that keeps apart from a cluster says nothing of where the others go (07 R191). -/
def Launch.takeNext (l : Launch) (core : Nat) : Launch :=
  match lowestAgain l.again with
  | some a => { l with again := l.again.filter fun b => b.group ≠ a.group,
                       placed := if a.avoid.isSome then l.placed else (a.group, core) :: l.placed }
  | none => { l with next := l.next + 1, placed := (l.next, core) :: l.placed }

/-- Clear a node's kick when none of its launches has a group left to admit (18 R388). -/
def State.unkick (s : State) (n : Nat) : State :=
  match s.graph with
  | some g =>
    if (Tab.vals g.launches).any fun l => l.node = n ∧ l.nextUp.isSome then s
    else { s with dev := { s.dev with kicks := s.dev.kicks.filter (· ≠ n) } }
  | none => s

/-- Whether the next group of a launch can start on a core (05 R149). A relaunched group keeps apart from the cluster it
left and is placed without regard to its old companions (07 R191); a place on a core that is out of service binds no group. -/
def State.canAdmit (s : State) (l : Launch) (core : Nat) : Bool :=
  let r := s.nodeRec l.node
  match l.nextUp with
  | none => false
  | some a =>
    s.classOpen (nPrio r) && s.coreTakes r l.w 1 core && s.staggerOk l.node (Config.dieOf core) &&
      (match a.avoid with
       | some c => decide (Config.clusterOf core ≠ c)
       | none => placeOk r (l.placed.filter fun p => s.coreIn p.2) a.group core)

/-- Start the next group of a launch on a core. -/
def State.admitNext (s : State) (serial : Nat) (l : Launch) (core : Nat) : State :=
  match l.nextUp with
  | none => s
  | some a =>
    let s := s.setLaunch serial (l.takeNext core)
    (s.startGroup serial l a.group core a.tries a.sect).unkick l.node

/-- The member of a list with the most room, the first among equals. -/
def roomiest (f : Nat → Nat) : List Nat → Option Nat
  | [] => none
  | i :: t =>
    match roomiest f t with
    | some j => if f i < f j then some j else some i
    | none => some i

/-- The n members of a list with the most room, each with some; none where there are fewer. -/
def roomy (f : Nat → Nat) : Nat → List Nat → Option (List Nat)
  | 0, _ => some []
  | n + 1, l =>
    match roomiest f l with
    | some i => if f i = 0 then none else (roomy f n (l.erase i)).map (i :: ·)
    | none => none

/-- How many layers fit on places of given capacity, where a layer takes one unit of m different places. -/
def layersOf (m : Nat) (caps : List Nat) : Nat :=
  ((List.range (caps.sum / m)).filter fun k => decide ((k + 1) * m ≤ (caps.map (min (k + 1))).sum)).length

/-- A list cut into pieces of n members. -/
def pieces {α : Type} (n : Nat) (l : List α) : List (List α) :=
  (List.range (l.length / n)).map fun i => (l.drop (n * i)).take n

/-- How many more layers of a cohort each core, cluster and die can take; a layer is the groups with one value of the system-bound
digits (05 R139). -/
structure Rooms where
  cores    : List Nat
  clusters : List Nat
  dies     : List Nat
  deriving DecidableEq, Repr

/-- The room for a node's layers where p tells whether a core can take a number of its groups (04 R106, 05 R139). -/
def roomsOf (r : List Word) (p : Nat → Nat → Bool) : Rooms :=
  let cores := (List.range Config.cores).map fun c => ((List.range 8).filter fun k => p c (nGcore r * (k + 1))).length
  let clusters := (pieces 8 cores).map (layersOf (nProd r (fun d => d = 3)))
  { cores := cores, clusters := clusters, dies := (pieces 16 clusters).map (layersOf (nProd r (fun d => d = 4))) }

/-- The answers of f on the members of a list, if it gives one for each. -/
def allSome {α β : Type} (f : α → Option (List β)) : List α → Option (List β)
  | [] => some []
  | i :: t =>
    match f i, allSome f t with
    | some x, some l => some (x ++ l)
    | _, _ => none

/-- The dies, clusters and cores of one layer, by their ranks at those levels: the places with the most room are taken, so that as many
layers fit as can (04 R106, 05 R139, R156). -/
def Rooms.layer (x : Rooms) (r : List Word) : Option (List Nat × List Nat × List Nat) :=
  let within := fun (n : Nat) (i : Nat) => (List.range n).map (n * i + ·)
  match roomy (fun i => x.dies.getD i 0) (nProd r (fun d => d = 5)) (List.range 4) with
  | none => none
  | some ds =>
    match allSome (fun i => roomy (fun j => x.clusters.getD j 0) (nProd r (fun d => d = 4)) (within 16 i)) ds with
    | none => none
    | some cs =>
      (allSome (fun i => roomy (fun j => x.cores.getD j 0) (nProd r (fun d => d = 3)) (within 8 i)) cs).map (ds, cs, ·)

/-- The room that is left when a layer stands. -/
def Rooms.less (x : Rooms) (l : List Nat × List Nat × List Nat) : Rooms :=
  let less := fun (t m : List Nat) => t.zipIdx.map fun e => if m.contains e.2 then e.1 - 1 else e.1
  { cores := less x.cores l.2.2, clusters := less x.clusters l.2.1, dies := less x.dies l.1 }

/-- The cores of n layers of a cohort, one list for each value of the system-bound digits (04 R106, 05 R139, R156; log 55). -/
def cohortCores (r : List Word) : Nat → Rooms → Option (List (List Nat))
  | 0, _ => some []
  | n + 1, x =>
    match x.layer r with
    | none => none
    | some l => (cohortCores r n (x.less l)).map (l.2.2 :: ·)

/-- The core of GROUP in a cohort's placement. -/
def cohortCore (r : List Word) (ls : List (List Nat)) (group : Nat) : Nat :=
  (ls.getD (nRank r group 6) []).getD
    (nRank r group 3 + nProd r (fun d => d = 3) * (nRank r group 4 + nProd r (fun d => d = 4) * nRank r group 5)) 0

/-- The placement of a cohort, if there is one; p tells whether a core can take a number of its groups. -/
def cohortPlace (r : List Word) (p : Nat → Nat → Bool) : Option (List (List Nat)) :=
  cohortCores r (nProd r (fun d => d = 6)) (roomsOf r p)

/-- Whether a core could hold n groups of a node when it holds nothing else (05 R139). -/
def State.coreHolds (s : State) (r : List Word) (core n : Nat) : Bool := s.coreIn core && decide (n ≤ nCap r)

/-- Start the groups of a cohort launch, each on its core (05 R156). STAGGER spaces launches, not the groups of one cohort
(DESIGN CHOICE, log 55). -/
def State.admitAll (s : State) (serial : Nat) (r : List Word) (ls : List (List Nat)) : Nat → State
  | 0 => s
  | n + 1 =>
    match s.launch? serial with
    | none => s
    | some l => State.admitAll (s.admitNext serial l (cohortCore r ls l.next)) serial r ls n

/-- Discard a launch that no placement can hold any more (05 R156). -/
def State.cohortLost (s : State) (serial : Nat) (l : Launch) : State :=
  let r := s.nodeRec l.node
  let ins := ((List.range Config.cores).filter fun c => s.coreIn c).length
  let s := s.mapGraph fun g => { g with launches := Tab.del g.launches serial }
  (s.postErr [8, s.handleOf l.node, BitVec.ofNat 32 (nGL r), BitVec.ofNat 32 (nCap r * ins)]).unkick l.node

/-- GROUP_ADMISSION: the next group of a launch starts on a core; a cohort starts as a whole or is discarded where no cores
in service could ever hold it (05 R149, R156). Where admission is not possible nothing changes. -/
def State.admission (s : State) (serial core : Nat) : State :=
  match s.launch? serial with
  | none => s
  | some l =>
    let r := s.nodeRec l.node
    if nCohort r ∧ l.again = [] ∧ l.next = 0 then
      if (cohortPlace r (s.coreHolds r)).isNone then s.cohortLost serial l
      else
        let p := fun c n => s.coreTakes r l.w n c && s.staggerOk l.node (Config.dieOf c)
        match (if s.classOpen (nPrio r) then cohortPlace r p else none) with
        | some ls => s.admitAll serial r ls l.total
        | none => s
    else if s.canAdmit l core then s.admitNext serial l core
    else s

/-- Record that a group has passed its section; one that ends while HELD sets ORDERR (13 R328). -/
def State.passSection (s : State) (gid : Nat) : State :=
  let g := s.group gid
  let s := match s.launch? g.serial with
    | some l => if l.passed.contains g.group then s else s.setLaunch g.serial { l with passed := g.group :: l.passed }
    | none => s
  if g.sect = .held then
    let n := s.nstat g.node
    s.setNstat g.node { n with orderr := true }
  else s

/-- Whether every stream of a launch stands at GBAR or has ended (05 R157). -/
def State.gbarComplete (s : State) (serial : Nat) (l : Launch) : Bool :=
  l.nextUp.isNone &&
    s.groups.all fun e =>
      e.2.serial ≠ serial || e.2.st = .exiting ||
        (e.2.bundles.all fun b =>
          (b.2.xs.ended || l.arrived.contains { gid := e.1, bid := b.1, acc := false }) &&
            (!b.2.as.present || b.2.as.ended || l.arrived.contains { gid := e.1, bid := b.1, acc := true })) &&
          e.2.rbins.isEmpty

/-- GBAR_RELEASE: when every stream has arrived the launch's count rises and arrivals start again (05 R157). -/
def State.gbarCheck (s : State) (serial : Nat) : State :=
  match s.launch? serial with
  | none => s
  | some l =>
    if !l.arrived.isEmpty && s.gbarComplete serial l then
      s.setLaunch serial { l with gbarGen := l.gbarGen + 1, arrived := [] }
    else s

/-- One group of a launch has left; the last one takes the launch with it. -/
def State.launchEnd (s : State) (serial : Nat) : State :=
  match s.launch? serial with
  | none => s
  | some l =>
    if l.total ≤ l.ended + 1 then s.mapGraph fun g => { g with launches := Tab.del g.launches serial }
    else (s.setLaunch serial { l with ended := l.ended + 1 }).gbarCheck serial

/-- The ports under which this device's own part of a collective stands in Device.collIn, that its subtree's has gone up, and
the result (log 24). -/
def ownPort : Nat := 32
def sentPort : Nat := 33
def resultPort : Nat := 34

/-- What this device has given to the collectives that a group runs goes with the group (18 R400). -/
def State.dropColls (s : State) (gid : Nat) : State :=
  let mine := fun (t : Nat × CollXfer) => decide (ownPort ≤ t.1) && (s.group gid).ctxs.any fun c =>
    c.2.kind = .coll && decide (t.2.group = bits (wordAt c.2.blk 0) 5 0) && t.2.collid = wordAt c.2.blk 1
  if s.dev.collIn.any mine then { s with dev := { s.dev with collIn := s.dev.collIn.filter fun t => !mine t } } else s

/-- The group an access belongs to that is parked; a peer's belongs to none. -/
def Parker.gid? : Parker → Option Nat
  | .clause w | .fetch w => some w.gid
  | .walk g _ _ | .ctx g _ | .tile g _ | .trace g _ _ | .list g _ _ => some g
  | .peer _ _ => none

/-- Take a group out of the device: its parked accesses, waiter records, collectives and resources go with it. -/
def State.dropGroup (s : State) (gid : Nat) : State :=
  let mine := fun (p : Parker) => p.gid? = some gid
  let s := s.dropColls gid
  let g := s.group gid
  let n := s.nstat g.node
  let s := s.setNstat g.node { n with groups := n.groups - 1 }
  let s := s.mapGraph fun gr => { gr with pool := gr.pool.filter fun p => p.2.1.gid ≠ gid }
  { s with groups := Tab.del s.groups gid, parked := s.parked.filter fun p => !mine p.who }

/-- Kill a group: containment buffer dropped, commands ended, section passage recorded, resources freed (15 R339, 07 R191,
13 R328). -/
def State.killGroup (s : State) (gid : Nat) : State :=
  let serial := (s.group gid).serial
  ((s.passSection gid).dropGroup gid).launchEnd serial

/-- Kill a group and say why to ERRMBOX (15 R339). -/
def State.killReport (s : State) (gid : Nat) (body : List Word) : State := (s.postErr body).killGroup gid

/-- End a group without retirement and start it again from its beginning; its old place binds no group (07 R191, 15 R358). -/
def State.relaunch (s : State) (gid : Nat) (tries : Nat) (avoid : Option Nat) : State :=
  let g := s.group gid
  let s := s.dropGroup gid
  match s.launch? g.serial with
  | none => s
  | some l =>
    (s.setLaunch g.serial { l with
      again := l.again ++ [⟨g.group, tries, g.sect, avoid⟩], arrived := l.arrived.filter fun w => w.gid ≠ gid,
      placed := l.placed.filter fun p => p.1 ≠ g.group }).kick g.node

/-- Poison consumed by a group of a CONTAIN node (07 R191). -/
def State.containPoison (s : State) (gid : Nat) (addr : DWord) : State :=
  let g := s.group gid
  if g.committed ∨ 3 ≤ g.relaunches then
    let n := s.nstat g.node
    (s.setNstat g.node { n with ckill := satInc 16 n.ckill }).killReport gid [3, g.handle, BitVec.ofNat 32 g.group, addr.setWidth 32]
  else s.relaunch gid (g.relaunches + 1) (some g.cluster)

/-- The least common multiple of 1 to 64: every count of live lanes divides it. -/
def occUnit : Nat := (List.range 64).foldl (fun a i => a * (i + 1) / Nat.gcd a (i + 1)) 1

/-- The divergence entry of a group: the mean occupancy of its conditional branches, rounded down once (04 R101). -/
def divEntry (g : Group) : Nat := if g.branches = 0 then 64 else g.occSum / (g.branches * occUnit)

/-- A completion enters the FIFO where it has room (18 R391). -/
def State.pushFifo (s : State) (gid : Nat) : State :=
  let g := s.group gid
  if s.dev.fifo.length < 1024 then
    { s with dev := { s.dev with fifo := s.dev.fifo ++
        [[BitVec.ofNat 32 g.node, BitVec.ofNat 32 g.serial, BitVec.ofNat 32 g.group, BitVec.ofNat 32 gid]] } }
  else s

/-- GROUP_RETIREMENT, steps 1 to 5; the group then stays EXITING (05 R159). -/
def State.retire (s : State) (gid : Nat) : State :=
  let s := s.passSection gid
  let s := s.releaseGroup gid 2
  let g := s.group gid
  let s := s.mapGraph fun gr => { gr with div := Tab.put gr.div g.node ((divEntry g :: Tab.get [] gr.div g.node).take 8) }
  let s := s.setGroup gid { g with st := .exiting, acqReq := none }
  (s.pushFifo gid).gbarCheck g.serial

/-- COMPLETION_ACK: the Hull acknowledges the oldest completion, and the group frees its resources (05 R159, 18 R389,
R391). -/
def State.ackCompletion (s : State) : State :=
  match s.dev.fifo with
  | [] => s
  | e :: t =>
    if s.dev.hulls = 0 then s else
      let gid := (wordAt e 3).toNat
      let serial := (wordAt e 1).toNat
      let s := s.journal 4 (wordAt e 0).toNat (wordAt e 1) (wordAt e 2 * 512)
      let s := { s with dev := { s.dev with fifo := t } }
      let s := (s.dropGroup gid).launchEnd serial
      match List.find? (fun (g : Nat × Group) => g.2.st = .exiting && !s.dev.fifo.any fun f => (wordAt f 3).toNat = g.1)
          s.groups with
      | some g => s.pushFifo g.1
      | none => s

/-- Whether a bundle has ended (05 R159, 11 R251). -/
def Bundle.done (b : Bundle) : Bool := b.xs.ended && (!b.as.present || b.as.ended)

/-- BUNDLE_END: a bundle whose streams have ended leaves its index free; the group retires with its last one (05 R159). -/
def State.bundleEnd (s : State) (gid bid : Nat) : State :=
  let g := s.group gid
  let b := g.bundle bid
  if b.started ∧ b.done then
    let s := s.setGroup gid { g with bundles := Tab.del g.bundles bid, srLeft := Tab.put g.srLeft bid b.sr }
    let g := s.group gid
    if g.bundles.isEmpty ∧ g.rbins.isEmpty then s.retire gid else s.gbarCheck g.serial
  else s

/-- The tag of a carried register over its filled lanes, the value in lanes above being zero (04 R131). -/
def retag (w : Nat) (vs : List Word) : Val :=
  let v0 := wordAt vs 0
  let st := wordAt vs 1 - v0
  if vs.all (· = v0) then .u v0
  else if (List.range vs.length).all fun i => wordAt vs i = v0 + BitVec.ofNat 32 i * st then .a v0 st
  else .g ((List.range w).map fun i => wordAt vs i)

/-- Whether some bundle of a group can issue: one that was ready when the scheduler last looked (04 R130, 05 R152). -/
def Group.canIssue (g : Group) : Bool := g.bundles.any fun b => b.2.started && b.2.isReady

/-- The clock since which a bin's oldest strand stands in it. -/
def binSince (b : Word × List Strand) : Nat := b.2.foldl (fun a t => min a t.since) (b.2.headD ⟨0, [], 0⟩).since

/-- Whether a bin may be drawn: W strands, an age above REFORMAGE, no bundle of the group that can issue, or a save
(04 R130, 15 R353). -/
def binReady (g : Group) (b : Word × List Strand) : Bool :=
  decide (g.w ≤ b.2.length) || g.aged.contains b.1 || !g.canIssue ||
    g.saving.isSome

/-- The bin to draw first among those that qualify: the oldest strand, then the lower key (04 R130). -/
def firstBin (bs : List (Word × List Strand)) : Option (Word × List Strand) :=
  bs.foldl (fun o b => match o with
    | none => some b
    | some c => if binSince b < binSince c ∨ (binSince b = binSince c ∧ b.1.toNat < c.1.toNat) then some b else some c) none

/-- Strands in ascending original index. -/
def sortStrands : List Strand → List Strand
  | [] => []
  | t :: ts =>
    let r := sortStrands ts
    (r.filter fun u => u.orig < t.orig) ++ [t] ++ (r.filter fun u => !(u.orig < t.orig))

/-- FRESH_BUNDLE_DRAW: a fresh bundle from the first bin that qualifies, at the lowest free index. Its carried registers all stand
in place, also those of tag G beyond the budget, until an instruction needs a slot (04 R130, R131; DESIGN CHOICE, log 61). -/
def State.drawFresh (s : State) (gid : Nat) : State :=
  let g := s.group gid
  match firstBin (g.rbins.filter fun b => binReady g b),
        (List.range g.nb).find? fun i => (Tab.find? g.bundles i).isNone with
  | some bin, some idx =>
    let all := sortStrands bin.2
    let take := all.take g.w
    let rest := all.drop g.w
    let n := take.length
    let c := nCarry (s.nodeRec g.node)
    let v : Tab VReg := (List.range c).map fun j => (j, VReg.val (retag g.w (take.map fun t => wordAt t.regs j)))
    let left := (g.rbins.filter fun b => b.1 ≠ bin.1) ++ (if rest.isEmpty then [] else [(bin.1, rest)])
    let s := s.setGroup gid { g with rbins := left, aged := g.aged.filter fun k => k ≠ bin.1 }
    s.startBundle gid idx (onesMask n) (take.map (·.orig)) bin.1 v
  | _, _ => s

/-- Groups a context reset kills: resident and saved ones, and those of formed launches not yet admitted (15 R355). -/
def State.pendingGroups (s : State) : Nat :=
  match s.graph with
  | some g => (Tab.vals g.launches).foldl (fun a l => a + (l.total - l.next) + l.again.length) 0
  | none => 0

/-- CONTEXT_RESET: every group killed, contexts closed with them, waiter records and bins emptied, and a RESET record
(15 R355). -/
def State.contextReset (s : State) (handle group : Word) : State :=
  let live := s.groups.filter fun e => e.2.st ≠ .exiting
  let count := live.length + s.pendingGroups
  let s := (Tab.keys live).foldl (fun s g => (s.passSection g).dropGroup g) s
  let keep := fun (l : Nat × Launch) => s.groups.any fun e => e.2.serial = l.1
  let s := s.mapGraph fun g => { g with bins := [], pool := [], launches := g.launches.filter keep }
  let s := s.mapGraph fun g => { g with launches := g.launches.map fun l => (l.1, { l.2 with next := l.2.total, again := [] }) }
  let s := { s with parked := s.parked.filter (fun p => p.who.gid?.isNone), hangCtr := 0, dev := { s.dev with kicks := [] } }
  s.postStatus 1 (BitVec.ofNat 32 count) handle group

end Sys2Proof.Machine
end

