-- ==== Sys2Proof/Machine/Spill.lean ====
section
/-!
DEFINITION. The spill area of a bundle: slot addresses, slot formats, the value of a v register wherever it stands, and the
automatic spills and refills of R116 (04 R111 to R117, 07 R167 to R172).
-/
namespace Sys2Proof.Machine

/-- The lanes of a value at width w (04 R111). -/
def Val.lanes (w : Nat) : Val → List Word
  | .u x => List.replicate w x
  | .a b st => (List.range w).map fun i => b + BitVec.ofNat 32 i * st
  | .g l => (List.range w).map fun i => wordAt l i

/-- The value of one lane. -/
def Val.lane (v : Val) (i : Nat) : Word :=
  match v with
  | .u x => x
  | .a b st => b + BitVec.ofNat 32 i * st
  | .g l => wordAt l i

/-- Whether a value has tag U. -/
def Val.isU : Val → Bool
  | .u _ => true
  | _ => false

/-- Whether a value has tag G. -/
def Val.isG : Val → Bool
  | .g _ => true
  | _ => false

/-- The code of a tag (04 R111). -/
def Val.tag : Val → Nat
  | .u _ => 0
  | .a _ _ => 1
  | .g _ => 2

/-- Whether a difference, taken as i32, fits in n bits. -/
def diffFits (n : Nat) (d : Word) : Bool := decide (-(2 : Int) ^ (n - 1) ≤ d.toInt) && decide (d.toInt < 2 ^ (n - 1))

/-- The format and bytes a value takes in a slot (07 R169). -/
def slotBytes (w : Nat) (v : Val) : Nat × List Byte :=
  match v with
  | .u x => (3, leBytes 4 x.toNat)
  | .a b st => (4, leBytes 4 b.toNat ++ leBytes 4 st.toNat)
  | .g _ =>
    let l := v.lanes w
    let x0 := wordAt l 0
    let ds := l.tail.map (· - x0)
    if ds.all (diffFits 8) then (1, leBytes 4 x0.toNat ++ ds.flatMap fun d => leBytes 1 (d.toNat % 256))
    else if ds.all (diffFits 16) then (2, leBytes 4 x0.toNat ++ ds.flatMap fun d => leBytes 2 (d.toNat % 65536))
    else (0, l.flatMap fun x => leBytes 4 x.toNat)

/-- Bytes of a slot a format uses (07 R169). -/
def slotLen (w fmt : Nat) : Nat :=
  if fmt = 0 then 4 * w else if fmt = 1 then 4 + (w - 1) else if fmt = 2 then 4 + 2 * (w - 1) else if fmt = 3 then 4 else 8

/-- Where lane i stands in a slot of a format, from byte o, n bytes: lane 0 of a difference format stands in every byte (07 R169). -/
def slotLane (w fmt i : Nat) : Nat × Nat :=
  if fmt = 0 then (4 * i, 4)
  else if i = 0 ∨ 2 < fmt then (0, slotLen w fmt)
  else if fmt = 1 then (3 + i, 1) else (2 + 2 * i, 2)

/-- The word at a byte offset of a slot. -/
def slotWord (bs : List Byte) (o n : Nat) : Nat := leNat ((bs.drop o).take n)

/-- The value a slot holds in a format; none for a reserved format (07 R169). -/
def slotVal (w fmt : Nat) (bs : List Byte) : Option Val :=
  let x0 : Word := BitVec.ofNat 32 (slotWord bs 0 4)
  if fmt = 0 then some (.g ((List.range w).map fun i => BitVec.ofNat 32 (slotWord bs (4 * i) 4)))
  else if fmt = 1 then
    some (.g ((List.range w).map fun i => if i = 0 then x0 else x0 + (BitVec.ofNat 8 (slotWord bs (3 + i) 1)).signExtend 32))
  else if fmt = 2 then
    some (.g ((List.range w).map fun i => if i = 0 then x0 else x0 + (BitVec.ofNat 16 (slotWord bs (2 + 2 * i) 2)).signExtend 32))
  else if fmt = 3 then some (.u x0)
  else if fmt = 4 then some (.a x0 (BitVec.ofNat 32 (slotWord bs 4 4)))
  else none

/-- Where spill work stops: a trap, or a page that is not present. -/
inductive SpErr where
  | trap (t : Trap)
  | miss (va : DWord) (acc : AccBits)
  deriving DecidableEq, Repr

/-- An access to n bytes of the spill area at an offset, as the bundle's own (07 R170). -/
def State.areaAcc (s : State) (b : Bundle) (off : Nat) (acc : AccBits) : Except SpErr Xlat :=
  let va : DWord := BitVec.ofNat 64 (b.spillBase.toNat * 65536 + off)
  match s.globAcc s.party va acc [0] with
  | .ok (.mem x) => .ok x
  | .ok (.scr _) => .error (.trap { cause := cPROT, addr := va })
  | .bad c => .error (.trap { cause := c, addr := va })
  | .miss => .error (.miss va acc)

/-- Bytes of the area as the LSU path sees them: those that the containment buffer holds, else those of memory (07 R188, 08 R199). -/
def State.areaBytes (s : State) (x : Xlat) (n : Nat) : List Byte :=
  (List.range n).map fun i => (s.grp.bufByte (x.key + i)).getD
    (if x.ord = 0 then s.viewByte s.grp.core (x.key + i) else s.homeByte (x.key + i))

/-- Whether the LSU path finds poison in bytes of the area that the containment buffer does not hold (07 R188, 15 R350). -/
def State.areaPoison (s : State) (x : Xlat) (n : Nat) : Bool :=
  (List.range n).any fun i => (s.grp.bufByte (x.key + i)).isNone && s.viewPoison s.grp.core (x.key + i) 1 (x.ord ≠ 0)

/-- The POISON trap of bytes of the area (15 R341, R350). -/
def areaTrap (b : Bundle) (off : Nat) : SpErr :=
  .trap { cause := cPOISON, addr := BitVec.ofNat 64 (b.spillBase.toNat * 65536 + off) }

/-- Reads of the current bundle's area at some offsets, of a format byte, the header's two words or a slot, leave their marks in the
tables and take the host's copies back (07 R177, 18 R394). -/
def State.touchArea (s : State) (offs : List Nat) : State :=
  offs.foldl (fun s off => match s.areaAcc s.bun off 1 with
    | .ok x => (s.touch (Config.clusterOf s.grp.core) x 1).backInv x.key (if off < 0x140 then 1 else if off < 0x200 then 8 else 4 * s.grp.w)
    | .error _ => s) s

/-- Write bytes of the area on the LSU path. -/
def State.areaWrite (s : State) (x : Xlat) (bs : List Byte) : State :=
  let core := s.grp.core
  let s := (s.touch (Config.clusterOf core) x 2).unbuffer s.cur.gid x.key bs.length
  if x.ord = 0 then s.storeL1 core x.key bs else (s.flush core x.key bs.length).homeWrite x.key bs

/-- ESLOTS and AUTOCAP as the area's header holds them; poison in them is consumed (07 R168, 15 R350). -/
def State.areaHeader (s : State) (b : Bundle) : Except SpErr (Nat × Nat) :=
  match s.areaAcc b 0x140 1 with
  | .error e => .error e
  | .ok x =>
    let bs := s.areaBytes x 8
    if s.areaPoison x 8 then .error (areaTrap b 0x140)
    else .ok (min 128 (slotWord bs 0 4), min 96 (slotWord bs 4 4))

/-- Offset of automatic slot j (07 R168). -/
def autoOff (w eslots j : Nat) : Nat := 0x200 + eslots * 4 * w + j * 4 * w

/-- The number under which automatic slot j stands in the forwarding table. -/
def autoSlot (j : Nat) : Nat := 128 + j

/-- The newest entry of the forwarding table for a slot (07 R171). -/
def Bundle.fwd? (b : Bundle) (slot : Nat) : Option Fwd := b.fwd.find? fun e => e.slot = slot

/-- The value automatic slot j holds: the forwarding table's newest entry for it, else what stands in the area; poison in the value or its
format is consumed (07 R168, R169, R171, 15 R350). -/
def State.readAuto (s : State) (b : Bundle) (j : Nat) : Except SpErr Val :=
  match b.fwd? (autoSlot j), s.areaHeader b, s.areaAcc b (0x80 + j) 1 with
  | some e, .ok (es, _), _ => if e.bad.isEmpty then .ok e.val else .error (areaTrap b (autoOff s.grp.w es j))
  | some e, .error t, _ => if e.bad.isEmpty then .ok e.val else .error t
  | none, .error e, _ => .error e
  | none, _, .error e => .error e
  | none, .ok (es, _), .ok fx =>
    let fmt := slotWord (s.areaBytes fx 1) 0 1
    let w := s.grp.w
    match s.areaAcc b (autoOff w es j) 1 with
    | .error e => .error e
    | .ok x =>
      if s.areaPoison fx 1 || s.areaPoison x (slotLen w fmt) then .error (areaTrap b (autoOff w es j))
      else
        match slotVal w fmt (s.areaBytes x (slotLen w fmt)) with
        | some v => .ok v
        | none => .error (.trap { cause := cPOISON, info := 0x01000000, addr := BitVec.ofNat 64 (b.spillBase.toNat * 65536 + autoOff w es j) })

/-- What v register r holds. -/
def Bundle.vreg (b : Bundle) (r : Nat) : VReg := Tab.get (.val (.u 0)) b.v r

/-- The value of v register r of the current bundle, read from its automatic slot where it stands there. -/
def State.readV (s : State) (r : Nat) : Val :=
  match s.bun.vreg r with
  | .val x => x
  | .spilled j =>
    match s.readAuto s.bun j with
    | .ok v => .g (v.lanes s.grp.w)
    | .error _ => .u 0

/-- Replace what v register r holds. -/
def State.setV (s : State) (r : Nat) (x : VReg) : State :=
  let b := s.bun
  s.setBun { b with v := Tab.put b.v r x }

/-- The tag code of a v register as the shape readout gives it (04 R118). -/
def VReg.code : VReg → Nat
  | .val x => x.tag
  | .spilled _ => 3

/-- Whether a v register is resident G (04 R115). -/
def VReg.resident : VReg → Bool
  | .val x => x.isG
  | .spilled _ => false

/-- Resident G registers of a bundle. -/
def Bundle.residents (b : Bundle) : List Nat := (b.v.filter fun e => e.2.resident).map (·.1)

/-- Automatic slots of a bundle in use. -/
def Bundle.autoSlots (b : Bundle) : List Nat :=
  b.v.filterMap fun e => match e.2 with
    | .spilled j => some j
    | .val _ => none

/-- The marks that reading an automatic slot leaves in the tables (07 R177). -/
def State.touchAuto (s : State) (j : Nat) : State :=
  match s.bun.fwd? (autoSlot j), s.areaHeader s.bun with
  | none, .ok (es, _) => s.touchArea [0x140, 0x80 + j, autoOff s.grp.w es j]
  | _, _ => s

/-- A SPILL or an automatic spill takes an entry of the current bundle's forwarding table (07 R171). -/
def State.pushFwd (s : State) (slot : Nat) (v : Val) (data : List (Xlat × List Byte)) (bad : List (Nat × Nat) := []) : State :=
  let e : Fwd := { slot := slot, val := v, data := data.map fun d => (d.1.key, decide (d.1.ord = 0), d.2),
                   clause := s.str.clause.id, bad := bad }
  s.setBun { s.bun with fwd := e :: s.bun.fwd }

/-- The poisoned lanes of v register r of a bundle. -/
def Bundle.badLanes (b : Bundle) (r : Nat) : List Nat := (b.poison.filter fun e => e.1 = r).map (·.2)

/-- Write victim r to the lowest free automatic slot (04 R116, 07 R168, R169); inr where the area has none. The write waits in
the forwarding table, from which the oldest entry goes to memory where all are taken (07 R171). Poisoned lanes stay poisoned there (15
R350). -/
def State.autoSpill (s : State) (r : Nat) : Except (SpErr ⊕ Unit) State :=
  let b := s.bun
  match s.areaHeader b with
  | .error e => .error (.inl e)
  | .ok (es, cap) =>
    match (List.range cap).find? fun j => !b.autoSlots.contains j with
    | none => .error (.inr ())
    | some j =>
      let w := s.grp.w
      let (fmt, bs) := slotBytes w (s.readV r)
      match s.areaAcc b (autoOff w es j) 2, s.areaAcc b (0x80 + j) 2, s.areaAcc b (0xE0 + j) 2 with
      | .ok dx, .ok fx, .ok ox =>
        let v := s.readV r
        let cl := Config.clusterOf s.grp.core
        let s := if 16 ≤ b.fwd.length then s.drainFwd s.cur.gid s.cur.bid 1 else s
        let s := (((s.touchArea [0x140]).touch cl dx 2).touch cl fx 2).touch cl ox 2
        let bad := (b.badLanes r).map fun i => (dx.key + (slotLane w fmt i).1, (slotLane w fmt i).2)
        let s := (s.pushFwd (autoSlot j) v [(dx, bs), (fx, leBytes 1 fmt), (ox, leBytes 1 r)] bad).setV r (.spilled j)
        .ok (if bad.isEmpty then s else s.setBun { s.bun with poison := s.bun.poison.filter fun e => e.1 ≠ r })
      | .error e, _, _ => .error (.inl e)
      | _, .error e, _ => .error (.inl e)
      | _, _, .error e => .error (.inl e)

/-- An automatic slot becomes free: its owner byte reads 0xFF, after the write of a spill that still stands in the forwarding
table (07 R168, R171). Where its page is gone nothing is written. -/
def State.freeAuto (s : State) (j : Nat) : State :=
  let s := if (s.bun.fwd? (autoSlot j)).isSome then s.drainFwd s.cur.gid s.cur.bid s.bun.fwd.length else s
  match s.areaAcc s.bun (0xE0 + j) 2 with
  | .ok x => s.areaWrite x [0xFF]
  | .error _ => s

/-- Free the automatic slots that v registers of the old table held and the new one does not. -/
def State.freeSlots (s : State) (old : Bundle) : State :=
  (old.autoSlots.filter fun j => !s.bun.autoSlots.contains j).foldl State.freeAuto s

end Sys2Proof.Machine
end

