-- ==== Sys2Proof/Machine/Operands.lean ====
section
/-!
DEFINITION. Operands: what each instruction names and what a designator may name there (01 R21 to R26, 02 R56, 11 R250, R257
and the operand rules of each class), reading and writing registers and queues with their shapes (04 R111 to R114, 11 R249,
R252 to R256), the last-result file (02 R51), and pending marks (01 R15, R16).
-/
namespace Sys2Proof.Machine

/-- One register operand: designator, words, alignment, whether o, l and q designators are admitted beside v, and whether it
must be uniform. -/
structure Use where
  des : Nat
  n   : Nat
  al  : Nat
  o   : Bool := true
  l   : Bool := true
  q   : Bool := true
  uni : Bool := false
  deriving DecidableEq, Repr

/-- What an instruction names: registers it reads and writes, k registers it reads and writes, 7-bit fields that name a k
register, and fields that must name a queue. -/
structure Uses where
  rs   : List Use := []
  ws   : List Use := []
  kr   : List Nat := []
  kw   : List Nat := []
  kdes : List Nat := []
  qdes : List Nat := []
  deriving DecidableEq, Repr

/-- A source of n words. -/
def src (d : BitVec 7) (n : Nat) : Use := { des := d.toNat, n := n, al := n }

/-- A destination of n words. -/
def dst (d : BitVec 7) (n : Nat) : Use := { des := d.toNat, n := n, al := n }

/-- A source that must be v registers (x in the A-stream). -/
def vsrc (d : BitVec 7) (n : Nat) : Use := { des := d.toNat, n := n, al := n, o := false, l := false, q := false }

/-- A destination that must be v registers. -/
def vdst (d : BitVec 7) (n : Nat) : Use := { des := d.toNat, n := n, al := n, o := false, l := false, q := false }

/-- A source that must be uniform v registers. -/
def vuni (d : BitVec 7) (n : Nat) : Use := { vsrc d n with uni := true }

/-- d, a, b of one width. -/
def op3 (d a b : BitVec 7) (n : Nat) : Uses := { rs := [src a n, src b n], ws := [dst d n] }

/-- d, a, b where d is read too and may not be a queue (02 R56, 03 R83). -/
def op3r (d a b : BitVec 7) (n : Nat) : Uses :=
  { rs := [src a n, src b n, { src d n with q := false }], ws := [{ dst d n with q := false }] }

/-- d, a of one width. -/
def op2 (d a : BitVec 7) (n : Nat) : Uses := { rs := [src a n], ws := [dst d n] }

/-- The k register a designator names in its low four bits (01 R26). -/
def kNum (d : BitVec 7) : Nat := d.toNat % 16

/-- A compare into a k register; the and-into and or-into modes read it as well (02 R52). -/
def cmpK (d a b : BitVec 7) (m : BitVec 2) (n : Nat) : Uses :=
  { rs := [src a n, src b n], kr := if m = 0#2 then [] else [kNum d], kw := [kNum d], kdes := [d.toNat] }

/-- Words of an operand of a floating-point type: f64 names pairs (01 R37). -/
def typeWords (m : BitVec 2) : Nat := if m = 3#2 then 2 else 1

/-- Words of a CVT type: i64, n64 and f64 name pairs (01 R30, 03 R89). -/
def cvtWords (t : BitVec 4) : Nat := if t = 6#4 ∨ t = 7#4 ∨ t = 11#4 then 2 else 1

/-- A source that must be uniform: a v register with tag U, or queue entries with it. -/
def quni (d : BitVec 7) (n : Nat) : Use := { vuni d n with q := true }

/-- What an instruction names. The operands of WAKE and WAITP must be uniform, and may be entries of a queue with tag U (07 R186, R187,
11 R253; log 63). -/
def usesOf (i : Instr) : Uses :=
  match i with
  | .iadd _ _ d a b | .isub _ _ d a b | .imul _ d a b | .imulh _ _ d a b | .imin _ _ d a b | .imax _ _ d a b
  | .and _ d a b | .or _ d a b | .xor _ d a b | .andn _ d a b | .shl _ d a b | .shr _ d a b | .sar _ d a b
  | .rotl _ d a b | .bfx _ _ d a b | .shflIdx _ d a b | .shflXor _ d a b | .shflUp _ d a b | .shflDn _ d a b => op3 d a b 1
  | .imac _ d a b | .bfi _ d a b => op3r d a b 1
  | .iadd64 _ d a b | .isub64 _ d a b => op3 d a b 2
  | .popc _ d a | .clz _ d a | .brev _ d a | .mov _ d a | .fclass _ d a | .shapeof _ d a | .shapegen _ d a
  | .iaddi d a _ | .andi d a _ | .ori d a _ | .xori d a _ | .shli d a _ | .shri d a _ | .sari d a _
  | .imuli d a _ => op2 d a 1
  | .sel _ k d a b => { op3 d a b 1 with kr := [k.toNat] }
  | .fadd _ m d a b | .fsub _ m d a b | .fmul _ m d a b | .fmin _ m d a b | .fmax _ m d a b => op3 d a b (typeWords m)
  | .ffma _ m d a b | .ffms _ m d a b | .fnma _ m d a b => op3r d a b (typeWords m)
  | .icmpEq _ m d a b | .icmpNe _ m d a b | .icmpLt _ m d a b | .icmpLe _ m d a b | .icmpLtn _ m d a b
  | .icmpLen _ m d a b | .fcmpEq _ m d a b | .fcmpNe _ m d a b | .fcmpLt _ m d a b | .fcmpLe _ m d a b
  | .fcmpUn _ m d a b => cmpK d a b m 1
  | .dcmpLt _ m d a b | .dcmpEq _ m d a b => cmpK d a b m 2
  | .fabs _ m d a | .fneg _ m d a => op2 d a (typeWords m)
  | .ballot _ d a | .icmpiEq d a _ | .icmpiLt d a _ | .icmpiLtn d a _ => { rs := [src a 1], kw := [kNum d], kdes := [d.toNat] }
  | .redadd _ m d a b => { rs := [src a (if m = 3#2 then 2 else 1), { src b (if m = 3#2 then 2 else 1) with uni := true }], ws := [dst d (if m = 3#2 then 2 else 1)] }
  | .redmm _ _ d a b | .scan _ _ d a b | .readlane _ d a b => { rs := [src a 1, { src b 1 with uni := true }], ws := [dst d 1] }
  | .movk _ d a => { ws := [dst d 1], kr := [kNum a], kdes := [a.toNat] }
  | .mov64 _ d a | .iaddi64 d a _ => op2 d a 2
  | .gets d _ | .ldiLo d _ | .ldiS d _ | .ldif d _ => { ws := [dst d 1] }
  | .sets a _ => { rs := [{ src a 1 with uni := true }] }
  | .affine d a _ => { rs := [{ src a 1 with uni := true }], ws := [dst d 1] }
  | .ldiHi d _ => { rs := [{ src d 1 with q := false }], ws := [{ dst d 1 with q := false }] }
  | .cvt d a t s _ => { rs := [src a (cvtWords s)], ws := [dst d (cvtWords t)] }
  | .kopAnd d a b | .kopOr d a b | .kopXor d a b | .kopAndn d a b => { kr := [a.toNat, b.toNat], kw := [d.toNat] }
  | .kopNot d a | .kopMov d a => { kr := [a.toNat], kw := [d.toNat] }
  | .kopSetall d | .kopClear d | .kexecSave d => { kw := [d.toNat] }
  | .kexecSet a | .kexecAnd a | .kexecAndn a | .kexecOr a => { kr := [a.toNat] }
  | .bra _ | .call _ | .barInit _ _ | .barArrive _ | .barWait _ | .barSync _ | .trap _ | .fenceAcq _
  | .fenceRel _ | .fenceFull _ | .xfence _ _ _ | .esweep _ | .mzero _ | .tkgive _ | .tktake _ | .sfwait _
  | .sgo _ | .sclose _ | .kexecAll | .ret | .nop | .gbar | .yield | .exit | .acquire | .rte | .rteSkip | .brk
  | .ordenter | .ordexit | .fenceLocal | .commit => {}
  | .brany k _ | .brall k _ | .brnone k _ | .reform k _ => { kr := [k.toNat] }
  | .jmpr a => { rs := [{ src a 2 with uni := true }] }
  | .ldN8 _ d a _ | .ldI8 _ d a _ | .ldN16 _ d a _ | .ldI16 _ d a _ | .ld32 _ d a _ => { rs := [src a 2], ws := [dst d 1] }
  | .ld64 _ d a _ => { rs := [src a 2], ws := [dst d 2] }
  | .ld128 _ d a _ => { rs := [src a 2], ws := [dst d 4] }
  | .st8 _ d a _ | .st16 _ d a _ | .st32 _ d a _ | .xadd d a _ => { rs := [src d 1, src a 2] }
  | .st64 _ d a _ => { rs := [src d 2, src a 2] }
  | .st128 _ d a _ => { rs := [src d 4, src a 2] }
  | .ldp32 d a _ => { rs := [vsrc a 1], ws := [dst d 1] }
  | .ldp128 d a _ => { rs := [vsrc a 1], ws := [dst d 4] }
  | .stp32 d a _ => { rs := [src d 1, vsrc a 1] }
  | .stp128 d a _ => { rs := [src d 4, vsrc a 1] }
  | .atomAddI32 _ _ d a b | .atomMinI32 _ _ d a b | .atomMaxI32 _ _ d a b | .atomMinN32 _ _ d a b
  | .atomMaxN32 _ _ d a b | .atomAnd _ _ d a b | .atomOr _ _ d a b | .atomXor _ _ d a b | .atomXchg _ _ d a b => { rs := [src a 2, src b 1], ws := [vdst d 1] }
  | .atomAddI64 _ _ d a b | .atomXchg64 _ _ d a b => { rs := [src a 2, src b 2], ws := [vdst d 2] }
  | .atomCas _ _ d a b => { rs := [src a 2, src b 2], ws := [vdst d 1] }
  | .spill _ r => { rs := [vsrc r 1] }
  | .fill r _ => { ws := [vdst r 1] }
  | .waita e a => { rs := [vuni e 1, vuni a 2] }
  | .wake n a => { rs := [quni n 1, quni a 2] }
  | .waitp e a _ => { rs := [quni e 1, quni a 1] }
  | .esample p i _ => { rs := [src p 2, src i 1] }
  | .eload q i _ => { rs := [src i 1], ws := [dst q 4] }
  | .edecay t _ => { rs := [vuni t 1] }
  | .eregion a _ | .tidset a _ | .camset a | .bvhset a _ | .mltset a _ => { rs := [vuni a 2] }
  | .prefetch a => { rs := [src a 2] }
  | .mma a | .mdrain a | .sopen a _ | .copy a _ | .sort a _ | .bin a _ | .coll a _ => { rs := [vuni a 1] }
  | .accrd d r _ _ => { rs := [vuni r 1], ws := [{ dst d 1 with l := false }] }
  | .accwr s r _ _ => { rs := [src s 1, vuni r 1] }
  | .mstat d | .sstat d _ | .qstat d _ => { ws := [vdst d 1] }
  | .sfi _ d a _ => { rs := [src a 1], ws := [{ dst d 1 with q := false, l := false }] }
  | .sfpoll k _ => { kw := [k.toNat] }
  | .sslot c _ => { rs := [vuni c 1] }
  | .agdim c s _ => { rs := [vuni c 1, vuni s 1] }
  | .agbase l a => { rs := [vuni l 1, vuni a 2] }
  | .agld q s _ | .agst q s _ => { rs := [vuni s 1], qdes := [q.toNat] }
  | .camgen d a => { rs := [vsrc a 4], ws := [vdst d 8] }
  | .trace d a _ _ => { rs := [vsrc a 8], ws := [{ vdst d 6 with al := 8 }] }
  | .fragins a _ => { rs := [vsrc a 4] }
  | .lpop d p _ => { rs := [vsrc p 1], ws := [vdst d 4], kw := [15] }
  | .lresolve d p _ => { rs := [vsrc p 1], ws := [vdst d 2] }
  | .lclear p _ => { rs := [vsrc p 1] }
  | .emit f h c => { rs := [{ vsrc f (c.toNat + 1) with al := 1 }, vuni h 1] }
  | .cycles d => { ws := [dst d 2] }
  | .clauseIssue .. | .clauseCompletion .. | .sourcesRead .. | .estContributionApply .. | .overlayEviction ..
  | .sfiResult .. | .slotFill .. | .slotDrain .. | .walkPoint .. | .sortPass .. | .binCompletion ..
  | .mmaChunk .. | .mdrainRow .. | .traceCompletion .. | .freshBundleDraw .. | .reformageExpiry ..
  | .starvationPromotion .. | .waitaPoll .. | .acquireGrant .. | .groupAdmission .. | .binTimerExpiry ..
  | .groupSave .. | .groupRestore .. | .replyEntryWrite .. | .record .. | .bind .. | .replycfg .. | .load ..
  | .preempt .. | .withdraw .. | .attest .. | .restart .. | .replayall .. | .fail .. | .fbgetWrite ..
  | .fbstatClear .. | .replygetWrite .. | .rdropClear .. | .stalecntClear .. | .orderrClear ..
  | .lossesClear .. | .dropwrClear .. | .retriesClear .. | .hashDescriptorWrite .. | .registerWrite ..
  | .peerRequest .. | .flitReplay .. | .linkDown .. | .linkUp .. | .hostHdmAccess .. | .collTransfer ..
  | .timingDetectorFire .. | .correctedError .. | .bankMigrationChunk .. | .deviceReset .. | .lineEviction ..
  | .uncorrectableError .. | .hdmDecoderWrite .. | .staggerExpiry | .completionAck | .faultsaveExpiry
  | .deadlineExpiry | .hangDetection | .loadInstall | .tlbInvalidateRange | .tlbInvalidateAll | .hullTakeover
  | .hullFailure | .tlbInvalidationComplete => {}

/-- Whether a designator names a queue (01 R21). -/
def isQ (d : Nat) : Bool := decide (0x70 ≤ d) && decide (d ≤ 0x7F)

/-- The queue a designator names. -/
def qNum (d : Nat) : Nat := d - 0x70

/-- Whether a register operand is legal for a stream: X-stream designators of 01 R21 to R23, A-stream ones of R25; as a
destination l1 never, l0 only in an ALU clause (01 R22). -/
def useOk (acc alu wr : Bool) (u : Use) : Bool :=
  if isQ u.des then u.q
  else if acc then decide (u.des + u.n ≤ 0x20) && u.des % u.al = 0
  else if u.des < 0x60 then u.des % u.al = 0 && decide (u.des + u.n ≤ 0x60)
  else if u.des ≤ 0x67 then u.o && u.n = 1
  else if u.des = 0x68 then u.l && u.n = 1 && (!wr || alu)
  else if u.des = 0x69 then u.l && u.n = 1 && !wr
  else false

/-- Whether every designator of an instruction is legal for a stream (01 R21 to R26). -/
def opndsOk (acc : Bool) (i : Instr) : Bool :=
  let u := usesOf i
  let alu := classOf i = some .alu
  u.rs.all (useOk acc alu false) && u.ws.all (useOk acc alu true) && u.kdes.all (fun d => decide (d < 16)) && u.qdes.all isQ

/-- A queue of the current bundle. -/
def Bundle.queue (b : Bundle) (q : Nat) : Queue := Tab.get {} b.queues q

/-- The bundle with a queue replaced. -/
def Bundle.setQueue (b : Bundle) (q : Nat) (x : Queue) : Bundle := { b with queues := Tab.put b.queues q x }

/-- The entries of a queue a pop may take, oldest first (11 R254). -/
def Queue.avail (q : Queue) : List Val := (q.ents.filter fun e => e.pop.isNone).map (·.val)

/-- Places of a queue that are neither visible nor held (11 R255). -/
def Queue.room (q : Queue) : Nat := 4 - (q.ents.length + q.heldX.length + q.heldA.length)

/-- Held pops of a stream. -/
def Queue.heldPops (q : Queue) (acc : Bool) : Nat := (q.ents.filter fun e => e.pop = some acc).length

/-- Held pushes of a stream. -/
def Queue.heldPushes (q : Queue) (acc : Bool) : Nat := if acc then q.heldA.length else q.heldX.length

/-- Mark the first n entries that may be popped as held by a stream (11 R254). -/
def markPops (acc : Bool) : Nat → List QEnt → List QEnt
  | 0, l => l
  | _, [] => []
  | n + 1, e :: t => if e.pop.isNone then { e with pop := some acc } :: markPops acc n t else e :: markPops acc (n + 1) t

/-- Push a value, held by a stream (11 R254). -/
def Queue.push (q : Queue) (acc : Bool) (v : Val) : Queue :=
  if acc then { q with heldA := q.heldA ++ [v] } else { q with heldX := q.heldX ++ [v] }

/-- The held pushes of a stream as entries, with their poisoned lanes (11 R254, 15 R350). -/
def Queue.pushed (q : Queue) (acc : Bool) (vs : List Val) : List QEnt :=
  (List.range vs.length).map fun j =>
    { val := vs.getD j (.u 0), bad := (q.heldBad.filter fun h => h.1 = acc && h.2.1 = j).map (·.2.2) }

/-- The poisoned lanes of the held pushes that are not a stream's. -/
def Queue.otherBad (q : Queue) (acc : Bool) : List (Bool × Nat × Nat) := q.heldBad.filter fun h => h.1 ≠ acc

/-- HELD_QUEUE_COMMIT: a stream's held pops free their entries and its held pushes become visible (11 R254). -/
def Queue.commit (q : Queue) (acc : Bool) : Queue :=
  let kept := q.ents.filter fun e => e.pop ≠ some acc
  let bad := q.otherBad acc
  if acc then { q with ents := kept ++ q.pushed acc q.heldA, heldA := [], heldBad := bad }
  else { q with ents := kept ++ q.pushed acc q.heldX, heldX := [], heldBad := bad }

/-- A stream's held pops return to their queues and its held pushes are discarded (11 R254). -/
def Queue.rollback (q : Queue) (acc : Bool) : Queue :=
  let ents := q.ents.map fun e => if e.pop = some acc then { e with pop := none } else e
  if acc then { q with ents := ents, heldA := [], heldBad := q.otherBad acc }
  else { q with ents := ents, heldX := [], heldBad := q.otherBad acc }

/-- Word j of an operand: a v, o, l or x register, or entry j of a queue, which the A-stream reads in lane 0 (01 R24, R25,
11 R249, R253). -/
def State.readWord (s : State) (d : Nat) (j : Nat) : Val :=
  if isQ d then
    let v := ((s.bun.queue (qNum d)).avail).getD j (.u 0)
    if s.cur.acc then .u (v.lane 0) else v
  else if s.cur.acc then .u (s.readX (d + j))
  else if d < 0x60 then s.readV (d + j)
  else
    let zeros := List.replicate s.grp.w 0
    if d ≤ 0x67 then .g (Tab.get zeros s.bun.o (d - 0x60))
    else if d = 0x68 then .g ((List.range s.grp.w).map fun i => wordAt s.bun.l0 i)
    else .g ((List.range s.grp.w).map fun i => wordAt s.bun.l1 i)

/-- The first word of an operand. -/
def State.read (s : State) (d : BitVec 7) : Val := s.readWord d.toNat 0

/-- The n words of an operand, lowest first. -/
def State.readN (s : State) (d : BitVec 7) (n : Nat) : List Val := (List.range n).map fun j => s.readWord d.toNat j

/-- Whether EXEC is all ones in the lanes of the stream. -/
def State.fullExec (s : State) : Bool := s.exec0 = onesMask s.lanes

/-- The partial-write rule: the result under full EXEC, the old value under empty EXEC, lane by lane otherwise, and then
general (04 R114). -/
def mergeVal (exec : DWord) (w : Nat) (old new : Val) : Val :=
  if exec = onesMask w then new
  else if exec = 0 then old
  else .g ((List.range w).map fun i => if exec.getLsbD i then new.lane i else old.lane i)

/-- The entry a result makes in a queue: zero in lanes where EXEC is clear, with tag G unless EXEC is all ones, and U zero where it is
empty; from the A-stream U in all lanes (11 R253). -/
def State.pushVal (s : State) (v : Val) : Val :=
  if s.cur.acc then .u (v.lane 0)
  else if s.fullExec then v
  else if s.exec0 = 0 then .u 0
  else .g ((List.range s.grp.w).map fun i => if s.exec0.getLsbD i then v.lane i else 0)

/-- Write a v register in the lanes of EXEC (04 R114). -/
def State.writeV (s : State) (r : Nat) (v : Val) : State :=
  if s.exec0 = 0 then s else
    let x := mergeVal s.exec0 s.grp.w (s.readV r) v
    let b := s.bun
    s.setBun { b with v := Tab.put b.v r (.val x), poison := clearRegPoison b.poison r s.exec0 }

/-- Write an o register in the lanes of EXEC (02 R50). -/
def State.writeO (s : State) (r : Nat) (v : Val) : State :=
  let b := s.bun
  let old := Tab.get (List.replicate s.grp.w 0) b.o r
  let new := (List.range s.grp.w).map fun i => if s.exec0.getLsbD i then v.lane i else wordAt old i
  s.setBun { b with o := Tab.put b.o r new, poison := clearRegPoison b.poison (0x60 + r) s.exec0 }

/-- Push one entry into a queue, held by the stream. -/
def State.pushQ (s : State) (q : Nat) (v : Val) : State :=
  let b := s.bun
  s.setBun (b.setQueue q ((b.queue q).push s.cur.acc v))

/-- Write word j of a destination (01 R21, R24, R25; 04 R114; 11 R249, R253). A destination l0 takes its value from the
last-result file's own entry (02 R51). -/
def State.writeWord (s : State) (d j : Nat) (v : Val) : State :=
  if isQ d then s.pushQ (qNum d) (s.pushVal v)
  else if s.cur.acc then (if s.exec0.getLsbD 0 then s.writeX (d + j) (v.lane 0) else s)
  else if d < 0x60 then s.writeV (d + j) v
  else if d ≤ 0x67 then s.writeO (d - 0x60) v
  else s

/-- Write the first word of a destination. -/
def State.write (s : State) (d : BitVec 7) (v : Val) : State := s.writeWord d.toNat 0 v

/-- Write the words of a destination, lowest first. -/
def State.writeN (s : State) (d : BitVec 7) (vs : List Val) : State :=
  (List.range vs.length).foldl (fun s j => s.writeWord d.toNat j (vs.getD j (.u 0))) s

/-- The poison of registers after a result that is none has entered the last-result file in the lanes of a mask: that of l0 goes with
its value to l1 (02 R51, 15 R350). -/
def shiftPoison (p : List (Nat × Nat)) (exec : DWord) : List (Nat × Nat) :=
  (p.filter fun e => !(e.1 = 0x69 && exec.getLsbD e.2)).map fun e => if e.1 = 0x68 && exec.getLsbD e.2 then (0x69, e.2) else e

/-- A result enters the last-result file in the lanes of EXEC: l0 moves to l1 and the result enters l0; the A-stream has
none (02 R51, 11 R249). -/
def State.enterLast (s : State) (v : Val) : State :=
  if s.cur.acc then s else
    let b := s.bun
    let w := s.grp.w
    let l0 := (List.range w).map fun i => if s.exec0.getLsbD i then v.lane i else wordAt b.l0 i
    let l1 := (List.range w).map fun i => if s.exec0.getLsbD i then wordAt b.l0 i else wordAt b.l1 i
    s.setBun { b with l0 := l0, l1 := l1, poison := shiftPoison b.poison s.exec0 }

/-- A register result of an ALU instruction: written, then entered in order, low word first (02 R51). -/
def State.aluWrite (s : State) (d : BitVec 7) (vs : List Val) : State :=
  vs.foldl State.enterLast (s.writeN d vs)

/-- Write a v register in every lane with tag U whatever EXEC holds: SSTAT, QSTAT, MSTAT, CYCLES (04 R114). -/
def State.writeAll (s : State) (d j : Nat) (x : Word) : State :=
  if isQ d then s.pushQ (qNum d) (.u x)
  else if s.cur.acc then s.writeX (d + j) x
  else
    let b := s.bun
    s.setBun { b with v := Tab.put b.v (d + j) (.val (.u x)), poison := clearRegPoison b.poison (d + j) (onesMask 64) }

/-- Pops of an instruction by queue: of one queue named more than once, once; where it is named in a pair and alone, the larger
number of entries (01 R24; DESIGN CHOICE, log 50). -/
def popsOf (i : Instr) : List (Nat × Nat) :=
  (usesOf i).rs.foldl (fun t u => if isQ u.des then
    let q := qNum u.des
    Tab.put t q (max u.n (Tab.get 0 t q)) else t) ([] : Tab Nat)

/-- Pushes of an instruction by queue. -/
def pushesOf (i : Instr) : List (Nat × Nat) :=
  (usesOf i).ws.foldl (fun t u => if isQ u.des then
    let q := qNum u.des
    Tab.put t q (u.n + Tab.get 0 t q) else t) ([] : Tab Nat)

/-- Whether the other stream of the bundle can still use its queues (11 R256). -/
def State.otherLives (s : State) : Bool :=
  let o := s.bun.stream (!s.cur.acc)
  o.present && !o.ended && !o.exiting

/-- The answer of a queue check: available, a wait (for room or not), or a QUEUE trap with its code. -/
inductive QAns where
  | ok
  | wait (q : Nat) (room : Bool)
  | trap (q code : Nat)
  deriving DecidableEq, Repr

/-- Whether a pop of n entries can take place (11 R253, R256). -/
def State.popAns (s : State) (q n : Nat) : QAns :=
  if n ≤ (s.bun.queue q).avail.length then .ok
  else if s.otherLives || s.bun.walks.any (fun w => w.q = q && !w.store) then .wait q false
  else .trap q 1

/-- Whether a push of n entries can take place, after the instruction's own pops from the queue (11 R253, R256). -/
def State.pushAns (s : State) (q n own : Nat) : QAns :=
  let x := s.bun.queue q
  if 4 < n + own + x.heldPops s.cur.acc + x.heldPushes s.cur.acc then .trap q 0
  else if n ≤ x.room then .ok
  else if s.otherLives || s.bun.walks.any (fun w => w.q = q && w.store) then .wait q true
  else .trap q 1

/-- The queue check of an instruction: the first pop, then the first push, that cannot take place. -/
def State.queueAns (s : State) (i : Instr) : QAns :=
  let pops := popsOf i
  let a1 := pops.map fun p => s.popAns p.1 p.2
  let a2 := (pushesOf i).map fun p => s.pushAns p.1 p.2 (Tab.get 0 pops p.1)
  ((a1 ++ a2).find? fun a => a ≠ .ok).getD .ok

/-- Hold the pops of an instruction (11 R254). -/
def State.doPops (s : State) (i : Instr) : State :=
  (popsOf i).foldl (fun s p =>
    let b := s.bun
    let x := b.queue p.1
    s.setBun (b.setQueue p.1 { x with ents := markPops s.cur.acc p.2 x.ents })) s

/-- Whether an operand meets a requirement of uniformity: tag U, which o and l registers never have and x registers always
do (04 R120, 11 R249). A queue that holds too few entries is not judged yet. -/
def State.uniOk (s : State) (u : Use) : Bool :=
  if !u.uni then true
  else if s.cur.acc then true
  else if isQ u.des then (((s.bun.queue (qNum u.des)).avail).take u.n).all Val.isU
  else if u.des < 0x60 then
    (List.range u.n).all fun j => match s.bun.vreg (u.des + j) with
      | .val x => x.isU
      | .spilled _ => false
  else false

/-- Whether every operand of an instruction meets its requirement of uniformity. -/
def State.unisOk (s : State) (i : Instr) : Bool := (usesOf i).rs.all s.uniOk

/-- The register designators of uses, one a word; queues and the last-result file take no marks (01 R15). -/
def regsOf (us : List Use) : List Nat :=
  us.flatMap fun u => if u.des < 0x68 then (List.range u.n).map (u.des + ·) else []

/-- The marks an instruction makes when its clause is long-latency (01 R15). -/
def marksOf (i : Instr) : Marks :=
  let u := usesOf i
  { src := regsOf u.rs, dst := regsOf u.ws, ksrc := u.kr, kdst := u.kw }

/-- Marks joined. -/
def Marks.add (a b : Marks) : Marks :=
  { src := a.src ++ b.src, dst := a.dst ++ b.dst, ksrc := a.ksrc ++ b.ksrc, kdst := a.kdst ++ b.kdst }

/-- The marks of a stream's outstanding clauses that f gives, source marks until their sources are read (01 R15). -/
def Stream.recordMarks (x : Stream) (f : Outst → Marks) : Marks :=
  (x.outst ++ x.held.toList).foldl (fun (m : Marks) o =>
    m.add (if o.srcsRead then { f o with src := [], ksrc := [] } else f o)) {}

/-- The marks of words that have not performed, and those of words that have, which may or may not have cleared (01 R15;
log 20). -/
def State.clauseMarks (s : State) (w : Who) : Marks := (s.stream w).recordMarks (·.marks)
def State.lateMarks (s : State) (w : Who) : Marks := (s.stream w).recordMarks (·.late)

/-- The destinations that engines of a bundle's X-stream still hold and will write without its doing: results of SFIs, TRACEs and
list operations to come (12 R297, 13 R308, R320). -/
def Bundle.engineMarks (b : Bundle) : Marks :=
  { dst := ((b.toks.filter fun t => t.2.pending && !t.2.written).map fun t => t.2.dest) ++
      (b.traces.flatMap fun t => (List.range 6).map (t.d + ·)) ++
      (b.lists.flatMap fun op => (List.range (if op.kind = 1 then 4 else if op.kind = 2 then 2 else 0)).map (op.d + ·)),
    kdst := b.lists.flatMap fun op => if op.kind = 1 then [15] else [] }

/-- The destinations that loads of UO pages which have not performed hold, of a stream (01 R15, 08 R201; log 52). -/
def State.uoMarks (s : State) (w : Who) : Marks :=
  { dst := s.uoq.flatMap fun u => match u.load with
      | some l => if u.who = w then (List.range (max 1 (l.n / 4))).map (l.dest + ·) else []
      | none => [] }

/-- The destinations of tokens whose results are written and which no SFWAIT has freed (12 R297, R298). -/
def Bundle.tokenMarks (b : Bundle) : Marks :=
  { dst := (b.toks.filter fun t => t.2.pending && t.2.written).map fun t => t.2.dest }

/-- The marks that stand on a stream's registers: those of the words of its outstanding clauses and of its loads that have not performed,
and in the X-stream what engines and tokens hold (01 R15, 12 R297, 13 R308, R320). -/
def State.standing (s : State) (w : Who) : Marks :=
  let m := (s.clauseMarks w).add (s.uoMarks w)
  let b := s.bundle w.gid w.bid
  if w.acc then m else (m.add b.engineMarks).add b.tokenMarks

/-- A conflict of an access with standing marks: the first in the order reads, then writes; registers before k registers
(01 R16). The answer is TRAPINFO without the word index (15 R341). -/
def hazardOf (m : Marks) (i : Instr) : Option Nat :=
  let u := usesOf i
  let kw := u.kw ++ (if nbOf i then [15] else [])
  let rd := (regsOf u.rs).find? fun d => m.dst.contains d
  let rk := u.kr.find? fun k => m.kdst.contains k
  let wd := (regsOf u.ws).find? fun d => m.dst.contains d || m.src.contains d
  let wk := kw.find? fun k => m.kdst.contains k || m.ksrc.contains k
  match rd, rk, wd, wk with
  | some d, _, _, _ => some (d * 16)
  | none, some k, _, _ => some (k * 16 + 2048)
  | none, none, some d, _ => some (d * 16 + (if m.dst.contains d then 4096 else 8192))
  | none, none, none, some k => some (k * 16 + 2048 + (if m.kdst.contains k then 4096 else 8192))
  | none, none, none, none => none

/-- Whether a register carries poison, by its designator, of which the A-stream's are x registers; and whether k register n does
(15 R350). -/
def State.regBad (s : State) (d : Nat) : Bool :=
  if s.cur.acc then s.str.bad.any fun e => e.1 = 32 + d else s.bun.poison.any fun e => e.1 = d
def State.kBad (s : State) (n : Nat) : Bool := s.str.bad.any fun e => e.1 = n

/-- Whether one of the n entries that a pop would take carries poison (15 R350). -/
def Queue.popBad (q : Queue) (n : Nat) : Bool := ((q.ents.filter fun e => e.pop.isNone).take n).any fun e => !e.bad.isEmpty

/-- The first poisoned register an instruction would fetch as an operand, queues and the last-result file among them, k registers last,
which are reported by their number (15 R350; log 31). -/
def State.poisonOpnd (s : State) (i : Instr) : Option Nat :=
  let u := usesOf i
  let bad := u.rs.findSome? fun x =>
    if isQ x.des then (if (s.bun.queue (qNum x.des)).popBad x.n then some x.des else none)
    else (if x.des < 0x6A then (List.range x.n).map (x.des + ·) else []).find? s.regBad
  bad.or (u.kr.find? s.kBad)

/-- Registers an instruction names (04 R116). -/
def namedOf (i : Instr) : List Nat := regsOf (usesOf i).rs ++ regsOf (usesOf i).ws

end Sys2Proof.Machine
end

