-- ==== Sys2Proof/Machine/Flags.lean ====
section
/-!
DEFINITION. Clause headers and completion flags: the fields of a header and what makes it malformed (01 R9, R10, R12), WAIT and
the rise and fall of the flags (R13, R14), and the outstanding clauses whose marks stand (R15).
-/
namespace Sys2Proof.Machine

/-- Fields of a header (01 R9). -/
def hTag (h : Word) : Nat := bits h 31 30
def hStrm (h : Word) : Bool := bit h 29
def hYld (h : Word) : Bool := bit h 28
def hRgn (h : Word) : Bool := bit h 27
def hSetb (h : Word) : Nat := bits h 26 23
def hSeta (h : Word) : Nat := bits h 22 19
def hWait (h : Word) : Nat := bits h 18 7
def hClassBits (h : Word) : Nat := bits h 6 4
def hCount (h : Word) : Nat := bits h 3 0

/-- The class a header names (01 R9). -/
def hClass (h : Word) : Class :=
  match hClassBits h with
  | 0 => .alu
  | 1 => .mem
  | 2 => .mxe
  | 3 => .sfq
  | 4 => .ste
  | 5 => .trv
  | 6 => .ctl
  | _ => .sys

/-- Whether a SETA or SETB field holds 12, 13 or 14 (01 R10). -/
def badSet (f : Nat) : Bool := decide (12 ≤ f) && decide (f ≤ 14)

/-- Whether a header is well formed for the stream that fetches it (01 R10, R12). -/
def headerOk (acc : Bool) (h : Word) : Bool :=
  hTag h = 3 && hCount h ≠ 0 && !badSet (hSeta h) && !badSet (hSetb h) && (hStrm h == acc) &&
    (!acc || [Class.alu, .mem, .ste, .ctl].contains (hClass h))

/-- Whether a class is long-latency (01 R15). -/
def longLatency (c : Class) : Bool :=
  match c with
  | .alu | .ctl => false
  | .mem | .mxe | .sfq | .ste | .trv | .sys => true

/-- The lowest flag a header waits on that does not read zero (01 R14). -/
def Stream.waitFlag (x : Stream) (h : Word) : Option Nat :=
  (List.range 12).find? fun f => hWait h / 2 ^ f % 2 = 1 && x.flag f ≠ 0

/-- How much the issue of a header adds to flag f (01 R13). -/
def addsTo (h : Word) (f : Nat) : Nat := (if hSeta h = f then 1 else 0) + (if hSetb h = f then 1 else 0)

/-- Whether every flag has room for the issue of a header: none rises above 63 (01 R13). -/
def Stream.flagRoom (x : Stream) (h : Word) : Bool := (List.range 12).all fun f => decide (x.flag f + addsTo h f ≤ 63)

/-- The outstanding clause of an identity. -/
def Stream.out? (x : Stream) (id : Nat) : Option Outst := x.outst.find? fun o => o.id = id

/-- A clause issues: its flags rise, and its record with its marks joins the outstanding clauses (01 R13, R15). -/
def Stream.issueOut (x : Stream) (h : Word) (m : Marks) : Stream :=
  let o : Outst := { id := x.nextId, cls := hClass h, seta := hSeta h, setb := hSetb h, marks := m, srcsRead := false,
                     handler := x.handler }
  { (x.raise (hSeta h)).raise (hSetb h) with outst := x.outst ++ [o], nextId := x.nextId + 1 }

/-- SOURCES_READ: the SETB count of a clause falls and its source marks clear (01 R13, R15). -/
def Stream.readSrcs (x : Stream) (id : Nat) : Stream :=
  match x.out? id with
  | none => x
  | some o =>
    if o.srcsRead then x else
      { x.lower o.setb with outst := x.outst.map fun p => if p.id = id then { p with srcsRead := true } else p }

/-- CLAUSE_COMPLETION: the SETA count of a clause falls, after its SETB count, and its marks clear (01 R13, R15). -/
def Stream.complete (x : Stream) (id : Nat) : Stream :=
  match x.out? id with
  | none => x
  | some o =>
    let x := x.readSrcs id
    { x.lower o.seta with outst := x.outst.filter fun p => p.id ≠ id }

/-- The clause in progress is interrupted at a wait: its record is set aside, its counts standing, with the arrival it has made
(15 R335, R353). -/
def Stream.setAside (x : Stream) : Stream :=
  let c := x.clause
  { x with held := x.out? c.id, outst := x.outst.filter fun p => p.id ≠ c.id,
           heldGen := if c.arrived then some c.gen else none, clause := {}, wait := .nothing }

/-- A clause set aside that is not taken again: its counts fall (01 R13). -/
def Stream.dropHeld (x : Stream) : Stream :=
  match x.held with
  | none => { x with heldGen := none }
  | some o => { ({ x with outst := x.outst ++ [o] }.complete o.id) with held := none, heldGen := none }

/-- The marks a word of a clause makes (01 R15). -/
def wordMarks (w : Word) : Marks :=
  match decode w with
  | some i => marksOf i
  | none => {}

/-- The marks of the words of a clause in progress that follow the one at hand. -/
def Clause.laterMarks (c : Clause) : Marks :=
  if longLatency (hClass c.header) then (c.words.drop (c.idx + 1)).foldl (fun (m : Marks) w => m.add (wordMarks w)) {} else {}

/-- Whether an engine takes a word's destinations over, to write them when its result comes (12 R297, 13 R308, R320). -/
def engineWord (i : Instr) : Bool :=
  match i with
  | .sfi .. | .trace .. | .lpop .. | .lresolve .. => true
  | _ => false

/-- The word at hand has performed: it has read its sources, and what it writes itself is written. Its marks leave the record's
standing ones for the late ones, but for destinations an engine has taken over (01 R15, R17; log 20). -/
def Stream.wordDone (x : Stream) : Stream :=
  let c := x.clause
  if c.id ≠ 0 && longLatency (hClass c.header) then
    let done := match (c.words[c.idx]?).bind decode with
      | some i => if engineWord i then { marksOf i with dst := [], kdst := [] } else marksOf i
      | none => {}
    { x with outst := x.outst.map fun o => if o.id = c.id then { o with marks := c.laterMarks, late := o.late.add done } else o }
  else x

/-- Whether an SFI's result takes tag U: a U source and full EXEC (03 R99). -/
def sfiUniform (w : Nat) (v : Val) (exec : DWord) : Bool := v.isU && exec = onesMask w

/-- Whether a general result that an engine still works on goes to v register r: an SFI's, a TRACE's or a list operation's (12 R297,
13 R308, R320). -/
def Bundle.awaited (b : Bundle) (w r : Nat) : Bool :=
  (b.toks.any fun t => t.2.pending && !t.2.written && !sfiUniform w t.2.opnd t.2.exec && t.2.dest = r) ||
    (b.traces.any fun t => !t.uni && decide (t.d ≤ r) && decide (r < t.d + 6)) ||
    b.lists.any fun op => decide (op.d ≤ r) && decide (r < op.d + if op.kind = 1 then 4 else if op.kind = 2 then 2 else 0)

/-- v registers whose general results are still to come and that hold no slot yet. -/
def Bundle.coming (b : Bundle) (w : Nat) : List Nat := (List.range 0x60).filter fun r => b.awaited w r && !(b.vreg r).resident

/-- The G slots the current bundle holds: of its resident general registers, and those kept for results still to come (04 R115). -/
def State.slotsHeld (s : State) : Nat := s.bun.residents.length + (s.bun.coming s.grp.w).length

/-- The marks no victim may carry: all that stand, those of the later words of the clause in progress among them (04 R116). -/
def State.slotMarks (s : State) : Marks := (s.standing s.cur).add s.str.clause.laterMarks

/-- The registers whose marks clear without the stream's doing, for which an instruction may wait (04 R116). -/
def State.clearing (s : State) : List Nat := if s.cur.acc then [] else s.bun.engineMarks.dst ++ (s.uoMarks s.cur).dst

/-- Outstanding clauses other than the one in progress (02 R71, 04 R129). -/
def Stream.others (x : Stream) : List Outst := x.outst.filter fun o => o.id ≠ x.clause.id

/-- Outstanding clauses other than commands of classes MXE and STE (15 R332, R337). -/
def Stream.busyForTrap (x : Stream) : Bool := x.outst.any fun o => o.cls ≠ .mxe && o.cls ≠ .ste

end Sys2Proof.Machine
end

