-- ==== Sys2Proof/Machine/Ops.lean ====
section
/-!
DEFINITION. The operations every meaning shares: parking on a page (15 R345, R346), taking a trap and returning from one
(15 R332 to R341), region entry and rollback (15 R333, R335), the checks of a word (01 R46), automatic spills (04 R115 to R117),
and the frame that runs one word of the clause in progress.
-/
namespace Sys2Proof.Machine

/-- What one instruction's own meaning answers: the state with its effect; a wait at the instruction, or a stall of its
clause at issue; a trap; a SHAPECAP with the state as the spills and refills before it have left it (04 R117); pages that are not
present. -/
inductive Res where
  | done (s : State)
  | wait (w : WaitOn) (s : State)
  | stall (w : WaitOn)
  | trap (t : Trap)
  | cap (t : Trap) (s : State)
  | park (path : Nat) (ms : List Miss)
  deriving DecidableEq, Repr

/-- A fault window. -/
def State.fwin (s : State) (c : Nat) : FWin := Tab.get {} s.dev.fwins c

/-- The state with a fault window replaced. -/
def State.setFwin (s : State) (c : Nat) (x : FWin) : State := { s with dev := { s.dev with fwins := Tab.put s.dev.fwins c x } }

/-- A fault-buffer entry as a number (15 R347). -/
def faultEntry (seq waiters core vpn path acc : Nat) : Nat :=
  seq * 2 ^ 96 + waiters * 2 ^ 80 + core * 2 ^ 64 + vpn * 2 ^ 12 + path * 8 + acc

/-- A field of a fault-buffer entry. -/
def entryField (e lo n : Nat) : Nat := e / 2 ^ lo % 2 ^ n

/-- FAULT_BUFFER_ENTRY: one key of a parked access meets the miss table of its cluster (15 R346, R347). -/
def FWin.meet (x : FWin) (core vpn path acc : Nat) : FWin :=
  match x.keys.find? fun k => k.1 = vpn with
  | some (_, some n) =>
    if x.put ≤ n + 8 then
      let e := Tab.get 0 x.ents (n % 8)
      let e' := faultEntry (entryField e 96 32) (min 65535 (entryField e 80 16 + 1)) (entryField e 64 9) vpn
        (entryField e 3 3) (entryField e 0 3 ||| acc)
      { x with ents := Tab.put x.ents (n % 8) e' }
    else x
  | some (_, none) => x
  | none =>
    if x.put - x.get < 8 ∧ x.keys.length < 32 then
      { x with ents := Tab.put x.ents (x.put % 8) (faultEntry (x.put % 2 ^ 32) 1 core vpn path acc),
               put := x.put + 1, keys := x.keys ++ [(vpn, some x.put)] }
    else
      { x with drop := true, dropCount := satInc 16 x.dropCount,
               keys := if x.keys.length < 32 then x.keys ++ [(vpn, none)] else x.keys }

/-- The keys of a parked access in ascending order of the lowest lane that falls in each, with the access bits of all its
lanes and the path of the first (15 R347, 16 R368). -/
def missKeys (path : Nat) (ms : List Miss) : List (Nat × Nat × Nat) :=
  let lanes := ms.map (·.lane)
  let byLane := (List.range (lanes.foldl max 0 + 1)).flatMap fun l => ms.filter fun m => m.lane = l
  let keys := byLane.foldl (fun ks m => if ks.contains m.vpn then ks else ks ++ [m.vpn]) ([] : List Nat)
  keys.map fun v =>
    let l := byLane.filter fun m => m.vpn = v
    (v, (l.head?.bind (·.path)).getD path, l.foldl (fun a m => a ||| m.acc) 0)

/-- PARK: an access joins the parked accesses and its keys are presented to its cluster's miss table (15 R345, R346,
16 R368). -/
def State.parkAccess (s : State) (who : Parker) (core path : Nat) (ms : List Miss) : State :=
  let c := Config.clusterOf core
  let x := (missKeys path ms).foldl (fun (x : FWin) k => x.meet core k.1 k.2.1 k.2.2) (s.fwin c)
  let s := ms.foldl (fun s m => s.backWalk (m.va.toNat % 2 ^ 57)) (s.setFwin c x)
  { s with parked := s.parked ++ [{ who := who, cluster := c, core := core, path := path, misses := ms }] }

/-- Whether a stream of a group is parked on a page. -/
def Group.anyParked (g : Group) : Bool := g.bundles.any fun b => b.2.xs.wait = .parked || b.2.as.wait = .parked

/-- A stream of the current group is parked: the clock since which FAULTSAVE counts (15 R354). -/
def State.noteParked (s : State) : State :=
  let g := s.grp
  if g.faultAt.isSome then s else s.setGrp { g with faultAt := some s.clock }

/-- The keys of a parked access that is parked again. -/
def State.unpark (s : State) (who : Parker) : State := { s with parked := s.parked.filter fun p => p.who ≠ who }

/-- Enter the handler a trap leads to, once the clauses issued before have completed; without a vector, or in handler mode,
the group is killed and reported (15 R337, R339; HANG 15 R367). -/
def State.enterTrap (s : State) (t : Trap) : State :=
  let x := s.str
  let g := s.grp
  let vec := if t.cause = cHANG then s.dev.ctl.svec else if s.cur.acc then s.dev.ctl.tveca else s.dev.ctl.tvecx
  if x.handler ∨ vec = 0xFFFFFFFF#32 then
    s.killReport s.cur.gid [if x.handler then 6 else 5, g.handle, BitVec.ofNat 32 g.group,
      BitVec.ofNat 32 (t.cause + bits t.info 3 0 * 256)]
  else
    s.setStr { x with
      trapCause := t.cause, trapInfo := t.info, trapPc := x.pc, trapAddr := t.addr, trapExec := x.exec, handler := true,
      mask := true, exec := if s.cur.acc then 1 else s.bun.live, pc := vec, pend := none, entryMade := false, resumeAt := 0,
      wait := .nothing, clause := {} }

/-- Whether a trap leaves the record of its clause standing: HANG, and a trap whose resume point is a wait inside the clause
(15 R335). -/
def keepsRecord (x : Stream) (t : Trap) (decoded : Option Nat) : Bool :=
  t.cause = cHANG ||
    (decoded.isSome && t.cause ≠ cTRAPI && t.cause ≠ cBREAK && x.rgnWord ≠ 0 && x.rgnPc = x.pc)

/-- Take a trap: the clause in progress has no effect, its record leaves the outstanding clauses, and the handler is entered
at once when no clause other than an MXE or STE command is outstanding, or when they have completed (15 R332, R337). decoded
tells whether the header at TRAPPC was decoded (15 R340). -/
def State.takeTrap (s : State) (t : Trap) (decoded : Option Nat) : State :=
  let x := s.str
  let x :=
    if keepsRecord x t decoded then (if x.clause.id = 0 then x else x.setAside)
    else if x.clause.id = 0 then x.dropHeld
    else (x.complete x.clause.id).dropHeld
  let x := { x with clause := {}, wait := .nothing, trapCount := decoded,
                    spare := x.spare ++ x.clause.pool.filter fun r => !r.nodes.isEmpty }
  let s := s.setStr x
  if x.busyForTrap then s.setStr { x with pend := some t } else s.enterTrap t

/-- Whether an instruction is a load or a FILL (07 R191). -/
def loadsData (i : Instr) : Bool :=
  match i with
  | .ldN8 .. | .ldI8 .. | .ldN16 .. | .ldI16 .. | .ld32 .. | .ld64 .. | .ld128 .. | .ldp32 .. | .ldp128 .. | .fill .. => true
  | _ => false

/-- Whether a POISON trap of an instruction consumes poison for R191: on a load, a FILL or an operand fetch, that of an operand
in an automatic slot among them. -/
def State.consumes (s : State) (i : Instr) (t : Trap) : Bool :=
  t.cause = cPOISON && (loadsData i || bit t.info 23 || decide (t.addr.toNat / 65536 = s.bun.spillBase.toNat))

/-- An instruction's trap: where a group of a CONTAIN node consumes poison, the group ends or starts again instead (07 R191). -/
def State.wordTrap (s : State) (i : Instr) (t : Trap) (decoded : Option Nat) : State :=
  if s.contains s.grp && s.consumes i t then s.containPoison s.cur.gid t.addr else s.takeTrap t decoded

/-- REGION_ENTRY: held queue operations commit, RGNPC, the region word and RGNCOUNT are set, and EXEC, the bundle's
stochastic-rounding state and, in the X-stream, whose tokens they are, the pending tokens are recorded (12 R301, 15 R333). The region word is w, 0
but for a save at a wait (15 R353). -/
def State.regionEntry (s : State) (w : Nat) : State :=
  let acc := s.cur.acc
  let b := s.bun
  let b := { b with queues := b.queues.map (fun (q : Nat × Queue) => (q.1, q.2.commit acc)),
                    srEntry := b.sr,
                    toks := if acc then b.toks else b.toks.map (fun (t : Nat × Token) => (t.1, { t.2 with atEntry := t.2.pending })) }
  let x := b.stream acc
  let x := { x with rgnPc := x.pc, rgnWord := w, rgnCount := x.rgnCount + 1, entryExec := x.exec, entryMade := true }
  s.setBun (b.setStream acc x)

/-- Go back to the region entry: held queue operations undone, EXEC and the stochastic-rounding state as recorded, tokens
that became pending inside the region freed (15 R335, 12 R301). The clause at RGNPC is taken again, at the region word. -/
def State.rollback (s : State) : State :=
  let acc := s.cur.acc
  let b := s.bun
  let b := { b with queues := b.queues.map (fun (q : Nat × Queue) => (q.1, q.2.rollback acc)),
                    sr := b.srEntry,
                    toks := if acc then b.toks else b.toks.map (fun (t : Nat × Token) => (t.1, if t.2.atEntry then t.2 else {})) }
  let x := b.stream acc
  let x := if x.rgnWord = 0 then x.dropHeld else x
  let x := { x with pc := x.rgnPc, exec := x.entryExec, resumeAt := x.rgnWord, entryMade := false, clause := {}, wait := .nothing }
  s.setBun (b.setStream acc x)

/-- Whether some token of the bundle has a result still to come (12 R301). -/
def Bundle.tokenBusy (b : Bundle) : Bool := b.toks.any fun t => t.2.pending && !t.2.written

/-- Whether a trap was one of steps 1 and 2 of R46, a fault or ILLCLAUSE at a header: none was decoded, and no engine reported it
(15 R335, R341). -/
def headerTrap (x : Stream) : Bool := x.trapCount.isNone && !bit x.trapInfo 31

/-- Whether RTE in its resume form goes to a region entry: every cause but a fault or ILLCLAUSE at a header, TRAPI, BREAK
and HANG (15 R335). -/
def resumesAtEntry (x : Stream) : Bool :=
  !headerTrap x && x.trapCause ≠ cTRAPI && x.trapCause ≠ cBREAK && x.trapCause ≠ cHANG

/-- Return from a trap: wait for the clauses issued in handler mode; leave handler mode and clear MASK; then skip the clause
at TRAPPC, or go to the resume point with its rollback. PREEMPT's resume point is the region entry at TRAPPC (15 R335, R340). -/
def State.returnTrap (s : State) (skip : Bool) : Res :=
  let x := s.str
  if x.others.any (·.handler) then .wait .exit s
  else if !skip && resumesAtEntry x && !s.cur.acc && s.bun.tokenBusy then .wait .exit s
  else
    let hang := x.trapCause = cHANG
    let s := if hang then { s with hangOut := false } else s
    let x := { x with handler := false, mask := false, clause := {}, wait := .nothing, entryMade := false, resumeAt := 0 }
    let x := if skip then x.dropHeld else x
    let after := match x.trapCount with
      | some c => x.trapPc + BitVec.ofNat 32 (4 * (c + 1))
      | none => x.trapPc
    if skip then .done (s.setStr { x with pc := after, exec := x.trapExec })
    else if headerTrap x then .done (s.setStr { x with pc := x.trapPc, exec := x.trapExec })
    else
      if x.trapCause = cTRAPI ∨ x.trapCause = cBREAK then .done (s.setStr { x with pc := after, exec := x.trapExec })
      else if hang then .done (s.setStr { x with pc := x.trapPc, exec := x.trapExec, resumeAt := bits x.trapInfo 13 10 })
      else if x.trapCause = cPREEMPT then
        let s := (s.setStr { x with rgnWord := 0 }).rollback
        .done (s.setStr { s.str with pc := x.trapPc, exec := x.trapExec })
      else .done ((s.setStr x).rollback)

/-- Numbers of special registers (01 R47). -/
def sregKnown (n : Nat) : Bool :=
  decide (n ≤ 5) || (decide (8 ≤ n) && decide (n ≤ 0x19)) || n = 0x20 || n = 0x21 || n = 0x28 || n = 0x2A || n = 0x2B ||
    n = 0x30 || n = 0x31 || (decide (0x38 ≤ n) && decide (n ≤ 0x3D)) || n = 0x40 || (decide (0x48 ≤ n) && decide (n ≤ 0x4B)) ||
    n = 0x50 || n = 0x51 || (decide (0x60 ≤ n) && decide (n ≤ 0x6F))

/-- Whether a special register may be written: RW anywhere, H in handler mode (01 R47, R48). -/
def sregWritable (n : Nat) (handler : Bool) : Bool :=
  n = 0x20 || n = 0x21 || n = 0x28 || (handler && (n = 0x3D || n = 0x40 || (decide (0x48 ≤ n) && decide (n ≤ 0x4B))))

/-- Checks of a word that look at the group or the mode: special-register access, barrier and tile numbers, handler mode for
RTE, COHORT for GBAR, an A entry for REFORM (01 R48, 04 R133, 05 R140, R157, 12 R275, 15 R340). -/
def State.extraCheck (s : State) (i : Instr) : Option Nat :=
  let r := s.nodeRec s.grp.node
  let bar := fun (b : BitVec 6) =>
    if nNB r ≤ b.toNat ∨ (Tab.get {} s.grp.bars b.toNat).e = 0 then some cILLOPND else none
  let tile := fun (t : BitVec 3) => if nTiles r ≤ t.toNat then some cILLOPND else none
  match i with
  | .gets _ n => if sregKnown n.toNat then none else some cILLOPND
  | .sets _ n => if sregKnown n.toNat && sregWritable n.toNat s.str.handler then none else some cILLOPND
  | .rte | .rteSkip => if s.str.handler then none else some cILLINSTR
  | .gbar => if nCohort r then none else some cILLINSTR
  | .reform .. => if nHasA r then some cILLINSTR else none
  | .barInit b _ => if nNB r ≤ b.toNat then some cILLOPND else none
  | .barArrive b | .barWait b | .barSync b => bar b
  | .mzero t | .tkgive t | .tktake t => tile t
  | .accrd _ _ _ t | .accwr _ _ _ t => tile t
  | _ => none

/-- What a word of a clause breaks, in the order of R46: ILLINSTR for its class, fields, stream, position or NB without a
queue; then ILLOPND (01 R29, R35, R36, R46). last tells whether the word ends its clause. -/
def State.checkWord (s : State) (cls : Class) (last : Bool) (i : Instr) : Option Nat :=
  let acc := s.cur.acc
  if classOf i ≠ some cls then some cILLINSTR
  else if !fieldsLegal i || !streamLegal acc i then some cILLINSTR
  else if mustBeLast i && !last then some cILLINSTR
  else if nbOf i && (popsOf i).isEmpty && (pushesOf i).isEmpty then some cILLINSTR
  else if s.extraCheck i = some cILLINSTR then some cILLINSTR
  else if !opndsOk acc i || !s.unisOk i then some cILLOPND
  else s.extraCheck i

/-- The trap of a word for a spill error. -/
def spillRes : SpErr → Res
  | .trap t => .trap t
  | .miss va acc => .park 0 [{ vpn := vpnOf va, acc := acc, va := va, path := some 0 }]

/-- The victims an instruction may have: resident G, named nowhere, without a pending mark (04 R116). -/
def State.victims (s : State) (i : Instr) : List Nat :=
  let m := s.slotMarks
  s.bun.residents.filter fun r => !(namedOf i).contains r && !m.src.contains r && !m.dst.contains r

/-- The trap of an automatic spill that finds no slot for register r, in state s (04 R117). -/
def State.shapeCap (s : State) (r : Nat) : Res := .cap { cause := cSHAPECAP, info := BitVec.ofNat 32 (r * 16) } s

/-- Spill the first n of a list of registers; r is the register that needs the slot. -/
def State.spillSome (s : State) (r : Nat) : Nat → List Nat → Except Res State
  | 0, _ => .ok s
  | _, [] => .ok s
  | n + 1, v :: vs =>
    match s.autoSpill v with
    | .ok s => State.spillSome s r n vs
    | .error (.inl e) => .error (spillRes e)
    | .error (.inr ()) => .error (s.shapeCap r)

/-- Registers that are resident and not named by an instruction, whatever marks they carry. -/
def State.bystanders (s : State) (i : Instr) : List Nat := s.bun.residents.filter fun r => !(namedOf i).contains r

/-- Whether an instruction that finds no victim may wait for one: some register it does not name carries a mark that clears
without the stream's doing (04 R116). -/
def State.mayClear (s : State) (i : Instr) : Bool := (s.bystanders i).any fun r => s.clearing.contains r

/-- The registers a destination may take as victims when none qualifies and no mark may clear: those the instruction names only as
sources, after it has read them, and then those that the stream's own later words or an SFWAIT to come keep marked (04 R116;
log 20). -/
def State.lastVictims (s : State) (i : Instr) : List Nat :=
  let u := usesOf i
  let vs := s.victims i
  (s.bun.residents.filter fun r => (regsOf u.rs).contains r && !(regsOf u.ws).contains r) ++
    (s.bystanders i).filter fun r => !vs.contains r

/-- v register r comes back from automatic slot j with the value it holds there, in a slot of its own (04 R115, R116). -/
def State.comeBack (s : State) (r j : Nat) (v : Val) : State := (s.setV r (.val (.g (v.lanes s.grp.w)))).freeAuto j

/-- Refill the sources of an instruction that stand in automatic slots, each taking a G slot and perhaps a victim. Where no
register qualifies, the clause stalls while a mark may clear without the stream's doing; failing that the source is read in place
(04 R115, R116; log 20). -/
def State.refill (s : State) (i : Instr) : List Nat → Except Res State
  | [] => .ok s
  | r :: rs =>
    match s.bun.vreg r with
    | .val _ => State.refill s i rs
    | .spilled j =>
      match s.readAuto s.bun j with
      | .error e => .error (spillRes e)
      | .ok v =>
        let s := s.touchAuto j
        if s.slotsHeld < s.budget s.grp then State.refill (s.comeBack r j v) i rs
        else
          match s.victims i, s.mayClear i with
          | x :: _, _ =>
            (match s.spillSome r 1 [x] with
             | .ok s => State.refill (s.comeBack r j v) i rs
             | .error e => .error e)
          | [], true => .error (.stall .room)
          | [], false => State.refill s i rs

/-- Whether an instruction keeps what its v destinations held in the lanes where EXEC is clear: all but those that write every
lane (04 R114). -/
def mergesDest (i : Instr) : Bool :=
  match i with
  | .sstat .. | .qstat .. | .mstat .. | .cycles .. | .fill .. => false
  | _ => true

/-- What stands against reading a destination in an automatic slot, whose lanes outside a partial EXEC keep their values: a trap, or
a page that is not present (04 R114, 07 R169, 15 R350). -/
def State.destErr (s : State) (i : Instr) : Option Res :=
  if s.cur.acc || s.exec0 = 0 || s.fullExec || !mergesDest i then none
  else ((regsOf (usesOf i).ws).filter fun r => decide (r < 0x60)).findSome? fun r => match s.bun.vreg r with
    | .val _ => none
    | .spilled j =>
      match s.readAuto s.bun j with
      | .ok _ => none
      | .error e => some (spillRes e)

/-- Give the general results of an instruction their slots: where one needs a slot and the budget is passed, victims are spilled; failing
those, while no mark may clear without the stream's doing, the last victims (04 R115, R116; log 20). old is the state before the
instruction. Of several results the first that has become resident is reported as the register that needed the slot (DESIGN CHOICE,
log 68). -/
def State.giveSlots (s old : State) (i : Instr) : Except Res State :=
  let n := s.slotsHeld - s.budget s.grp
  let new := s.bun.residents.filter fun r => !(old.bun.vreg r).resident
  if n = 0 ∨ new.isEmpty then .ok (s.freeSlots old.bun)
  else
    let stay := fun (l : List Nat) => l.filter fun r => s.bun.residents.contains r
    if (stay (old.victims i)).length < n ∧ old.mayClear i then .error (.stall .room)
    else
      match s.spillSome (new.headD 0) n (stay (old.victims i ++ old.lastVictims i)) with
      | .ok s => .ok (s.freeSlots old.bun)
      | .error e => .error e

/-- The spills (true) and refills (false) that have led from s to t in word i: registers that have gone to automatic slots, and sources
that have come back from them (04 R116). -/
def State.slotMoves (s t : State) (i : Instr) : List (Nat × Bool) :=
  (List.range 0x60).filterMap fun r =>
    match s.bun.vreg r, t.bun.vreg r with
    | .val (.g _), .spilled _ => some (r, true)
    | .spilled _, .val (.g _) => if (regsOf (usesOf i).rs).contains r then some (r, false) else none
    | _, _ => none

/-- Spills and refills made in a clause that has trapped with SHAPECAP are made in the state without its effects: they stay (04 R117). -/
def State.keepMoves (s : State) (l : List (Nat × Bool)) : State :=
  l.foldl (fun s m => match m.2, s.bun.vreg m.1 with
    | true, .val (.g _) =>
      (match s.autoSpill m.1 with
       | .ok s => s
       | .error _ => s)
    | false, .spilled j =>
      (match s.readAuto s.bun j with
       | .ok v => s.comeBack m.1 j v
       | .error _ => s)
    | _, _ => s) s

/-- CODEWIN of the resident graph (02 R66). -/
def State.codeWin (s : State) : DWord := match s.graph with
  | some g => g.codeWin
  | none => 0

/-- What the fetch of a word answers. -/
inductive Fetched where
  | word (w : Word) (x : Xlat)
  | trap (t : Trap)
  | miss (va : DWord)
  deriving DecidableEq, Repr

/-- Fetch the word k words after a header: EXEC, SYS and KIND checked, read at home (01 R19, 02 R66, 15 R341, R350). -/
def State.fetch (s : State) (pc : Word) (k : Nat) : Fetched :=
  let va : DWord := s.codeWin + (pc + BitVec.ofNat 32 (4 * k)).setWidth 64
  let bad := fun (c : Nat) => Fetched.trap { cause := c, info := BitVec.ofNat 32 (2 ^ 30 + k), addr := va }
  match s.globAcc s.party va 4 [0] with
  | .miss => .miss va
  | .bad c => bad c
  | .ok (.scr _) => bad cPROT
  | .ok (.mem x) => if s.poisonedIn x.key 4 then bad cPOISON else .word (s.homeWord x.key) x

/-- What NB writes into k15 (01 R29). -/
def State.writeNb (s : State) (i : Instr) (ok : Bool) : State :=
  if nbOf i then s.writeK 15 (if ok then onesMask s.lanes else 0) else s

/-- A QUEUE trap (11 R256). -/
def queueTrap (q code : Nat) : Trap := { cause := cQUEUE, info := BitVec.ofNat 32 (q * 16 + code * 512) }

/-- Whether an instruction releases, or ends a held condition on the LSU path: fences and XFENCE of that path, stores and atomics with a
release, WAKE, arrivals at barriers (04 R135, 07 R179, R182, R186, 08 R204, R209, R210). -/
def releasesLsu (i : Instr) : Bool :=
  match i with
  | .fenceRel _ | .fenceFull _ | .fenceLocal | .fenceAcq _ | .wake .. | .barArrive _ | .barSync _ | .gbar | .coll .. => true
  | .xfence b _ _ => b.getLsbD 0
  | .st8 o .. | .st16 o .. | .st32 o .. | .st64 o .. | .st128 o .. => o = 2#2
  | .atomAddI32 o .. | .atomMinI32 o .. | .atomMaxI32 o .. | .atomMinN32 o .. | .atomMaxN32 o .. | .atomAnd o .. | .atomOr o ..
  | .atomXor o .. | .atomXchg o .. | .atomAddI64 o .. | .atomXchg64 o .. | .atomCas o .. => o.getLsbD 1
  | _ => false

/-- Whether a walk of a bundle waits for room or entries of its queue (11 R262). -/
def Bundle.walkWaits (b : Bundle) (w : Walk) : Bool :=
  let q := b.queue w.q
  if w.store then decide (q.avail.length < w.n) else decide (q.room < w.n)

/-- Whether a release, or another fence of the LSU path, has to wait for walks that its stream began before: their accesses are earlier
ones of the party. One that only the stream itself could still feed or drain is not waited for, nor in handler mode one that waits on its
queue at all (08 R193, R204, R209; DESIGN CHOICE, log 69). -/
def State.walksHold (s : State) (i : Instr) : Bool :=
  releasesLsu i && s.bun.walks.any fun w => w.acc = s.cur.acc &&
    (!s.bun.walkWaits w || (s.otherLives && !s.str.handler))

/-- One instruction with everything around its own meaning p: queues, NB, poisoned operands, walks that a release waits for, slots (01 R29,
04 R114 to R116, 08 R204, 11 R253 to R256, 15 R350). -/
def State.around (s : State) (i : Instr) (p : State → Res) : Res :=
  match s.queueAns i, nbOf i with
  | .wait _ _, true => .done (s.writeNb i false)
  | .trap _ _, true => .done (s.writeNb i false)
  | .wait q room, false => .stall (.queue q room)
  | .trap q code, false => .trap (queueTrap q code)
  | .ok, _ =>
    match s.poisonOpnd i with
    | some d => .trap { cause := cPOISON, info := BitVec.ofNat 32 (0x800000 + d * 65536) }
    | none =>
      if s.walksHold i then .stall .room else
      let spilled := if s.cur.acc then [] else (regsOf (usesOf i).rs).filter fun r => decide (r < 0x60)
      match s.refill i spilled with
      | .error e => e
      | .ok s1 =>
        match s1.destErr i with
        | some e => e
        | none =>
          match p s1 with
          | .done s2 =>
            (match if s2.cur.acc || !s2.bun.started then .ok s2 else s2.giveSlots s1 i with
             | .error e => e
             | .ok s3 => .done ((s3.doPops i).writeNb i true))
          | r => r

/-- The clause in progress has performed its words: EXEC takes the pending value and the stream stands at the next header
(01 R19, R20, 04 R108). -/
def Stream.clauseEnd (x : Stream) : Stream :=
  let c := x.clause
  let next := x.pc + BitVec.ofNat 32 (4 * (c.words.length + 1))
  { x with pc := c.target.getD next, exec := c.execP, clause := {}, entryMade := false, resumeAt := 0, wait := .nothing }

/-- A word has performed: the next one follows, or the clause ends (01 R20). -/
def State.advance (s : State) : State :=
  let x := s.str
  let c := x.clause
  if c.words.length ≤ c.idx then s
  else if c.idx + 1 < c.words.length then
    s.setStr { x.wordDone with clause := { c with idx := c.idx + 1, arrived := false }, wait := .nothing }
  else s.setStr x.wordDone.clauseEnd

/-- A trap as a word of a clause reports it: the word index in TRAPINFO[3:0] where R341 gives it (15 R341). -/
def Trap.atWord (t : Trap) (w : Nat) : Trap :=
  if t.cause = cTRAPI ∨ t.cause = cBREAK ∨ t.cause = cORDERR ∨ t.cause = cPOOL then t
  else { t with info := t.info ||| BitVec.ofNat 32 w }

/-- The COUNT of the header of the clause in progress. -/
def Stream.countOf (x : Stream) : Option Nat := some (hCount x.clause.header)

/-- Run one word of the clause in progress: its checks, then its meaning with what stands around it; then the next word, a
wait, a trap, or parking. Words are numbered from 1, the header being 0 (01 R46). -/
def State.runWord (s : State) (i : Instr) (p : State → Res) : Host.Outcome State Fault Refusal :=
  let c := s.str.clause
  let s := s.tick
  match s.checkWord (hClass c.header) (decide (c.words.length ≤ c.idx + 1)) i with
  | some cause => .next (s.takeTrap ({ cause := cause : Trap }.atWord (c.idx + 1)) s.str.countOf)
  | none =>
    match s.around i p with
    | .done t => .next t.advance
    | .wait w t => .next (t.setStr { t.str with wait := w })
    | .stall w => .next (s.setStr { s.str with wait := w })
    | .trap t => .next (s.wordTrap i (t.atWord (c.idx + 1)) s.str.countOf)
    | .cap t u => .next ((s.keepMoves (s.slotMoves u i)).wordTrap i (t.atWord (c.idx + 1)) s.str.countOf)
    | .park path ms =>
      .next ((s.parkAccess (.clause s.cur) s.grp.core path ms).setStr { s.str with wait := .parked }).noteParked

end Sys2Proof.Machine
end

