-- ==== Sys2Proof/Machine/Cell.lean ====
section
/-!
DEFINITION. Exact-reduction words and their backing cells (09 R230 to R235), estimator cells and regions (09 R236 to R242), and the contributions on their way to both (08 R214).
-/
namespace Sys2Proof.Machine

/-- A 384-bit cell with an f32 contribution added (09 R231, R233). -/
def exactAdd (c : Nat) (x : Word) : Nat :=
  let sum := c % 2 ^ 376
  let fl := c / 2 ^ 376 % 8
  match F32.decode x.toNat with
  | .nan _ => sum + (fl ||| 4) * 2 ^ 376
  | .inf neg => sum + (fl ||| (if neg then 2 else 1)) * 2 ^ 376
  | .fin neg m e =>
    let v := m * 2 ^ (e + 149).toNat
    (if neg then (sum + (2 ^ 376 - v % 2 ^ 376)) % 2 ^ 376 else (sum + v) % 2 ^ 376) + fl * 2 ^ 376

/-- The cell a store of an f32 value leaves (09 R234). -/
def exactStore (x : Word) : Nat := exactAdd 0 x

/-- The f32 value of a cell (09 R234). -/
def exactLoad (c : Nat) : Word :=
  let sum := c % 2 ^ 376
  let fl := c / 2 ^ 376 % 8
  if 4 ≤ fl ∨ fl = 3 then 0x7FC00000
  else if fl = 1 then 0x7F800000
  else if fl = 2 then 0xFF800000
  else if 2 ^ 375 ≤ sum then BitVec.ofNat 32 (F32.round .rne true (2 ^ 376 - sum) (-149))
  else BitVec.ofNat 32 (F32.round .rne false sum (-149))

/-- A Sprout's and a cell's fields: N, W, S1, S2, EPOCH, OVF, REQ (09 R236). -/
structure ECell where
  n     : Nat
  w     : Nat
  s1    : Int
  s2    : Nat
  epoch : Nat
  ovf   : Bool
  req   : Bool
  deriving DecidableEq, Repr

/-- A signed field of n bits. -/
def sfield (v n : Nat) : Int := if v < 2 ^ (n - 1) then v else (v : Int) - 2 ^ n

/-- The low n bits of an integer. -/
def wrapInt (v : Int) (n : Nat) : Nat := (v % (2 ^ n : Int)).toNat

/-- The fields of an estimator cell's 256 bits (09 R236). -/
def ECell.ofNat (c : Nat) : ECell where
  n := c % 2 ^ 24
  w := c / 2 ^ 24 % 2 ^ 40
  s1 := sfield (c / 2 ^ 64 % 2 ^ 88) 88
  s2 := c / 2 ^ 152 % 2 ^ 96
  epoch := c / 2 ^ 248 % 64
  ovf := c / 2 ^ 254 % 2 = 1
  req := c / 2 ^ 255 % 2 = 1

/-- The 256 bits of an estimator cell. -/
def ECell.toNat (c : ECell) : Nat :=
  c.n + c.w * 2 ^ 24 + wrapInt c.s1 88 * 2 ^ 64 + c.s2 * 2 ^ 152 + c.epoch * 2 ^ 248 +
    (if c.ovf then 2 ^ 254 else 0) + (if c.req then 2 ^ 255 else 0)

/-- Fields of a region descriptor (09 R237). -/
def rCbase (d : List Word) : DWord := pair64 (wordAt d 0) (wordAt d 1)
def rCcount (d : List Word) : Nat := (wordAt d 2).toNat
def rXs (d : List Word) : Int := sfield (bits (wordAt d 3) 31 24) 8
def rNlim (d : List Word) : Nat := bits (wordAt d 3) 23 0
def rDshift (d : List Word) : Nat := bits (wordAt d 4) 11 8
def rCtarget (d : List Word) : Word := wordAt d 5
def rFloor (d : List Word) : Word := wordAt d 6
def rNmin (d : List Word) : Nat := bits (wordAt d 7) 23 0
def rSprout (d : List Word) : Word := wordAt d 8

/-- The first word of a region descriptor that breaks the values of R237. -/
def regionError (d : List Word) : Option Nat :=
  let w := wordAt d
  if (rCbase d).toNat % 32 ≠ 0 then some 0
  else if rCcount d = 0 ∨ 2 ^ 31 < rCcount d then some 2
  else if rNlim d = 0 then some 3
  else if bits (w 4) 31 12 ≠ 0 ∨ 8 < rDshift d ∨ bits (w 4) 7 6 ≠ 0 then some 4
  else if (F32.decode (w 5).toNat).isNan then some 5
  else if bit (w 6) 31 ∨ bits (w 6) 30 23 = 255 then some 6
  else if bits (w 7) 31 24 ≠ 0 then some 7
  else (List.range 6).findSome? fun i => if w (10 + i) ≠ 0 then some (10 + i) else none

/-- A cell with pending decay applied (09 R241). -/
def ECell.decay (c : ECell) (epoch dshift : Nat) : ECell :=
  let d := (epoch + 64 - c.epoch) % 64
  if d = 0 then c
  else
    let s := min 63 (d * dshift)
    { c with n := c.n / 2 ^ s, w := c.w / 2 ^ s, s2 := c.s2 / 2 ^ s, s1 := c.s1 / (2 ^ s : Int), epoch := epoch }

/-- An f32 value scaled by 2^k, rounded to an integer and saturated (09 R241). -/
def scaledInt (x : Word) (k : Int) (lo hi : Int) : Int :=
  match F32.decode x.toNat with
  | .nan _ => 0
  | .inf neg => if neg then lo else hi
  | .fin neg m e => max lo (min hi (roundInt .rne neg m (e + k)))

/-- Whether a sample is rejected: x or w a NaN, or w not above zero (09 R241). -/
def sampleBad (x w : Word) : Bool :=
  let a := F32.decode x.toNat
  let b := F32.decode w.toNat
  a.isNan || b.isNan || !(Num.fin false 0 0).lt b

/-- A sample added to a cell whose decay has been applied (09 R241). -/
def ECell.sample (c : ECell) (d : List Word) (x w : Word) : ECell :=
  let xq := scaledInt x (-(rXs d)) (-(2 ^ 23)) (2 ^ 23 - 1)
  let wq := (scaledInt w 8 0 65535).toNat
  { c with n := min (c.n + 1) (rNlim d),
           w := min (c.w + wq) (2 ^ 40 - 1), ovf := c.ovf || decide (2 ^ 40 - 1 < c.w + wq),
           s1 := sfield (wrapInt (c.s1 + wq * xq) 88) 88,
           s2 := min (c.s2 + wq * (xq * xq).toNat) (2 ^ 96 - 1), req := false }

/-- EPOCH and rejected count of a region as the slices hold them, by descriptor address (09 R238). -/
def State.regionCache (s : State) (a : DWord) : Word × Nat := Tab.get (0, 0) s.ectab a.toNat

/-- The state with a region cache replaced. -/
def State.setRegion (s : State) (a : DWord) (x : Word × Nat) : State := { s with ectab := Tab.put s.ectab a.toNat x }

/-- Apply a contribution at its cell. One whose cell has taken poison since it was issued is applied all the same (08 R214, 09 R233, R241;
DESIGN CHOICE, log 74). -/
def State.applyOne (s : State) (c : Contrib) : State :=
  if c.sample then
    let (ep, rej) := s.regionCache c.region
    if sampleBad c.x c.y then s.setRegion c.region (ep, satInc 32 rej)
    else
      let k := c.keys.headD 0
      let cell := ((ECell.ofNat (leNat (s.homeBytes k 32))).decay ep.toNat (rDshift c.desc)).sample c.desc c.x c.y
      s.homeWrite k (leBytes 32 cell.toNat)
  else s.putCell c.line c.runs c.keys (exactAdd (s.readCell c.line c.keys) c.x)

/-- EST_CONTRIBUTION_APPLY: the k-th contribution waiting is applied once, and leaves the buffer (08 R214). -/
def State.applyContrib (s : State) (k : Nat) : State :=
  match s.contribs[k]? with
  | none => s
  | some c => { s.applyOne c with contribs := s.contribs.eraseIdx k }

/-- Apply every waiting contribution that satisfies p, in order. -/
def State.drainContribs (s : State) (p : Contrib → Bool) : State :=
  let todo := s.contribs.filter p
  let s := todo.foldl State.applyOne s
  { s with contribs := s.contribs.filter fun c => !p c }

/-- Floor of the square root. -/
def isqrtFrom (n : Nat) : Nat → Nat → Nat
  | 0, r => if (r + 1) * (r + 1) ≤ n then r + 1 else r
  | i + 1, r => isqrtFrom n i (if (r + 2 ^ (i + 1)) * (r + 2 ^ (i + 1)) ≤ n then r + 2 ^ (i + 1) else r)
def isqrt (n : Nat) : Nat := isqrtFrom n (n.log2 / 2 + 1) 0

/-- A positive rational num / den rounded to nearest even in a format: its first bits and a sticky bit. -/
def Fmt.ofRat (f : Fmt) (neg : Bool) (num den : Nat) : Nat :=
  if num = 0 then f.round .rne neg 0 0
  else
    let k := f.p + 4 + den.log2 + 2 - min (den.log2 + 2) num.log2 + 200
    let q := num * 2 ^ k / den
    f.round .rne neg (2 * q + (if q * den = num * 2 ^ k then 0 else 1)) (-(k : Int) - 1)

/-- The square root of num / den rounded to nearest even in a format. -/
def Fmt.ofRoot (f : Fmt) (num den : Nat) : Nat :=
  if num = 0 then 0
  else
    let k := f.p + den.log2 + 200
    let n := num * 2 ^ (2 * k)
    let r := isqrt (n / den)
    f.round .rne false (2 * r + (if r * r * den = n then 0 else 1)) (-(k : Int) - 1)

/-- The power 2^k as a fraction. -/
def pow2Rat (k : Int) : Nat × Nat := (2 ^ k.toNat, 2 ^ (-k).toNat)

/-- The four words of ELOAD from a cell whose decay has been applied: mean, spread, relerr and status (09 R242). -/
def ECell.stats (c : ECell) (d : List Word) : List Word :=
  let xs := pow2Rat (rXs d)
  let zero := c.n = 0 ∨ c.w = 0
  let sq := c.s2 * c.w - (c.s1 * c.s1).toNat   -- natural subtraction: below zero counts as zero
  let mnum := c.s1.natAbs * xs.1
  let mden := c.w * xs.2
  let mean : Word := if zero then 0 else BitVec.ofNat 32 (F32.ofRat (decide (c.s1 < 0)) mnum mden)
  let mean := if c.s1 = 0 then 0 else mean
  -- σ² = 2^2XS · sq / W²
  let vnum := xs.1 * xs.1 * sq
  let vden := xs.2 * xs.2 * c.w * c.w
  let spread : Word := if zero then 0x7F800000 else BitVec.ofNat 32 (F32.ofRoot vnum vden)
  -- the larger of |mean| and FLOOR as a fraction
  let (fnum, fden) := match F32.decode (rFloor d).toNat with
    | .fin _ m e => let p := pow2Rat e; (m * p.1, p.2)
    | _ => (0, 1)
  let (bnum, bden) := if mnum * fden < fnum * mden then (fnum, fden) else (mnum, mden)
  -- relerr² = σ² / (N · b²)
  let relerr : Word :=
    if zero then 0x7F800000
    else if bnum = 0 then (if sq = 0 then 0 else 0x7F800000)
    else BitVec.ofNat 32 (F32.ofRoot (vnum * bden * bden) (vden * c.n * bnum * bnum))
  let lag := decide (c.n < rNmin d) || (F32.decode (rCtarget d).toNat).lt (F32.decode relerr.toNat)
  let status : Nat := c.n + (if c.ovf then 2 ^ 24 else 0) + (if zero then 2 ^ 25 else 0) +
    (if c.s2 = 2 ^ 96 - 1 then 2 ^ 26 else 0) + (if lag then 2 ^ 27 else 0) + (if c.req then 2 ^ 28 else 0)
  [mean, spread, relerr, BitVec.ofNat 32 status]

/-- Whether the cell of some statistics lags (09 R242). -/
def lagOf (st : List Word) : Bool := bit (wordAt st 3) 27

end Sys2Proof.Machine
end

