-- ==== Sys2Proof/Machine/Int.lean ====
section
/-!
DEFINITION. Integer arithmetic, logic, immediates and selection (02 R54 to R60), with the shapes of their results (02 R57,
04 R112, R113). Every meaning perf… is the instruction's own effect; its exec… runs it as a word of a clause.
-/
namespace Sys2Proof.Machine

/-- A function of one word over the lanes, computed once where the source is uniform (02 R57). -/
def State.map1 (s : State) (f : Word → Word) : Val → Val
  | .u x => .u (f x)
  | a => .g ((List.range s.lanes).map fun i => f (a.lane i))

/-- A function of two words over the lanes, computed once where both sources are uniform (02 R57). -/
def State.map2 (s : State) (f : Word → Word → Word) (a b : Val) : Val :=
  match a, b with
  | .u x, .u y => .u (f x y)
  | _, _ => .g ((List.range s.lanes).map fun i => f (a.lane i) (b.lane i))

/-- A function of three words over the lanes. -/
def State.map3 (s : State) (f : Word → Word → Word → Word) (a b c : Val) : Val :=
  match a, b, c with
  | .u x, .u y, .u z => .u (f x y z)
  | _, _, _ => .g ((List.range s.lanes).map fun i => f (a.lane i) (b.lane i) (c.lane i))

/-- Lane i of a pair (02 R54: the even register holds bits [31:0]). -/
def pairLane (v : List Val) (i : Nat) : DWord := pair64 ((v.getD 0 (.u 0)).lane i) ((v.getD 1 (.u 0)).lane i)

/-- 64-bit lane results as two registers, uniform where the sources are (02 R57). -/
def State.pairOut (s : State) (uni : Bool) (f : Nat → DWord) : List Val :=
  if uni then [.u ((f 0).setWidth 32), .u ((f 0).extractLsb' 32 32)]
  else [.g ((List.range s.lanes).map fun i => (f i).setWidth 32), .g ((List.range s.lanes).map fun i => (f i).extractLsb' 32 32)]

/-- A function of two pairs. -/
def State.mapPair2 (s : State) (f : DWord → DWord → DWord) (a b : List Val) : List Val :=
  s.pairOut ((a ++ b).all Val.isU) fun i => f (pairLane a i) (pairLane b i)

/-- The exact integer saturated to a type of 32 bits (02 R54). -/
def satI32 (x : Int) : Word := BitVec.ofInt 32 (max (-(2 ^ 31 : Int)) (min (2 ^ 31 - 1) x))
def satN32 (x : Int) : Word := BitVec.ofInt 32 (max 0 (min (2 ^ 32 - 1 : Int) x))

/-- IADD of one lane (02 R54). -/
def iaddOp (m : BitVec 2) (a b : Word) : Word :=
  if m = 0#2 then a + b else if m = 1#2 then satI32 (a.toInt + b.toInt) else satN32 (a.toNat + b.toNat)

/-- ISUB of one lane (02 R54). -/
def isubOp (m : BitVec 2) (a b : Word) : Word :=
  if m = 0#2 then a - b else if m = 1#2 then satI32 (a.toInt - b.toInt) else satN32 ((a.toNat : Int) - b.toNat)

/-- IMULH of one lane (02 R54). -/
def imulhOp (m : BitVec 2) (a b : Word) : Word :=
  let x : Int := if m = 1#2 then a.toNat else a.toInt
  let y : Int := if m = 0#2 then b.toInt else b.toNat
  (BitVec.ofInt 64 (x * y)).extractLsb' 32 32

/-- IMIN and IMAX of one lane (02 R54). -/
def iminOp (m : BitVec 2) (a b : Word) : Word :=
  if m = 0#2 then (if a.toInt ≤ b.toInt then a else b) else if a.toNat ≤ b.toNat then a else b
def imaxOp (m : BitVec 2) (a b : Word) : Word :=
  if m = 0#2 then (if a.toInt ≤ b.toInt then b else a) else if a.toNat ≤ b.toNat then b else a

/-- The shift count of a word (02 R54). -/
def shCount (b : Word) : Nat := b.toNat % 32

/-- Shifts and rotation of one lane (02 R54). -/
def shlOp (a b : Word) : Word := a <<< shCount b
def shrOp (a b : Word) : Word := a >>> shCount b
def sarOp (a b : Word) : Word := a.sshiftRight (shCount b)
def rotlOp (a b : Word) : Word := a.rotateLeft (shCount b)

/-- The cut length of a bit field (02 R55). -/
def fieldLen (b : Word) : Nat := min (b.toNat / 256 % 32) (32 - shCount b)

/-- The mask of a bit field (02 R55). -/
def fieldMask (b : Word) : Word := BitVec.ofNat 32 ((2 ^ fieldLen b - 1) * 2 ^ shCount b)

/-- BFX of one lane (02 R55). -/
def bfxOp (m : BitVec 2) (a b : Word) : Word :=
  let n := fieldLen b
  let f := (a &&& fieldMask b) >>> shCount b
  if m = 1#2 ∧ 0 < n ∧ f.getLsbD (n - 1) then f ||| ~~~ BitVec.ofNat 32 (2 ^ n - 1) else f

/-- BFI of one lane (02 R55). -/
def bfiOp (d a b : Word) : Word := (d &&& ~~~ fieldMask b) ||| ((a <<< shCount b) &&& fieldMask b)

/-- POPC, CLZ and BREV of one lane (02 R54). -/
def popcOp (a : Word) : Word := BitVec.ofNat 32 ((List.range 32).filter fun i => a.getLsbD i).length
def clzOp (a : Word) : Word := BitVec.ofNat 32 (if a = 0 then 32 else 31 - a.toNat.log2)
def brevOp (a : Word) : Word := BitVec.ofNat 32 ((List.range 32).foldl (fun n i => if a.getLsbD i then n + 2 ^ (31 - i) else n) 0)

/-- A sum or difference that keeps affine shape: add of any two of tags U and A (02 R57, 04 R112). -/
def State.affAdd (s : State) (f : Word → Word → Word) (a b : Val) : Val :=
  match a, b with
  | .a x t, .a y v => .a (f x y) (f t v)
  | .a x t, .u y => .a (f x y) t
  | .u x, .a y v => .a (f x y) (f 0 v)
  | _, _ => s.map2 f a b

/-- A product or left shift of an affine value by a uniform one (02 R57, 04 R112). -/
def State.affScale (s : State) (f : Word → Word → Word) (a b : Val) : Val :=
  match a, b with
  | .a x t, .u y => .a (f x y) (f t y)
  | _, _ => s.map2 f a b

/-- The result of a two-source instruction, written (02 R51, R54). -/
def State.alu2 (s : State) (f : Word → Word → Word) (d a b : BitVec 7) : Res :=
  .done (s.aluWrite d [s.map2 f (s.read a) (s.read b)])

/-- The result of a one-source instruction. -/
def State.alu1 (s : State) (f : Word → Word) (d a : BitVec 7) : Res := .done (s.aluWrite d [s.map1 f (s.read a)])

/-- The result of a 64-bit two-source instruction. -/
def State.alu64 (s : State) (f : DWord → DWord → DWord) (d a b : BitVec 7) : Res :=
  .done (s.aluWrite d (s.mapPair2 f (s.readN a 2) (s.readN b 2)))

/-- The effect of IADD. -/
def perfIadd (_n : BitVec 1) (m : BitVec 2) (d a b : BitVec 7) (s : State) : Res :=
  let v := if m = 0#2 then s.affAdd (· + ·) (s.read a) (s.read b) else s.map2 (iaddOp m) (s.read a) (s.read b)
  .done (s.aluWrite d [v])

/-- The effect of ISUB. -/
def perfIsub (_n : BitVec 1) (m : BitVec 2) (d a b : BitVec 7) (s : State) : Res :=
  let v := if m = 0#2 then s.affAdd (· - ·) (s.read a) (s.read b) else s.map2 (isubOp m) (s.read a) (s.read b)
  .done (s.aluWrite d [v])

/-- The effect of IMUL. -/
def perfImul (_n : BitVec 1) (d a b : BitVec 7) (s : State) : Res :=
  .done (s.aluWrite d [s.affScale (· * ·) (s.read a) (s.read b)])

/-- The effect of IMULH. -/
def perfImulh (_n : BitVec 1) (m : BitVec 2) (d a b : BitVec 7) (s : State) : Res := s.alu2 (imulhOp m) d a b

/-- The effect of IMAC. -/
def perfImac (_n : BitVec 1) (d a b : BitVec 7) (s : State) : Res :=
  .done (s.aluWrite d [s.map3 (fun x y z => z + x * y) (s.read a) (s.read b) (s.read d)])

/-- The effect of IMIN. -/
def perfImin (_n : BitVec 1) (m : BitVec 2) (d a b : BitVec 7) (s : State) : Res := s.alu2 (iminOp m) d a b

/-- The effect of IMAX. -/
def perfImax (_n : BitVec 1) (m : BitVec 2) (d a b : BitVec 7) (s : State) : Res := s.alu2 (imaxOp m) d a b

/-- The effect of IADD64. -/
def perfIadd64 (_n : BitVec 1) (d a b : BitVec 7) (s : State) : Res := s.alu64 (· + ·) d a b

/-- The effect of ISUB64. -/
def perfIsub64 (_n : BitVec 1) (d a b : BitVec 7) (s : State) : Res := s.alu64 (· - ·) d a b

/-- The effect of AND. -/
def perfAnd (_n : BitVec 1) (d a b : BitVec 7) (s : State) : Res := s.alu2 (· &&& ·) d a b

/-- The effect of OR. -/
def perfOr (_n : BitVec 1) (d a b : BitVec 7) (s : State) : Res := s.alu2 (· ||| ·) d a b

/-- The effect of XOR. -/
def perfXor (_n : BitVec 1) (d a b : BitVec 7) (s : State) : Res := s.alu2 (· ^^^ ·) d a b

/-- The effect of ANDN. -/
def perfAndn (_n : BitVec 1) (d a b : BitVec 7) (s : State) : Res := s.alu2 (fun x y => x &&& ~~~ y) d a b

/-- The effect of SHL. -/
def perfShl (_n : BitVec 1) (d a b : BitVec 7) (s : State) : Res :=
  .done (s.aluWrite d [s.affScale shlOp (s.read a) (s.read b)])

/-- The effect of SHR. -/
def perfShr (_n : BitVec 1) (d a b : BitVec 7) (s : State) : Res := s.alu2 shrOp d a b

/-- The effect of SAR. -/
def perfSar (_n : BitVec 1) (d a b : BitVec 7) (s : State) : Res := s.alu2 sarOp d a b

/-- The effect of ROTL. -/
def perfRotl (_n : BitVec 1) (d a b : BitVec 7) (s : State) : Res := s.alu2 rotlOp d a b

/-- The effect of BFX. -/
def perfBfx (_n : BitVec 1) (m : BitVec 2) (d a b : BitVec 7) (s : State) : Res := s.alu2 (bfxOp m) d a b

/-- The effect of BFI. -/
def perfBfi (_n : BitVec 1) (d a b : BitVec 7) (s : State) : Res :=
  .done (s.aluWrite d [s.map3 (fun x y z => bfiOp z x y) (s.read a) (s.read b) (s.read d)])

/-- The effect of POPC. -/
def perfPopc (_n : BitVec 1) (d a : BitVec 7) (s : State) : Res := s.alu1 popcOp d a

/-- The effect of CLZ. -/
def perfClz (_n : BitVec 1) (d a : BitVec 7) (s : State) : Res := s.alu1 clzOp d a

/-- The effect of BREV. -/
def perfBrev (_n : BitVec 1) (d a : BitVec 7) (s : State) : Res := s.alu1 brevOp d a

/-- Whether bits 0 .. W-1 of a mask are all equal. -/
def sameBits (k : DWord) (w : Nat) : Bool := k &&& onesMask w = 0 || k &&& onesMask w = onesMask w

/-- The effect of SEL: U only where both data sources and k are uniform (02 R57, R60). -/
def perfSel (_n : BitVec 1) (k : BitVec 2) (d a b : BitVec 7) (s : State) : Res :=
  let m := s.readK k.toNat
  let x := s.read a
  let y := s.read b
  let v := if x.isU && y.isU && sameBits m s.lanes then .u (if m.getLsbD 0 then x.lane 0 else y.lane 0)
    else .g ((List.range s.lanes).map fun i => if m.getLsbD i then x.lane i else y.lane i)
  .done (s.aluWrite d [v])

/-- The effect of MOV: the shape of the source (02 R57). -/
def perfMov (_n : BitVec 1) (d a : BitVec 7) (s : State) : Res := .done (s.aluWrite d [s.read a])

/-- The effect of MOV64: each register takes the shape of its source (02 R57). -/
def perfMov64 (_n : BitVec 1) (d a : BitVec 7) (s : State) : Res := .done (s.aluWrite d (s.readN a 2))

/-- An immediate sign-extended, and zero-extended (01 R30, 02 R58). -/
def simm (i : BitVec 11) : Word := i.signExtend 32
def zimm (i : BitVec 11) : Word := i.setWidth 32

/-- The effect of IADDI. -/
def perfIaddi (d a : BitVec 7) (i : BitVec 11) (s : State) : Res :=
  .done (s.aluWrite d [s.affAdd (· + ·) (s.read a) (.u (simm i))])

/-- The effect of ANDI. -/
def perfAndi (d a : BitVec 7) (i : BitVec 11) (s : State) : Res := s.alu1 (· &&& zimm i) d a

/-- The effect of ORI. -/
def perfOri (d a : BitVec 7) (i : BitVec 11) (s : State) : Res := s.alu1 (· ||| zimm i) d a

/-- The effect of XORI. -/
def perfXori (d a : BitVec 7) (i : BitVec 11) (s : State) : Res := s.alu1 (· ^^^ zimm i) d a

/-- The effect of SHLI. -/
def perfShli (d a : BitVec 7) (i : BitVec 11) (s : State) : Res :=
  .done (s.aluWrite d [s.affScale shlOp (s.read a) (.u (zimm i))])

/-- The effect of SHRI. -/
def perfShri (d a : BitVec 7) (i : BitVec 11) (s : State) : Res := s.alu1 (fun x => shrOp x (zimm i)) d a

/-- The effect of SARI. -/
def perfSari (d a : BitVec 7) (i : BitVec 11) (s : State) : Res := s.alu1 (fun x => sarOp x (zimm i)) d a

/-- The effect of IMULI. -/
def perfImuli (d a : BitVec 7) (i : BitVec 11) (s : State) : Res :=
  .done (s.aluWrite d [s.affScale (· * ·) (s.read a) (.u (simm i))])

/-- The effect of IADDI64. -/
def perfIaddi64 (d a : BitVec 7) (i : BitVec 11) (s : State) : Res :=
  let x := s.readN a 2
  .done (s.aluWrite d (s.pairOut (x.all Val.isU) fun j => pairLane x j + i.signExtend 64))

/-- The effect of LDI.LO. -/
def perfLdiLo (d : BitVec 7) (i : BitVec 18) (s : State) : Res := .done (s.aluWrite d [.u (i.setWidth 32)])

/-- The effect of LDI.HI: the low 18 bits of the destination stay (02 R58). -/
def perfLdiHi (d : BitVec 7) (i : BitVec 14) (s : State) : Res :=
  .done (s.aluWrite d [s.map1 (fun x => i ++ x.setWidth 18) (s.read d)])

/-- The effect of LDI.S. -/
def perfLdiS (d : BitVec 7) (i : BitVec 18) (s : State) : Res := .done (s.aluWrite d [.u (i.signExtend 32)])

/-- The effect of LDIF. -/
def perfLdif (d : BitVec 7) (i : BitVec 18) (s : State) : Res := .done (s.aluWrite d [.u (i ++ 0#14)])

/-- The effect of AFFINE (04 R128, R113). -/
def perfAffine (d a : BitVec 7) (i : BitVec 11) (s : State) : Res :=
  let x := (s.read a).lane 0
  .done (s.aluWrite d [if i = 0#11 then .u x else .a x (simm i)])

/-! ## The meanings, as exec runs them -/

/-- IADD as a word of the clause in progress (R54). -/
def execIadd (n : BitVec 1) (m : BitVec 2) (d : BitVec 7) (a : BitVec 7) (b : BitVec 7) (s : State) :
    Host.Outcome State Fault Refusal := s.runWord (.iadd n m d a b) (perfIadd n m d a b)

/-- ISUB as a word of the clause in progress (R54). -/
def execIsub (n : BitVec 1) (m : BitVec 2) (d : BitVec 7) (a : BitVec 7) (b : BitVec 7) (s : State) :
    Host.Outcome State Fault Refusal := s.runWord (.isub n m d a b) (perfIsub n m d a b)

/-- IMUL as a word of the clause in progress (R54). -/
def execImul (n : BitVec 1) (d : BitVec 7) (a : BitVec 7) (b : BitVec 7) (s : State) :
    Host.Outcome State Fault Refusal := s.runWord (.imul n d a b) (perfImul n d a b)

/-- IMULH as a word of the clause in progress (R54). -/
def execImulh (n : BitVec 1) (m : BitVec 2) (d : BitVec 7) (a : BitVec 7) (b : BitVec 7) (s : State) :
    Host.Outcome State Fault Refusal := s.runWord (.imulh n m d a b) (perfImulh n m d a b)

/-- IMAC as a word of the clause in progress (R54). -/
def execImac (n : BitVec 1) (d : BitVec 7) (a : BitVec 7) (b : BitVec 7) (s : State) :
    Host.Outcome State Fault Refusal := s.runWord (.imac n d a b) (perfImac n d a b)

/-- IMIN as a word of the clause in progress (R54). -/
def execImin (n : BitVec 1) (m : BitVec 2) (d : BitVec 7) (a : BitVec 7) (b : BitVec 7) (s : State) :
    Host.Outcome State Fault Refusal := s.runWord (.imin n m d a b) (perfImin n m d a b)

/-- IMAX as a word of the clause in progress (R54). -/
def execImax (n : BitVec 1) (m : BitVec 2) (d : BitVec 7) (a : BitVec 7) (b : BitVec 7) (s : State) :
    Host.Outcome State Fault Refusal := s.runWord (.imax n m d a b) (perfImax n m d a b)

/-- IADD64 as a word of the clause in progress (R54). -/
def execIadd64 (n : BitVec 1) (d : BitVec 7) (a : BitVec 7) (b : BitVec 7) (s : State) :
    Host.Outcome State Fault Refusal := s.runWord (.iadd64 n d a b) (perfIadd64 n d a b)

/-- ISUB64 as a word of the clause in progress (R54). -/
def execIsub64 (n : BitVec 1) (d : BitVec 7) (a : BitVec 7) (b : BitVec 7) (s : State) :
    Host.Outcome State Fault Refusal := s.runWord (.isub64 n d a b) (perfIsub64 n d a b)

/-- AND as a word of the clause in progress (R54). -/
def execAnd (n : BitVec 1) (d : BitVec 7) (a : BitVec 7) (b : BitVec 7) (s : State) :
    Host.Outcome State Fault Refusal := s.runWord (.and n d a b) (perfAnd n d a b)

/-- OR as a word of the clause in progress (R54). -/
def execOr (n : BitVec 1) (d : BitVec 7) (a : BitVec 7) (b : BitVec 7) (s : State) :
    Host.Outcome State Fault Refusal := s.runWord (.or n d a b) (perfOr n d a b)

/-- XOR as a word of the clause in progress (R54). -/
def execXor (n : BitVec 1) (d : BitVec 7) (a : BitVec 7) (b : BitVec 7) (s : State) :
    Host.Outcome State Fault Refusal := s.runWord (.xor n d a b) (perfXor n d a b)

/-- ANDN as a word of the clause in progress (R54). -/
def execAndn (n : BitVec 1) (d : BitVec 7) (a : BitVec 7) (b : BitVec 7) (s : State) :
    Host.Outcome State Fault Refusal := s.runWord (.andn n d a b) (perfAndn n d a b)

/-- SHL as a word of the clause in progress (R54). -/
def execShl (n : BitVec 1) (d : BitVec 7) (a : BitVec 7) (b : BitVec 7) (s : State) :
    Host.Outcome State Fault Refusal := s.runWord (.shl n d a b) (perfShl n d a b)

/-- SHR as a word of the clause in progress (R54). -/
def execShr (n : BitVec 1) (d : BitVec 7) (a : BitVec 7) (b : BitVec 7) (s : State) :
    Host.Outcome State Fault Refusal := s.runWord (.shr n d a b) (perfShr n d a b)

/-- SAR as a word of the clause in progress (R54). -/
def execSar (n : BitVec 1) (d : BitVec 7) (a : BitVec 7) (b : BitVec 7) (s : State) :
    Host.Outcome State Fault Refusal := s.runWord (.sar n d a b) (perfSar n d a b)

/-- ROTL as a word of the clause in progress (R54). -/
def execRotl (n : BitVec 1) (d : BitVec 7) (a : BitVec 7) (b : BitVec 7) (s : State) :
    Host.Outcome State Fault Refusal := s.runWord (.rotl n d a b) (perfRotl n d a b)

/-- BFX as a word of the clause in progress (R55). -/
def execBfx (n : BitVec 1) (m : BitVec 2) (d : BitVec 7) (a : BitVec 7) (b : BitVec 7) (s : State) :
    Host.Outcome State Fault Refusal := s.runWord (.bfx n m d a b) (perfBfx n m d a b)

/-- BFI as a word of the clause in progress (R55). -/
def execBfi (n : BitVec 1) (d : BitVec 7) (a : BitVec 7) (b : BitVec 7) (s : State) :
    Host.Outcome State Fault Refusal := s.runWord (.bfi n d a b) (perfBfi n d a b)

/-- POPC as a word of the clause in progress (R54). -/
def execPopc (n : BitVec 1) (d : BitVec 7) (a : BitVec 7) (s : State) :
    Host.Outcome State Fault Refusal := s.runWord (.popc n d a) (perfPopc n d a)

/-- CLZ as a word of the clause in progress (R54). -/
def execClz (n : BitVec 1) (d : BitVec 7) (a : BitVec 7) (s : State) :
    Host.Outcome State Fault Refusal := s.runWord (.clz n d a) (perfClz n d a)

/-- BREV as a word of the clause in progress (R54). -/
def execBrev (n : BitVec 1) (d : BitVec 7) (a : BitVec 7) (s : State) :
    Host.Outcome State Fault Refusal := s.runWord (.brev n d a) (perfBrev n d a)

/-- SEL as a word of the clause in progress (R60). -/
def execSel (n : BitVec 1) (k : BitVec 2) (d : BitVec 7) (a : BitVec 7) (b : BitVec 7) (s : State) :
    Host.Outcome State Fault Refusal := s.runWord (.sel n k d a b) (perfSel n k d a b)

/-- MOV as a word of the clause in progress (R54). -/
def execMov (n : BitVec 1) (d : BitVec 7) (a : BitVec 7) (s : State) :
    Host.Outcome State Fault Refusal := s.runWord (.mov n d a) (perfMov n d a)

/-- MOV64 as a word of the clause in progress (R54). -/
def execMov64 (n : BitVec 1) (d : BitVec 7) (a : BitVec 7) (s : State) :
    Host.Outcome State Fault Refusal := s.runWord (.mov64 n d a) (perfMov64 n d a)

/-- IADDI as a word of the clause in progress (R58). -/
def execIaddi (d : BitVec 7) (a : BitVec 7) (i : BitVec 11) (s : State) :
    Host.Outcome State Fault Refusal := s.runWord (.iaddi d a i) (perfIaddi d a i)

/-- ANDI as a word of the clause in progress (R58). -/
def execAndi (d : BitVec 7) (a : BitVec 7) (i : BitVec 11) (s : State) :
    Host.Outcome State Fault Refusal := s.runWord (.andi d a i) (perfAndi d a i)

/-- ORI as a word of the clause in progress (R58). -/
def execOri (d : BitVec 7) (a : BitVec 7) (i : BitVec 11) (s : State) :
    Host.Outcome State Fault Refusal := s.runWord (.ori d a i) (perfOri d a i)

/-- XORI as a word of the clause in progress (R58). -/
def execXori (d : BitVec 7) (a : BitVec 7) (i : BitVec 11) (s : State) :
    Host.Outcome State Fault Refusal := s.runWord (.xori d a i) (perfXori d a i)

/-- SHLI as a word of the clause in progress (R58). -/
def execShli (d : BitVec 7) (a : BitVec 7) (i : BitVec 11) (s : State) :
    Host.Outcome State Fault Refusal := s.runWord (.shli d a i) (perfShli d a i)

/-- SHRI as a word of the clause in progress (R58). -/
def execShri (d : BitVec 7) (a : BitVec 7) (i : BitVec 11) (s : State) :
    Host.Outcome State Fault Refusal := s.runWord (.shri d a i) (perfShri d a i)

/-- SARI as a word of the clause in progress (R58). -/
def execSari (d : BitVec 7) (a : BitVec 7) (i : BitVec 11) (s : State) :
    Host.Outcome State Fault Refusal := s.runWord (.sari d a i) (perfSari d a i)

/-- IMULI as a word of the clause in progress (R58). -/
def execImuli (d : BitVec 7) (a : BitVec 7) (i : BitVec 11) (s : State) :
    Host.Outcome State Fault Refusal := s.runWord (.imuli d a i) (perfImuli d a i)

/-- IADDI64 as a word of the clause in progress (R58). -/
def execIaddi64 (d : BitVec 7) (a : BitVec 7) (i : BitVec 11) (s : State) :
    Host.Outcome State Fault Refusal := s.runWord (.iaddi64 d a i) (perfIaddi64 d a i)

/-- LDI_LO as a word of the clause in progress (R58). -/
def execLdiLo (d : BitVec 7) (i : BitVec 18) (s : State) :
    Host.Outcome State Fault Refusal := s.runWord (.ldiLo d i) (perfLdiLo d i)

/-- LDI_HI as a word of the clause in progress (R58). -/
def execLdiHi (d : BitVec 7) (i : BitVec 14) (s : State) :
    Host.Outcome State Fault Refusal := s.runWord (.ldiHi d i) (perfLdiHi d i)

/-- LDI_S as a word of the clause in progress (R58). -/
def execLdiS (d : BitVec 7) (i : BitVec 18) (s : State) :
    Host.Outcome State Fault Refusal := s.runWord (.ldiS d i) (perfLdiS d i)

/-- LDIF as a word of the clause in progress (R58). -/
def execLdif (d : BitVec 7) (i : BitVec 18) (s : State) :
    Host.Outcome State Fault Refusal := s.runWord (.ldif d i) (perfLdif d i)

/-- AFFINE as a word of the clause in progress (R128). -/
def execAffine (d : BitVec 7) (a : BitVec 7) (i : BitVec 11) (s : State) :
    Host.Outcome State Fault Refusal := s.runWord (.affine d a i) (perfAffine d a i)

end Sys2Proof.Machine
end

