-- ==== Sys2Proof/Machine/Lsu.lean ====
section
/-!
DEFINITION. Loads and stores of format M: lane addresses and their checks before any access performs (02 R62 to R65, 05 R158,
07 R163 to R165, R178 to R180, 08 R204, R205, R208; 09 R230, R234, R236).
-/
namespace Sys2Proof.Machine

/-- Where a lane's access goes once checked: the place, and for an exact word its cell's bytes and their pages, and the backing
of its line as runs of keys. -/
structure MLoc where
  loc  : Loc
  keys : List Nat := []
  cx   : List Xlat := []
  runs : List (Nat × Nat) := []
  deriving DecidableEq, Repr

/-- The pages a place was translated on: base and log2 size (15 R344). -/
def MLoc.pages (l : MLoc) : List (Nat × Nat) :=
  (match l.loc with
   | .mem x => [(x.base, x.size)]
   | .scr _ => []) ++ l.cx.map fun x => (x.base, x.size)

/-- What the check of one lane answers. -/
inductive LaneAns where
  | ok (l : MLoc)
  | bad (cause : Nat) (addr : DWord) (info : Nat := 0)
  | miss (path : Nat) (ms : List Miss)
  deriving DecidableEq, Repr

/-- The checks of an instruction's lanes together: the lowest lane that traps, else the pages not present, else the places
(02 R64). -/
def gather (as : List (Nat × LaneAns)) : Except Res (List (Nat × MLoc)) :=
  match as.findSome? fun a => match a.2 with
    | .bad c addr info => some (Res.trap { cause := c, info := BitVec.ofNat 32 (a.1 * 16 + info), addr := addr })
    | _ => none with
  | some r => .error r
  | none =>
    let ms := as.flatMap fun a => match a.2 with
      | .miss _ ms => ms.map fun m => { m with lane := a.1 }
      | _ => []
    match as.findSome? fun a => match a.2 with
      | .miss p _ => some p
      | _ => none with
    | some p => .error (.park p ms)
    | none => .ok (as.filterMap fun a => match a.2 with
      | .ok l => some (a.1, l)
      | _ => none)

/-- A page that is not present, as the miss of one lane. -/
def missOf (path : Nat) (va : DWord) (acc : AccBits) : LaneAns :=
  .miss path [{ vpn := vpnOf va, acc := acc, va := va, path := some path }]

/-- An answer of a scratchpad access; TRAPADDR holds the offset (07 R163). -/
def scrAns (p : Party) (off size : Nat) : LaneAns :=
  match scrAcc p off size with
  | .ok l => .ok { loc := l }
  | .bad c => .bad c (BitVec.ofNat 64 off)
  | .miss => .bad cPROT (BitVec.ofNat 64 off)

/-- The page of one piece of a backing cell: KIND where it is no local page of kind 100, R230's own words going before R176 for
a page of kind 100 with another target (09 R230). Its WRITE and SYS bits are not regarded (DESIGN CHOICE, log 51). -/
def State.cellPage (s : State) (p : Party) (va : DWord) : Xl :=
  let a := va.toNat % 2 ^ 57
  match s.transFor p a with
  | .ok x => if x.kind ≠ 4 ∨ keyTarget x.key ≠ 0 then .bad cKIND else .ok x
  | .bad c =>
    match s.rawLeaf a 5 (dbits s.dev.ctl.ptRoot 51 12 * 4096) with
    | some e => if c = cPROT ∧ dbits e 9 7 = 4 ∧ 1 ≤ dbits e 61 56 ∧ dbits e 61 56 ≤ 13 then .bad cKIND else .bad c
    | none => .bad c
  | .absent => .absent

/-- The backing of the line that an exact word lies in, as runs of keys, as far as its pages are there (09 R235). back is the
virtual address of the line's first cell. -/
def State.lineRuns (s : State) (p : Party) (back : Nat) : List (Nat × Nat) :=
  let room := min 768 (4096 - back % 4096)
  let run := fun (a n : Nat) => match s.cellPage p (BitVec.ofNat 64 a) with
    | .ok y => if n = 0 then [] else [(y.key, n)]
    | _ => []
  let r1 := run back room
  let r2 := if room < 768 then run (back + room) (768 - room) else []
  match r1, r2 with
  | [a], [b] => if a.1 < b.1 then [a, b] else [b, a]
  | _, _ => r1 ++ r2

/-- The backing cell of an exact word: located, translated and checked at the core for a local word; a peer's word stands in
the model's copy of the peer's cells (09 R230, R232; log 17). -/
def State.exactCell (s : State) (p : Party) (va : DWord) (x : Xlat) (acc : AccBits) : LaneAns :=
  let t := keyTarget x.key
  if t ≠ 0 then
    let cell := fun (k : Nat) => memKey (16 + t) (12 * (k % 2 ^ 52) % 2 ^ 52)
    .ok { loc := .mem x, keys := (List.range 48).map fun i => cell x.key + i, runs := [(cell (x.key / 64 * 64), 768)] }
  else
    let c := s.dev.ctl
    let cell := c.xaccBack.toNat + 12 * (va.toNat - c.xaccWin.toNat)
    if va.toNat < c.xaccWin.toNat then .bad cPROT va
    else if 2 ^ 64 ≤ cell ∨ !canonical (BitVec.ofNat 64 cell) then .bad cPROT (BitVec.ofNat 64 cell)
    else
      let cva : DWord := BitVec.ofNat 64 cell
      let first := s.cellPage p cva
      let room := match first with
        | .ok y => min 48 (2 ^ y.size - cell % 2 ^ y.size)
        | _ => min 48 (4096 - cell % 4096)
      let nva : DWord := BitVec.ofNat 64 (cell + room)
      let second := if room < 48 then
          some (if 2 ^ 64 ≤ cell + room ∨ !canonical nva then .bad cPROT else s.cellPage p nva) else none
      let before := 48 * (va.toNat / 4 % 16)
      let runs := if cell < before then [] else s.lineRuns p (cell - before)
      match first, second with
      | .bad e, _ => .bad e cva
      | .ok _, some (.bad e) => .bad e nva
      | .absent, some (.bad e) => .bad e nva
      | .ok y, none => .ok { loc := .mem x, keys := (List.range 48).map fun i => y.key + i, cx := [y], runs := runs }
      | .ok y, some (.ok z) =>
        .ok { loc := .mem x, cx := [y, z], runs := runs,
              keys := ((List.range room).map fun i => y.key + i) ++ (List.range (48 - room)).map fun i => z.key + i }
      | .ok _, some .absent => missOf 1 nva acc
      | .absent, none => missOf 1 cva acc
      | .absent, some (.ok _) => missOf 1 cva acc
      | .absent, some .absent =>
        .miss 1 [{ vpn := vpnOf cva, acc := acc, va := cva, path := some 1 },
                 { vpn := vpnOf nva, acc := acc, va := nva, path := some 1 }]

/-- Whether a cell's slice finds poison in it: in bytes its overlay does not hold; a link that is down answers with poison (09 R235, 15
R350, 18 R397). -/
def State.cellPoison (s : State) (line : Nat) (keys : List Nat) : Bool :=
  keys.any fun k => !s.targetUp k || (Tab.find? (s.overlayLine line) k).isNone && s.poisonedAt k

/-- Whether an access takes place at home whatever the core's copies hold: another kind or order of page, another target, or an
atomic's scope (07 R182, 08 R200, R201). -/
def atHome (x : Xlat) (sc : Scope) : Bool := decide (2 ≤ sc) || keyTarget x.key ≠ 0 || x.ord ≠ 0 || x.kind ≠ 0

/-- Whether bytes that a group reads are poisoned: those its containment buffer does not hold, as its core sees them (07 R188,
15 R350). -/
def State.readPoison (s : State) (core : Nat) (x : Xlat) (n : Nat) (sc : Scope) : Bool :=
  (List.range n).any fun i =>
    (s.grp.bufByte (x.key + i)).isNone && s.viewPoison core (x.key + i) 1 (atHome x sc)

/-- A global access after alignment and range: translated, its kind admitted, its exact cell located, and poison found
where it reads, of backing bytes once the overlay's copies have gone there (02 R62, 07 R178, 09 R230, R235, 15 R350). sc is the scope of
an atomic. -/
def State.globAns (s : State) (p : Party) (va : DWord) (size : Nat) (acc : AccBits) (kinds : List Nat) (path : Nat)
    (sc : Scope := 0) : LaneAns :=
  match s.globAcc p va acc kinds with
  | .bad c => .bad c va
  | .miss => missOf path va acc
  | .ok (.scr _) => .bad cPROT va
  | .ok (.mem x) =>
    if x.kind = 3 then
      match s.exactCell p va x acc with
      | .ok l =>
        let regards := acc = 1 || (acc % 2 = 1 && keyTarget x.key = 0)   -- an XADD to a peer is dropped there (18 R397)
        if regards && (s.grp.bufByte x.key).isNone && s.cellPoison (x.key / 64) l.keys then .bad cPOISON va else .ok l
      | r => r
    else if acc % 2 = 1 && (if x.kind = 4 then s.evictOver x.key size else s).readPoison p.core x size sc then .bad cPOISON va
    else .ok { loc := .mem x }

/-- The page kinds a format-M access of a size may reach (07 R178). -/
def fmtKinds (handler : Bool) (size : Nat) : List Nat :=
  [0, 1, 2] ++ (if size = 4 then [3] else []) ++ (if handler then [4] else [])

/-- A lane of a load (02 R62, 07 R164). -/
def State.ldAns (s : State) (va : DWord) (size : Nat) : LaneAns :=
  let p := s.party
  if inAperture va then scrAns p (va.toNat % 2 ^ 32) size
  else if va.toNat % size ≠ 0 then .bad cALIGN va
  else s.globAns p va size 1 (fmtKinds p.handler size) 0

/-- Whether bytes lie within one write range of the node (05 R158). -/
def inRange (r : List Word) (group : Nat) (va : DWord) (size : Nat) : Bool :=
  (List.range 4).any fun k =>
    let w := fun i => wordAt r (24 + 4 * k + i)
    let start := pair64 (w 0) (w 1) + BitVec.ofNat 64 group * (w 2).signExtend 64
    (w 3) ≠ 0 && decide ((va - start).toNat + size ≤ (w 3).toNat)

/-- A lane of a store: the write ranges come before translation (05 R158). -/
def State.stAns (s : State) (va : DWord) (size : Nat) : LaneAns :=
  let p := s.party
  let r := s.nodeRec s.grp.node
  if inAperture va then scrAns p (va.toNat % 2 ^ 32) size
  else if va.toNat % size ≠ 0 then .bad cALIGN va
  else if !canonical va then .bad cPROT va
  else if nCheckw r && !inRange r s.grp.group va size then .bad cWRANGE va
  else s.globAns p va size 2 (fmtKinds p.handler size) 0

/-- The cluster of the current stream. -/
def State.cluster (s : State) : Nat := s.grp.cluster

/-- Mark the pages of an access: ACCESSED, DIRTY, TLBs (07 R177). -/
def State.touchLoc (s : State) (l : MLoc) (acc : AccBits) : State :=
  let s := match l.loc with
    | .scr _ => s
    | .mem x => s.touch s.cluster x acc
  l.cx.foldl (fun s x => s.touch s.cluster x acc) s

/-- The bytes one lane loads, and the state after (02 R63, 07 R188, 09 R234, R235, R236). -/
def State.loadLoc (s : State) (l : MLoc) (n : Nat) : List Byte × State :=
  let s := s.touchLoc l 1
  match l.loc with
  | .scr off => s.scrLoad s.cur.gid off n
  | .mem x =>
    if x.kind = 3 then
      ((List.range 4).map fun i => (s.grp.bufByte (x.key + i)).getD
        ((leBytes 4 (exactLoad (s.readCell (x.key / 64) l.keys)).toNat).getD i 0), s.backRuns (l.keys.map fun k => (k, 1)))
    else
      let s := if x.kind = 4 then s.evictOver x.key n else s
      s.loadPlain s.cur.gid x n

/-- The current bundle's SPILLs whose bytes a store is about to write go before it: both travel on the LSU path in program order
(08 R199). -/
def State.spillsFirst (s : State) (k n : Nat) : State :=
  let hit := s.bun.fwd.any fun e => e.data.any fun d => decide (d.1 < k + n) && decide (k < d.1 + d.2.2.length)
  if hit then s.drainFwd s.cur.gid s.cur.bid s.bun.fwd.length else s

/-- A store to an exact word: the cell at its slice, or, under CONTAIN, the buffer, which holds the cell for its commit and
the bytes that a load returns (07 R188, R189, 09 R234). -/
def State.storeExact (s : State) (l : MLoc) (key : Nat) (x : Word) : State :=
  let v := exactStore x
  if s.contains s.grp then
    let s := s.bufStore s.cur.gid key (leBytes 4 (exactLoad v).toNat)
    s.setGrp { s.grp with cells := Tab.put s.grp.cells (key / 4) { runs := l.runs, keys := l.keys, val := v } }
  else s.putCell (key / 64) l.runs l.keys v

/-- The instruction that the clause in progress is at. -/
def State.instrNow (s : State) : Option Instr := (s.str.clause.words[s.str.clause.idx]?).bind decode

/-- Whether a word is a release store (07 R179). -/
def relStore (i : Instr) : Bool :=
  match i with
  | .st8 o .. | .st16 o .. | .st32 o .. | .st64 o .. | .st128 o .. => o = 2#2
  | _ => false

/-- Store the bytes of one lane (02 R63, 07 R188, 08 R199, 09 R234, R235). -/
def State.storeLoc (s : State) (l : MLoc) (bs : List Byte) : State :=
  let s := s.touchLoc l 2
  match l.loc with
  | .scr off => s.scrWrite s.cur.gid off bs
  | .mem x =>
    let s := s.spillsFirst x.key bs.length
    if x.kind = 3 then s.storeExact l x.key (BitVec.ofNat 32 (leNat bs))
    else if x.kind = 4 && !s.contains s.grp then
      ((s.evictOver x.key bs.length).flush s.grp.core x.key bs.length).homeWrite x.key bs
    else s.storePlain (s.instrNow.any relStore) x bs

/-- The scope of an ordered format-M access: group where every lane is in the aperture, else device (07 R179, 08 R208). -/
def ordScope (ls : List (Nat × MLoc)) : Scope :=
  if ls.isEmpty then 2
  else if ls.all fun l => match l.2.loc with
    | .scr _ => true
    | .mem _ => false then 0 else 2

/-- Reads of the lanes in order. -/
def State.readLanes (s : State) (n : Nat) : List (Nat × MLoc) → List (Nat × List Byte) × State
  | [] => ([], s)
  | (i, l) :: t =>
    let (bs, s) := s.loadLoc l n
    let (rest, s) := State.readLanes s n t
    ((i, bs) :: rest, s)

/-- Destination and extension of a load that may perform later than its word: one that is no acquire, into registers (08 R201; log 52). -/
def uoDest (i : Option Instr) : Option (Nat × Nat) :=
  match i with
  | some (.ldI8 o d _ _) => if o = 1#2 then none else some (d.toNat, 8)
  | some (.ldI16 o d _ _) => if o = 1#2 then none else some (d.toNat, 16)
  | some (.ldN8 o d _ _) | some (.ldN16 o d _ _) | some (.ld32 o d _ _) | some (.ld64 o d _ _) | some (.ld128 o d _ _) =>
    if o = 1#2 then none else some (d.toNat, 0)
  | _ => none

/-- The loads of UO pages among the lanes of a word perform now or, freely, later: these wait in the queue, and bring their words when they
perform; a queue's entries are there at once (08 R201; log 52). -/
def State.deferLoads (s : State) (n : Nat) (ls : List (Nat × MLoc)) : State :=
  let xs := ls.filterMap fun l => match l.2.loc with
    | .mem x => if x.ord = 2 && x.kind < 3 && !s.contains s.grp then some (l.1, x) else none
    | .scr _ => none
  match uoDest s.instrNow with
  | some (d, sign) =>
    if xs.isEmpty || isQ d then s
    else
      let later := Config.uoLater s.freeCtr
      let s := { s with freeCtr := s.freeCtr + 1 }
      let c := s.str.clause
      let one := ls.all fun l => some l.2.loc = ls.head?.map (·.2.loc)
      let new := xs.map fun x =>
        ({ who := s.cur, clause := c.id, core := s.grp.core, key := x.2.key, bytes := [], word := c.idx, page := (x.2.base, x.2.size),
           load := some { lane := x.1, dest := d, n := n, sign := sign, uni := one } } : UoStore)
      if later then { s with uoq := s.uoq ++ new } else s
  | none => s

/-- Loads of the lanes in order. -/
def State.loadLanes (s : State) (n : Nat) (ls : List (Nat × MLoc)) : List (Nat × List Byte) × State :=
  let (r, s) := s.readLanes n ls
  (r, s.deferLoads n ls)

/-- Stores of the lanes in order: on one byte the highest lane's value remains (02 R63). -/
def State.storeLanes (s : State) (data : Nat → List Byte) (ls : List (Nat × MLoc)) : State :=
  ls.foldl (fun s l => s.storeLoc l.2 (data l.1)) s

/-- The active lanes of the current stream. -/
def State.activeLanes (s : State) : List Nat := (List.range s.lanes).filter fun i => s.exec0.getLsbD i

/-- Write the words a load returned: U where the address is U and EXEC is full (02 R63, 04 R113, 07 R180). -/
def State.writeLoaded (s : State) (d : BitVec 7) (uni : Bool) (words : Nat) (r : List (Nat × List Byte))
    (conv : List Byte → Word) : State :=
  let size := 4
  let word := fun (i j : Nat) => match Tab.find? r i with
    | some bs => if words = 1 then conv bs else BitVec.ofNat 32 (leNat ((bs.drop (size * j)).take size))
    | none => 0
  s.writeN d ((List.range words).map fun j =>
    if uni then .u (word 0 j) else .g ((List.range s.lanes).map fun i => word i j))

/-- A load: ans checks a lane by number, uni tells whether the address is uniform. -/
def State.doLoad (s : State) (ans : Nat → LaneAns) (uni acq : Bool) (d : BitVec 7) (size words : Nat)
    (conv : List Byte → Word) : Res :=
  match gather (s.activeLanes.map fun i => (i, ans i)) with
  | .error e => e
  | .ok ls =>
    let (r, t) := s.loadLanes size ls
    let t := t.writeLoaded d (uni && s.fullExec) words r conv
    .done (if acq then t.acquireGroup s.cur.gid (ordScope ls) else t)

/-- A store. -/
def State.doStore (s : State) (ans : Nat → LaneAns) (rel : Bool) (data : Nat → List Byte) : Res :=
  match gather (s.activeLanes.map fun i => (i, ans i)) with
  | .error e => e
  | .ok ls =>
    let t := if rel then s.releaseGroup s.cur.gid (ordScope ls) else s
    .done (t.storeLanes data ls)

/-- Offset field of format M scaled by the access size (01 R32). -/
def off9 (f : BitVec 9) (size w : Nat) : BitVec w := BitVec.ofInt w (f.toInt * size)

/-- A format-M load of memory. -/
def State.ldM (s : State) (o : BitVec 2) (d a : BitVec 7) (f : BitVec 9) (size words : Nat) (conv : List Byte → Word) : Res :=
  let x := s.readN a 2
  s.doLoad (fun i => s.ldAns (pairLane x i + off9 f size 64) size) (x.all Val.isU) (o = 1#2) d size words conv

/-- A format-M store to memory. -/
def State.stM (s : State) (o : BitVec 2) (d a : BitVec 7) (f : BitVec 9) (size : Nat) : Res :=
  let x := s.readN a 2
  let v := s.readN d (divUp size 4)
  let data := fun i => (v.flatMap fun y => leBytes 4 (y.lane i).toNat).take size
  s.doStore (fun i => s.stAns (pairLane x i + off9 f size 64) size) (o = 2#2) data

/-- A scratchpad load (07 R165). -/
def State.ldP (s : State) (d a : BitVec 7) (f : BitVec 9) (size words : Nat) : Res :=
  let x := s.read a
  s.doLoad (fun i => scrAns s.party (x.lane i + off9 f size 32).toNat size) x.isU false d size words
    fun bs => BitVec.ofNat 32 (leNat bs)

/-- A scratchpad store (07 R165). -/
def State.stP (s : State) (d a : BitVec 7) (f : BitVec 9) (size : Nat) : Res :=
  let x := s.read a
  let v := s.readN d (size / 4)
  s.doStore (fun i => scrAns s.party (x.lane i + off9 f size 32).toNat size) false
    fun i => v.flatMap fun y => leBytes 4 (y.lane i).toNat

/-- Bytes zero-extended and sign-extended to a word (02 R63). -/
def zext (bs : List Byte) : Word := BitVec.ofNat 32 (leNat bs)
def sext8 (bs : List Byte) : Word := (BitVec.ofNat 8 (leNat bs)).signExtend 32
def sext16 (bs : List Byte) : Word := (BitVec.ofNat 16 (leNat bs)).signExtend 32

/-- The effect of LD.n8. -/
def perfLdN8 (o : BitVec 2) (d a : BitVec 7) (f : BitVec 9) (s : State) : Res := s.ldM o d a f 1 1 zext

/-- The effect of LD.i8. -/
def perfLdI8 (o : BitVec 2) (d a : BitVec 7) (f : BitVec 9) (s : State) : Res := s.ldM o d a f 1 1 sext8

/-- The effect of LD.n16. -/
def perfLdN16 (o : BitVec 2) (d a : BitVec 7) (f : BitVec 9) (s : State) : Res := s.ldM o d a f 2 1 zext

/-- The effect of LD.i16. -/
def perfLdI16 (o : BitVec 2) (d a : BitVec 7) (f : BitVec 9) (s : State) : Res := s.ldM o d a f 2 1 sext16

/-- The effect of LD.32. -/
def perfLd32 (o : BitVec 2) (d a : BitVec 7) (f : BitVec 9) (s : State) : Res := s.ldM o d a f 4 1 zext

/-- The effect of LD.64. -/
def perfLd64 (o : BitVec 2) (d a : BitVec 7) (f : BitVec 9) (s : State) : Res := s.ldM o d a f 8 2 zext

/-- The effect of LD.128. -/
def perfLd128 (o : BitVec 2) (d a : BitVec 7) (f : BitVec 9) (s : State) : Res := s.ldM o d a f 16 4 zext

/-- The effect of ST.8. -/
def perfSt8 (o : BitVec 2) (d a : BitVec 7) (f : BitVec 9) (s : State) : Res := s.stM o d a f 1

/-- The effect of ST.16. -/
def perfSt16 (o : BitVec 2) (d a : BitVec 7) (f : BitVec 9) (s : State) : Res := s.stM o d a f 2

/-- The effect of ST.32. -/
def perfSt32 (o : BitVec 2) (d a : BitVec 7) (f : BitVec 9) (s : State) : Res := s.stM o d a f 4

/-- The effect of ST.64. -/
def perfSt64 (o : BitVec 2) (d a : BitVec 7) (f : BitVec 9) (s : State) : Res := s.stM o d a f 8

/-- The effect of ST.128. -/
def perfSt128 (o : BitVec 2) (d a : BitVec 7) (f : BitVec 9) (s : State) : Res := s.stM o d a f 16

/-- The effect of LDP.32. -/
def perfLdp32 (d a : BitVec 7) (f : BitVec 9) (s : State) : Res := s.ldP d a f 4 1

/-- The effect of LDP.128. -/
def perfLdp128 (d a : BitVec 7) (f : BitVec 9) (s : State) : Res := s.ldP d a f 16 4

/-- The effect of STP.32. -/
def perfStp32 (d a : BitVec 7) (f : BitVec 9) (s : State) : Res := s.stP d a f 4

/-- The effect of STP.128. -/
def perfStp128 (d a : BitVec 7) (f : BitVec 9) (s : State) : Res := s.stP d a f 16

/-! ## The meanings, as exec runs them -/

/-- LD_N8 as a word of the clause in progress (R63). -/
def execLdN8 (o : BitVec 2) (d : BitVec 7) (a : BitVec 7) (f : BitVec 9) (s : State) :
    Host.Outcome State Fault Refusal := s.runWord (.ldN8 o d a f) (perfLdN8 o d a f)

/-- LD_I8 as a word of the clause in progress (R63). -/
def execLdI8 (o : BitVec 2) (d : BitVec 7) (a : BitVec 7) (f : BitVec 9) (s : State) :
    Host.Outcome State Fault Refusal := s.runWord (.ldI8 o d a f) (perfLdI8 o d a f)

/-- LD_N16 as a word of the clause in progress (R63). -/
def execLdN16 (o : BitVec 2) (d : BitVec 7) (a : BitVec 7) (f : BitVec 9) (s : State) :
    Host.Outcome State Fault Refusal := s.runWord (.ldN16 o d a f) (perfLdN16 o d a f)

/-- LD_I16 as a word of the clause in progress (R63). -/
def execLdI16 (o : BitVec 2) (d : BitVec 7) (a : BitVec 7) (f : BitVec 9) (s : State) :
    Host.Outcome State Fault Refusal := s.runWord (.ldI16 o d a f) (perfLdI16 o d a f)

/-- LD_32 as a word of the clause in progress (R63). -/
def execLd32 (o : BitVec 2) (d : BitVec 7) (a : BitVec 7) (f : BitVec 9) (s : State) :
    Host.Outcome State Fault Refusal := s.runWord (.ld32 o d a f) (perfLd32 o d a f)

/-- LD_64 as a word of the clause in progress (R63). -/
def execLd64 (o : BitVec 2) (d : BitVec 7) (a : BitVec 7) (f : BitVec 9) (s : State) :
    Host.Outcome State Fault Refusal := s.runWord (.ld64 o d a f) (perfLd64 o d a f)

/-- LD_128 as a word of the clause in progress (R63). -/
def execLd128 (o : BitVec 2) (d : BitVec 7) (a : BitVec 7) (f : BitVec 9) (s : State) :
    Host.Outcome State Fault Refusal := s.runWord (.ld128 o d a f) (perfLd128 o d a f)

/-- ST_8 as a word of the clause in progress (R63). -/
def execSt8 (o : BitVec 2) (d : BitVec 7) (a : BitVec 7) (f : BitVec 9) (s : State) :
    Host.Outcome State Fault Refusal := s.runWord (.st8 o d a f) (perfSt8 o d a f)

/-- ST_16 as a word of the clause in progress (R63). -/
def execSt16 (o : BitVec 2) (d : BitVec 7) (a : BitVec 7) (f : BitVec 9) (s : State) :
    Host.Outcome State Fault Refusal := s.runWord (.st16 o d a f) (perfSt16 o d a f)

/-- ST_32 as a word of the clause in progress (R63). -/
def execSt32 (o : BitVec 2) (d : BitVec 7) (a : BitVec 7) (f : BitVec 9) (s : State) :
    Host.Outcome State Fault Refusal := s.runWord (.st32 o d a f) (perfSt32 o d a f)

/-- ST_64 as a word of the clause in progress (R63). -/
def execSt64 (o : BitVec 2) (d : BitVec 7) (a : BitVec 7) (f : BitVec 9) (s : State) :
    Host.Outcome State Fault Refusal := s.runWord (.st64 o d a f) (perfSt64 o d a f)

/-- ST_128 as a word of the clause in progress (R63). -/
def execSt128 (o : BitVec 2) (d : BitVec 7) (a : BitVec 7) (f : BitVec 9) (s : State) :
    Host.Outcome State Fault Refusal := s.runWord (.st128 o d a f) (perfSt128 o d a f)

/-- LDP_32 as a word of the clause in progress (R165). -/
def execLdp32 (d : BitVec 7) (a : BitVec 7) (f : BitVec 9) (s : State) :
    Host.Outcome State Fault Refusal := s.runWord (.ldp32 d a f) (perfLdp32 d a f)

/-- LDP_128 as a word of the clause in progress (R165). -/
def execLdp128 (d : BitVec 7) (a : BitVec 7) (f : BitVec 9) (s : State) :
    Host.Outcome State Fault Refusal := s.runWord (.ldp128 d a f) (perfLdp128 d a f)

/-- STP_32 as a word of the clause in progress (R165). -/
def execStp32 (d : BitVec 7) (a : BitVec 7) (f : BitVec 9) (s : State) :
    Host.Outcome State Fault Refusal := s.runWord (.stp32 d a f) (perfStp32 d a f)

/-- STP_128 as a word of the clause in progress (R165). -/
def execStp128 (d : BitVec 7) (a : BitVec 7) (f : BitVec 9) (s : State) :
    Host.Outcome State Fault Refusal := s.runWord (.stp128 d a f) (perfStp128 d a f)

end Sys2Proof.Machine
end

