-- ==== Sys2Proof/Machine/Atom.lean ====
section
/-!
DEFINITION. Atomics (07 R181, R182, 08 R208), FENCE and XFENCE (08 R204, R205, R209, R210).
-/
namespace Sys2Proof.Machine

/-- A lane of an atomic: alignment, then a normal page with WRITE, then poison; no write range applies (05 R158, 07 R181). -/
def State.atomAns (s : State) (va : DWord) (size : Nat) (sc : Scope) : LaneAns :=
  let p := s.party
  if inAperture va then scrAns p (va.toNat % 2 ^ 32) size
  else if va.toNat % size ≠ 0 then .bad cALIGN va
  else s.globAns p va size 3 [0] 0 sc

/-- One read-modify-write of n bytes by a core at the place of a scope: L1, the cluster unit, or home; a remote page, and a
page that is not RC, has its place at home (07 R182, 08 R200, R201). The old value, and the state after. -/
def State.rmw (s : State) (core : Nat) (x : Xlat) (scope : Scope) (n : Nat) (f : Nat → Nat) : Nat × State :=
  if 2 ≤ scope ∨ keyTarget x.key ≠ 0 ∨ x.ord ≠ 0 then
    let s := s.flush core x.key n
    let old := leNat (s.homeBytes x.key n)
    (old, s.homeWrite x.key (leBytes n (f old)))
  else if scope = 1 then
    let a := x.key / 8 * 8
    let s := s.flushL1 core a (roundUp (x.key + n) 8 - a)
    let old := leNat (s.viewBytes core x.key n)
    let bs := leBytes n (f old)
    (old, s.putCl (Config.clusterOf core) ((List.range n).map fun i => (x.key + i, (bs.getD i 0, true))))
  else
    let old := leNat (s.viewBytes core x.key n)
    (old, s.storeL1 core x.key (leBytes n (f old)))

/-- The read-modify-write of one lane. -/
def State.atomLoc (s : State) (l : MLoc) (scope : Scope) (n : Nat) (f : Nat → Nat) : Nat × State :=
  let s := s.touchLoc l 3
  match l.loc with
  | .scr off =>
    let old := leNat (Bytes.readList s.grp.scr off n)
    (old, s.scrWrite s.cur.gid off (leBytes n (f old)))
  | .mem x => (s.spillsFirst x.key n).rmw s.grp.core x scope n f

/-- The lanes in ascending order, each seeing the one before (07 R181). -/
def State.atomLanes (s : State) (scope : Scope) (n : Nat) (f : Nat → Nat → Nat) : List (Nat × MLoc) → List (Nat × Nat) × State
  | [] => ([], s)
  | (i, l) :: t =>
    let (old, s) := s.atomLoc l scope n (f i)
    let (rest, s) := State.atomLanes s scope n f t
    ((i, old) :: rest, s)

/-- Whether some lane goes to memory. -/
def anyMem (ls : List (Nat × MLoc)) : Bool := ls.any fun l => match l.2.loc with
  | .scr _ => false
  | .mem _ => true

/-- An atomic of size n with f lane old: releases before, acquires after, at its scope; the containment buffer commits first;
the destination takes tag G (07 R181, R182, R189, 08 R203, R208). -/
def State.atomic (s : State) (o sc : BitVec 2) (d a : BitVec 7) (n : Nat) (f : Nat → Nat → Nat) : Res :=
  let x := s.readN a 2
  match gather (s.activeLanes.map fun i => (i, s.atomAns (pairLane x i) n sc.toNat)) with
  | .error e => e
  | .ok ls =>
    let scope := if ls.isEmpty then sc.toNat else if anyMem ls then sc.toNat else 0
    let t := if o.getLsbD 1 then s.releaseGroup s.cur.gid scope else s
    let t := if anyMem ls then t.directWrite s.cur.gid else t
    let (r, t) := t.atomLanes scope n f ls
    let word := fun (i j : Nat) => BitVec.ofNat 32 (Tab.get 0 r i / 2 ^ (32 * j))
    let t := t.writeN d ((List.range (divUp n 4)).map fun j => .g ((List.range s.lanes).map fun i => word i j))
    .done (if o.getLsbD 0 then t.acquireGroup s.cur.gid scope else t)

/-- A 4-byte atomic with f old b. -/
def State.atom32 (s : State) (o sc : BitVec 2) (d a b : BitVec 7) (f : Word → Word → Word) : Res :=
  let y := s.read b
  s.atomic o sc d a 4 fun i old => (f (BitVec.ofNat 32 old) (y.lane i)).toNat

/-- An 8-byte atomic with f old b. -/
def State.atom64 (s : State) (o sc : BitVec 2) (d a b : BitVec 7) (f : DWord → DWord → DWord) : Res :=
  let y := s.readN b 2
  s.atomic o sc d a 8 fun i old => (f (BitVec.ofNat 64 old) (pairLane y i)).toNat

/-- The effect of ATOM.ADD.I32. -/
def perfAtomAddI32 (o s : BitVec 2) (d a b : BitVec 7) (σ : State) : Res := σ.atom32 o s d a b (· + ·)

/-- The effect of ATOM.ADD.I64. -/
def perfAtomAddI64 (o s : BitVec 2) (d a b : BitVec 7) (σ : State) : Res := σ.atom64 o s d a b (· + ·)

/-- The effect of ATOM.MIN.I32. -/
def perfAtomMinI32 (o s : BitVec 2) (d a b : BitVec 7) (σ : State) : Res :=
  σ.atom32 o s d a b fun x y => if x.toInt ≤ y.toInt then x else y

/-- The effect of ATOM.MAX.I32. -/
def perfAtomMaxI32 (o s : BitVec 2) (d a b : BitVec 7) (σ : State) : Res :=
  σ.atom32 o s d a b fun x y => if x.toInt ≤ y.toInt then y else x

/-- The effect of ATOM.MIN.N32. -/
def perfAtomMinN32 (o s : BitVec 2) (d a b : BitVec 7) (σ : State) : Res :=
  σ.atom32 o s d a b fun x y => if x.toNat ≤ y.toNat then x else y

/-- The effect of ATOM.MAX.N32. -/
def perfAtomMaxN32 (o s : BitVec 2) (d a b : BitVec 7) (σ : State) : Res :=
  σ.atom32 o s d a b fun x y => if x.toNat ≤ y.toNat then y else x

/-- The effect of ATOM.AND. -/
def perfAtomAnd (o s : BitVec 2) (d a b : BitVec 7) (σ : State) : Res := σ.atom32 o s d a b (· &&& ·)

/-- The effect of ATOM.OR. -/
def perfAtomOr (o s : BitVec 2) (d a b : BitVec 7) (σ : State) : Res := σ.atom32 o s d a b (· ||| ·)

/-- The effect of ATOM.XOR. -/
def perfAtomXor (o s : BitVec 2) (d a b : BitVec 7) (σ : State) : Res := σ.atom32 o s d a b (· ^^^ ·)

/-- The effect of ATOM.XCHG. -/
def perfAtomXchg (o s : BitVec 2) (d a b : BitVec 7) (σ : State) : Res := σ.atom32 o s d a b fun _ y => y

/-- The effect of ATOM.CAS: b is the pair (compare, new). -/
def perfAtomCas (o s : BitVec 2) (d a b : BitVec 7) (σ : State) : Res :=
  let y := σ.readN b 2
  σ.atomic o s d a 4 fun i old =>
    if BitVec.ofNat 32 old = (y.getD 0 (.u 0)).lane i then ((y.getD 1 (.u 0)).lane i).toNat else old

/-- The effect of ATOM.XCHG64. -/
def perfAtomXchg64 (o s : BitVec 2) (d a b : BitVec 7) (σ : State) : Res := σ.atom64 o s d a b fun _ y => y

/-- The UO stores of the current stream perform before what follows a FENCE (08 R201, R209). -/
def State.fenceLocal (s : State) : State := s.drainUo fun u => u.who = s.cur

/-- The effect of FENCE.ACQ. -/
def perfFenceAcq (s : BitVec 2) (σ : State) : Res := .done (σ.fenceLocal.acquireGroup σ.cur.gid s.toNat)

/-- The effect of FENCE.REL. -/
def perfFenceRel (s : BitVec 2) (σ : State) : Res := .done (σ.releaseGroup σ.cur.gid s.toNat)

/-- The effect of FENCE.FULL. -/
def perfFenceFull (s : BitVec 2) (σ : State) : Res :=
  .done ((σ.releaseGroup σ.cur.gid s.toNat).acquireGroup σ.cur.gid s.toNat)

/-- The effect of FENCE.LOCAL: the strand's accesses before it perform before those after it, on UO pages too (08 R201,
R209). -/
def perfFenceLocal (s : State) : Res := .done s.fenceLocal

/-- Step 1 of XFENCE: the writes on the before-paths that have performed at the core are made to perform where every path
finds them, at home. The LSU path is written back, UO stores of the group perform, the EST path's accepted contributions are
applied, and what an engine path holds back goes home; the containment buffer commits from cluster scope, whatever the sets name
(07 R189, 08 R210, R211, 09 R241; log 19). -/
def State.xfenceBefore (s : State) (b : BitVec 6) (scope : Scope) : State :=
  let s := if 1 ≤ scope then s.commitBuf s.cur.gid else s
  let s := if b.getLsbD 0 then
      ((s.drainFwds s.cur.gid).drainUo fun u => u.who.gid = s.cur.gid).releaseLsu s.grp.core 2
    else s
  let s := s.stageFence s.cur.gid fun p => b.getLsbD p
  let s := if b.getLsbD 1 then s.drainContribs fun c => (s.group c.owner.gid).core = s.grp.core else s
  (enginePaths.filter b.getLsbD).foldl (fun s p => s.wbPath s.grp.core p) s

/-- Step 2 of XFENCE: the copies held for the after-paths are invalidated: the LSU path's in L1, the cluster unit and the
scratchpad read buffers, and those of the engine paths; only clean ones can be stale (08 R210; log 19). -/
def State.xfenceAfter (s : State) (a : BitVec 6) : State :=
  let s := if a.getLsbD 0 then s.acquireGroup s.cur.gid 2 else s
  let s := ([2, 3].filter a.getLsbD).foldl (fun s p => s.stageDrop s.cur.gid p) s
  (enginePaths.filter a.getLsbD).foldl (fun s p => s.dropPath s.grp.core p) s

/-- The effect of XFENCE. -/
def perfXfence (b a : BitVec 6) (s : BitVec 2) (σ : State) : Res :=
  .done ((σ.xfenceBefore b s.toNat).xfenceAfter a)

/-! ## The meanings, as exec runs them -/

/-- ATOM_ADD_I32 as a word of the clause in progress (R181). -/
def execAtomAddI32 (o : BitVec 2) (s : BitVec 2) (d : BitVec 7) (a : BitVec 7) (b : BitVec 7) (σ : State) :
    Host.Outcome State Fault Refusal := σ.runWord (.atomAddI32 o s d a b) (perfAtomAddI32 o s d a b)

/-- ATOM_ADD_I64 as a word of the clause in progress (R181). -/
def execAtomAddI64 (o : BitVec 2) (s : BitVec 2) (d : BitVec 7) (a : BitVec 7) (b : BitVec 7) (σ : State) :
    Host.Outcome State Fault Refusal := σ.runWord (.atomAddI64 o s d a b) (perfAtomAddI64 o s d a b)

/-- ATOM_MIN_I32 as a word of the clause in progress (R181). -/
def execAtomMinI32 (o : BitVec 2) (s : BitVec 2) (d : BitVec 7) (a : BitVec 7) (b : BitVec 7) (σ : State) :
    Host.Outcome State Fault Refusal := σ.runWord (.atomMinI32 o s d a b) (perfAtomMinI32 o s d a b)

/-- ATOM_MAX_I32 as a word of the clause in progress (R181). -/
def execAtomMaxI32 (o : BitVec 2) (s : BitVec 2) (d : BitVec 7) (a : BitVec 7) (b : BitVec 7) (σ : State) :
    Host.Outcome State Fault Refusal := σ.runWord (.atomMaxI32 o s d a b) (perfAtomMaxI32 o s d a b)

/-- ATOM_MIN_N32 as a word of the clause in progress (R181). -/
def execAtomMinN32 (o : BitVec 2) (s : BitVec 2) (d : BitVec 7) (a : BitVec 7) (b : BitVec 7) (σ : State) :
    Host.Outcome State Fault Refusal := σ.runWord (.atomMinN32 o s d a b) (perfAtomMinN32 o s d a b)

/-- ATOM_MAX_N32 as a word of the clause in progress (R181). -/
def execAtomMaxN32 (o : BitVec 2) (s : BitVec 2) (d : BitVec 7) (a : BitVec 7) (b : BitVec 7) (σ : State) :
    Host.Outcome State Fault Refusal := σ.runWord (.atomMaxN32 o s d a b) (perfAtomMaxN32 o s d a b)

/-- ATOM_AND as a word of the clause in progress (R181). -/
def execAtomAnd (o : BitVec 2) (s : BitVec 2) (d : BitVec 7) (a : BitVec 7) (b : BitVec 7) (σ : State) :
    Host.Outcome State Fault Refusal := σ.runWord (.atomAnd o s d a b) (perfAtomAnd o s d a b)

/-- ATOM_OR as a word of the clause in progress (R181). -/
def execAtomOr (o : BitVec 2) (s : BitVec 2) (d : BitVec 7) (a : BitVec 7) (b : BitVec 7) (σ : State) :
    Host.Outcome State Fault Refusal := σ.runWord (.atomOr o s d a b) (perfAtomOr o s d a b)

/-- ATOM_XOR as a word of the clause in progress (R181). -/
def execAtomXor (o : BitVec 2) (s : BitVec 2) (d : BitVec 7) (a : BitVec 7) (b : BitVec 7) (σ : State) :
    Host.Outcome State Fault Refusal := σ.runWord (.atomXor o s d a b) (perfAtomXor o s d a b)

/-- ATOM_XCHG as a word of the clause in progress (R181). -/
def execAtomXchg (o : BitVec 2) (s : BitVec 2) (d : BitVec 7) (a : BitVec 7) (b : BitVec 7) (σ : State) :
    Host.Outcome State Fault Refusal := σ.runWord (.atomXchg o s d a b) (perfAtomXchg o s d a b)

/-- ATOM_CAS as a word of the clause in progress (R181). -/
def execAtomCas (o : BitVec 2) (s : BitVec 2) (d : BitVec 7) (a : BitVec 7) (b : BitVec 7) (σ : State) :
    Host.Outcome State Fault Refusal := σ.runWord (.atomCas o s d a b) (perfAtomCas o s d a b)

/-- ATOM_XCHG64 as a word of the clause in progress (R181). -/
def execAtomXchg64 (o : BitVec 2) (s : BitVec 2) (d : BitVec 7) (a : BitVec 7) (b : BitVec 7) (σ : State) :
    Host.Outcome State Fault Refusal := σ.runWord (.atomXchg64 o s d a b) (perfAtomXchg64 o s d a b)

/-- FENCE_ACQ as a word of the clause in progress (R209). -/
def execFenceAcq (s : BitVec 2) (σ : State) : Host.Outcome State Fault Refusal := σ.runWord (.fenceAcq s) (perfFenceAcq s)

/-- FENCE_REL as a word of the clause in progress (R209). -/
def execFenceRel (s : BitVec 2) (σ : State) : Host.Outcome State Fault Refusal := σ.runWord (.fenceRel s) (perfFenceRel s)

/-- FENCE_FULL as a word of the clause in progress (R209). -/
def execFenceFull (s : BitVec 2) (σ : State) :
    Host.Outcome State Fault Refusal := σ.runWord (.fenceFull s) (perfFenceFull s)

/-- FENCE_LOCAL as a word of the clause in progress (R209). -/
def execFenceLocal (s : State) : Host.Outcome State Fault Refusal := s.runWord .fenceLocal perfFenceLocal

/-- XFENCE as a word of the clause in progress (R210). -/
def execXfence (b : BitVec 6) (a : BitVec 6) (s : BitVec 2) (σ : State) :
    Host.Outcome State Fault Refusal := σ.runWord (.xfence b a s) (perfXfence b a s)

end Sys2Proof.Machine
end

