-- ==== Sys2Proof/Machine/Memx.lean ====
section
/-!
DEFINITION. SPILL and FILL (07 R167 to R172), waiting on memory and on the scratchpad (07 R184 to R187), and PREFETCH
(07 R183).
-/
namespace Sys2Proof.Machine

/-- A slot of the explicit part, checked: its address and the bytes of its data and of its format byte (07 R168, R170). -/
def State.slotAcc (s : State) (slot : Nat) (acc : AccBits) : Except SpErr (DWord × Xlat × Xlat) :=
  let b := s.bun
  match s.areaHeader b with
  | .error e => .error e
  | .ok (es, _) =>
    let off := 0x200 + slot * 4 * s.grp.w
    let va : DWord := BitVec.ofNat 64 (b.spillBase.toNat * 65536 + off)
    if es ≤ slot then .error (.trap { cause := cPROT, addr := va })
    else
      match s.areaAcc b off acc, s.areaAcc b slot acc with
      | .ok x, .ok f => .ok (va, x, f)
      | .error e, _ => .error e
      | _, .error e => .error e

/-- The effect of SPILL: an entry of the forwarding table, which the completion of its clause writes to memory; with 16
entries taken it stalls (07 R170, R171). -/
def perfSpill (s r : BitVec 7) (σ : State) : Res :=
  match σ.slotAcc s.toNat 2 with
  | .error e => spillRes e
  | .ok (_, x, f) =>
    if 16 ≤ σ.bun.fwd.length then .stall .room
    else
      let v := σ.readV r.toNat
      let (fmt, bs) := slotBytes σ.grp.w v
      let cl := σ.cluster
      let t := ((σ.touchArea [0x140]).touch cl x 2).touch cl f 2
      .done (t.pushFwd s.toNat v [(x, bs), (f, leBytes 1 fmt)])

/-- The entries of a clause leave the forwarding table for memory, and those that are older with them (07 R169, R171). -/
def State.drainClause (s : State) (gid bid clause : Nat) : State :=
  let l := (s.bundle gid bid).fwd
  s.drainFwd gid bid (l.dropWhile fun e => e.clause ≠ clause).length

/-- Set a v register in every lane, whatever EXEC holds. -/
def State.setWhole (s : State) (r : Nat) (v : Val) : State :=
  let s := s.setV r (.val v)
  s.setBun { s.bun with poison := clearRegPoison s.bun.poison r (onesMask 64) }

/-- The effect of FILL: the newest entry of the forwarding table, or the slot in memory (07 R169 to R171, 15 R350). -/
def perfFill (r s : BitVec 7) (σ : State) : Res :=
  match σ.slotAcc s.toNat 1 with
  | .error e => spillRes e
  | .ok (va, x, f) =>
    match σ.bun.fwd? s.toNat with
    | some e => .done ((σ.touchArea [0x140]).setWhole r.toNat e.val)
    | none =>
      let w := σ.grp.w
      let fmt := slotWord (σ.areaBytes f 1) 0 1
      if σ.areaPoison f 1 then .trap { cause := cPOISON, addr := va }
      else if 4 < fmt then .trap { cause := cPOISON, info := 0x01000000, addr := va }
      else if σ.areaPoison x (slotLen w fmt) then .trap { cause := cPOISON, addr := va }
      else
        let cl := σ.cluster
        let t := (((σ.touchArea [0x140]).touch cl x 1).touch cl f 1).backRuns [(x.key, slotLen w fmt), (f.key, 1)]
        match slotVal w fmt (σ.areaBytes x (slotLen w fmt)) with
        | some v => .done (t.setWhole r.toNat v)
        | none => .trap { cause := cPOISON, info := 0x01000000, addr := va }

/-- The word WAITA and WAKE name: aligned, on a normal page (07 R184). -/
def State.waitWord (s : State) (va : DWord) : Except Res Xlat :=
  match s.memAcc s.party va 4 1 [0] with
  | .ok (.mem x) => .ok x
  | .ok (.scr _) => .error (.trap { cause := cKIND, addr := va })
  | .bad c => .error (.trap { cause := c, addr := va })
  | .miss => .error (.park 0 [{ vpn := vpnOf va, acc := 1, va := va }])

/-- Whether a wait is WAITA's. -/
def WaitOn.isWaita : WaitOn → Bool
  | .waita _ _ => true
  | _ => false

/-- Whether the stream sleeps at WAITA: it waits there, and neither a WAKE nor a poll has released it (07 R185, R186). -/
def Stream.asleep (x : Stream) : Bool :=
  match x.wait with
  | .waita _ _ => !x.wakeTry
  | _ => false

/-- The effect of WAITA: the word is read at home; when it equals e the stream joins the waiters of the address, or, with no
record free, polls; a stream that polls goes on polling until the word differs or a WAKE ends it (07 R184, R185). -/
def perfWaita (e a : BitVec 7) (s : State) : Res :=
  let x := s.str
  let polls := x.wait.isWaita && !x.waiter
  if x.asleep then .wait x.wait s
  else
    let va := pairLane (s.readN a 2) 0
    let want := (s.read e).lane 0
    match s.waitWord va with
    | .error r => r
    | .ok y =>
      if s.viewPoison s.grp.core y.key 4 true then .trap { cause := cPOISON, addr := va }
      else
        let t := (s.touch s.cluster y 1).flush s.grp.core y.key 4
        let t := t.setStr { t.str with waiter := false, wakeTry := false }
        if t.homeWord y.key ≠ want then .done (t.acquireGroup t.cur.gid 2)
        else
          match t.graph with
          | none => .wait (.waita va.toNat want) t
          | some g =>
            let free := !polls && decide (g.pool.length < g.poolSize)
            let t := t.setStr { t.str with waiter := free, since := t.clock }
            let t := if free then
                t.mapGraph fun g => { g with pool := g.pool ++ [(y.key, t.cur, g.poolSeq)], poolSeq := g.poolSeq + 1 }
              else t
            .wait (.waita va.toNat want) t

/-- WAITER_RELEASE: a stream leaves the pool and reads its word again (07 R186). -/
def State.rouse (s : State) (w : Who) : State := s.setStream w { s.stream w with wakeTry := true }

/-- The effect of WAKE: a release, a write at the home slice, which is direct, then the first n waiters of the address in arrival order (07 R186). -/
def perfWake (n a : BitVec 7) (s : State) : Res :=
  let va := pairLane (s.readN a 2) 0
  let k := ((s.read n).lane 0).toNat
  match s.waitWord va with
  | .error r => r
  | .ok y =>
    let t := ((s.touch s.cluster y 1).releaseGroup s.cur.gid 2).directWrite s.cur.gid
    match t.graph with
    | none => .done t
    | some g =>
      let mine := (g.pool.filter fun p => p.1 = y.key).take k
      let t := t.mapGraph fun g => { g with pool := g.pool.filter fun p => !mine.contains p }
      .done (mine.foldl (fun t p => t.rouse p.2.1) t)

/-- WAITA_POLL: a stream without a record reads its word again 1,024 clocks after its last reading (07 R185). -/
def State.pollWaita (s : State) (w : Who) : State :=
  let x := s.stream w
  if x.asleep ∧ !x.waiter ∧ x.since + 1024 ≤ s.clock then s.setStream w { x with wakeTry := true } else s

/-- Whether a wait is WAITP's. -/
def WaitOn.isWaitp : WaitOn → Bool
  | .waitp _ _ _ => true
  | _ => false

/-- The current stream's note that a write has satisfied its WAITP is taken back (07 R187). -/
def State.clearHit (s : State) : State :=
  let g := s.grp
  let me := (s.cur.bid, s.cur.acc)
  if g.hits.contains me then s.setGrp { g with hits := g.hits.filter (· ≠ me) } else s

/-- The effect of WAITP: the condition is tested at issue, and at every write to the word while it waits (07 R187). -/
def perfWaitp (e a : BitVec 7) (c : BitVec 2) (s : State) : Res :=
  let off := ((s.read a).lane 0).toNat
  let want := (s.read e).lane 0
  match scrAcc s.party off 4 with
  | .bad cause => .trap { cause := cause, addr := BitVec.ofNat 64 off }
  | .miss => .trap { cause := cPROT, addr := BitVec.ofNat 64 off }
  | .ok _ =>
    let hit := s.str.wait.isWaitp && s.grp.hits.contains (s.cur.bid, s.cur.acc)
    if hit || waitpHolds c.toNat (s.grp.scrWord off) want then .done (s.clearHit.acquireGroup s.cur.gid 0)
    else .wait (.waitp off want c.toNat) s.clearHit

/-- The effect of PREFETCH: no value a program can read changes (07 R183). -/
def perfPrefetch (_a : BitVec 7) (s : State) : Res := .done s

/-! ## The meanings, as exec runs them -/

/-- SPILL as a word of the clause in progress (R170). -/
def execSpill (s : BitVec 7) (r : BitVec 7) (σ : State) :
    Host.Outcome State Fault Refusal := σ.runWord (.spill s r) (perfSpill s r)

/-- FILL as a word of the clause in progress (R170). -/
def execFill (r : BitVec 7) (s : BitVec 7) (σ : State) :
    Host.Outcome State Fault Refusal := σ.runWord (.fill r s) (perfFill r s)

/-- WAITA as a word of the clause in progress (R184). -/
def execWaita (e : BitVec 7) (a : BitVec 7) (s : State) :
    Host.Outcome State Fault Refusal := s.runWord (.waita e a) (perfWaita e a)

/-- WAKE as a word of the clause in progress (R186). -/
def execWake (n : BitVec 7) (a : BitVec 7) (s : State) :
    Host.Outcome State Fault Refusal := s.runWord (.wake n a) (perfWake n a)

/-- WAITP as a word of the clause in progress (R187). -/
def execWaitp (e : BitVec 7) (a : BitVec 7) (c : BitVec 2) (s : State) :
    Host.Outcome State Fault Refusal := s.runWord (.waitp e a c) (perfWaitp e a c)

/-- PREFETCH as a word of the clause in progress (R183). -/
def execPrefetch (a : BitVec 7) (s : State) : Host.Outcome State Fault Refusal := s.runWord (.prefetch a) (perfPrefetch a)

end Sys2Proof.Machine
end

