-- ==== Sys2Proof/Machine/Engine.lean ====
section
/-!
DEFINITION. What the engines share: their accesses to memory and scratchpad, parking and faults of a command (11 R271), the
fields of a tensor descriptor, and the elements and scales of a tensor (11 R259, R260; 03 R77, R78).
-/
namespace Sys2Proof.Machine

/-- The answer of an engine's access: performed; a fault with the address it reports; a page that is not present. Each carries
the state with what was transferred before it. -/
inductive EAns (α : Type) where
  | ok (x : α) (s : State)
  | fault (cause : Nat) (addr : DWord) (s : State)
  | miss (va : DWord) (acc : AccBits) (s : State)

/-- One engine access after another. -/
def EAns.bind {α β : Type} (a : EAns α) (f : α → State → EAns β) : EAns β :=
  match a with
  | .ok x s => f x s
  | .fault c va s => .fault c va s
  | .miss va acc s => .miss va acc s

/-- The accesses of a list of items, in order. -/
def eMap {α β : Type} (f : α → State → EAns β) : List α → State → EAns (List β)
  | [], s => .ok [] s
  | x :: xs, s => (f x s).bind fun y s => (eMap f xs s).bind fun ys s => .ok (y :: ys) s

/-- The party an engine of a group is: it accesses memory outside handler mode. -/
def Group.engine (g : Group) : Party := { core := g.core, scr := g.scrSize }

/-- One page of an engine's access: its translation. Engines reach memory on normal pages only, and no aperture address
(07 R164, R178). -/
def State.engPage (s : State) (p : Party) (acc : AccBits) (va : DWord) : EAns Xlat :=
  if inAperture va then .fault cKIND va s
  else
    match s.globAcc p va acc [0] with
    | .bad c => .fault c va s
    | .miss => .miss va acc s
    | .ok (.scr _) => .fault cKIND va s
    | .ok (.mem x) => .ok x s

/-- Bytes of an access that lie on the page of its address, of n. -/
def pageRoom (x : Xlat) (va : DWord) (n : Nat) : Nat := min n (2 ^ x.size - va.toNat % 2 ^ x.size)

/-- An engine path of a group reads n bytes of memory, page by page, the lower part first (08 R194, 11 R273, 12 R288). f bounds
the pages. -/
def State.engReadFrom (s : State) (gid : Nat) (path : Path) : Nat → DWord → Nat → EAns (List Byte)
  | 0, _, _ => .ok [] s
  | f + 1, va, n =>
    if n = 0 then .ok [] s
    else
      let p := (s.group gid).engine
      (s.engPage p 1 va).bind fun x s =>
        let m := pageRoom x va n
        if s.pathPoison p.core path x.key m then .fault cPOISON va s
        else
          let (bs, s) := (s.touch (Config.clusterOf p.core) x 1).pathRead p.core path x m
          (State.engReadFrom s gid path f (va + BitVec.ofNat 64 m) (n - m)).bind fun r s => .ok (bs ++ r) s

/-- An engine path of a group reads n bytes of memory. -/
def State.engRead (s : State) (gid : Nat) (path : Path) (va : DWord) (n : Nat) : EAns (List Byte) :=
  s.engReadFrom gid path (n + 1) va n

/-- An engine path of a group writes bytes of memory, page by page, the lower part first (08 R194); under CONTAIN the buffer
commits first (07 R189). -/
def State.engWriteFrom (s : State) (gid : Nat) (path : Path) : Nat → DWord → List Byte → EAns Unit
  | 0, _, _ => .ok () s
  | f + 1, va, bs =>
    if bs.isEmpty then .ok () s
    else
      let p := (s.group gid).engine
      (s.engPage p 2 va).bind fun x s =>
        let m := pageRoom x va bs.length
        let s := (s.touch (Config.clusterOf p.core) x 2).directWrite gid
        State.engWriteFrom (s.pathWrite p.core path x (bs.take m)) gid path f (va + BitVec.ofNat 64 m) (bs.drop m)

/-- An engine path of a group writes bytes of memory. -/
def State.engWrite (s : State) (gid : Nat) (path : Path) (va : DWord) (bs : List Byte) : EAns Unit :=
  s.engWriteFrom gid path (bs.length + 1) va bs

/-- An engine reads bytes of its group's scratchpad on its path (07 R163, 08 R195). -/
def State.engScrRead (s : State) (gid off n : Nat) (path : Path := 2) : EAns (List Byte) :=
  if (s.group gid).scrSize < off + n then .fault cPROT (BitVec.ofNat 64 off) s
  else
    let (bs, s) := s.stageRead gid path off n
    .ok bs s

/-- An engine writes bytes of its group's scratchpad on its path. -/
def State.engScrWrite (s : State) (gid off : Nat) (bs : List Byte) (path : Path := 2) : EAns Unit :=
  if (s.group gid).scrSize < off + bs.length then .fault cPROT (BitVec.ofNat 64 off) s
  else .ok () (s.scrWriteEng gid off bs path)

/-- A word an engine writes to its group's scratchpad: an arrival word, a cursor. -/
def State.engWord (s : State) (gid off : Nat) (w : Word) (path : Path := 2) : State := s.scrWriteEng gid off (leBytes 4 w.toNat) path

/-- Whether a stream stands, outside handler mode, at a clause that waits on a flag which one of the clauses cs of its own would have
cleared (11 R271, 12 R290). -/
def State.waitsOn (s : State) (w : Who) (cs : List Nat) : Bool :=
  let x := s.stream w
  match x.wait, { s with cur := w }.fetch x.pc 0 with
  | .flags _, .word h _ => !x.handler && x.outst.any fun o => cs.contains o.id && (hWait h).testBit o.seta
  | _, _ => false

/-- An engine trap becomes due at the stream that issued the command, while the stream is there to take it; cs are the clauses that the
command would have completed (11 R271, 15 R332). -/
def State.engTrap (s : State) (w : Who) (cs : List Nat) (cause src : Nat) (addr : DWord) : State :=
  let x := s.stream w
  if (Tab.find? (s.group w.gid).bundles w.bid).isNone || x.ended then s
  else
    let t : Trap := { cause := cause, info := BitVec.ofNat 32 (2 ^ 31 + src), addr := addr, atOnce := s.waitsOn w cs }
    s.setStream w { x with due := x.due ++ [t] }

/-- An engine command parks on a page (11 R271, 15 R345). -/
def State.engPark (s : State) (who : Parker) (gid path : Nat) (va : DWord) (acc : AccBits) : State :=
  s.parkAccess who (s.group gid).core path [{ vpn := vpnOf va, acc := acc, va := va }]

/-! ## Slots of results still to come -/

/-- The slots that general results of an instruction will need when they come are found at its issue: destinations in automatic
slots are read back, and victims spilled where residents and results to come would pass the budget, as State.giveSlots does (04 R115,
R116; log 20). Of several destinations the first without a slot is reported as the one that needed it (DESIGN CHOICE, log 68). -/
def State.reserve (s : State) (i : Instr) (ds : List Nat) (uni : Bool) : Except Res State :=
  let ds := ds.filter fun r => decide (r < 0x60)
  if uni || s.exec0 = 0 then .ok s
  else
    match s.refill i ds with
    | .error e => .error e
    | .ok s =>
      let b := s.bun
      let new := ds.filter fun r => !(b.vreg r).resident
      let need := s.slotsHeld + new.length - s.budget s.grp
      if new.isEmpty ∨ need = 0 then .ok s
      else if (s.victims i).length < need ∧ s.mayClear i then .error (.stall .room)
      else s.spillSome (new.headD 0) need (s.victims i ++ s.lastVictims i)

/-! ## Tensor descriptors -/

/-- Fields of a tensor descriptor (11 R259). -/
def tFmt (d : List Word) : Nat := bits (wordAt d 0) 31 28
def tRank (d : List Word) : Nat := bits (wordAt d 0) 27 25
def tSpace (d : List Word) : Bool := bit (wordAt d 0) 24
def tScale (d : List Word) : Nat := bits (wordAt d 0) 23 22
def tUnfold (d : List Word) : Bool := bit (wordAt d 0) 19
def tPack (d : List Word) : Bool := bit (wordAt d 0) 18
def tBase (d : List Word) : DWord := pair64 (wordAt d 1) (wordAt d 2)
def tScaleBase (d : List Word) : DWord := pair64 (wordAt d 3) (wordAt d 4)
def tDim (d : List Word) (k : Nat) : Nat := (wordAt d (5 + k)).toNat
def tStride (d : List Word) (k : Nat) : Int := if k = 0 then 0 else (wordAt d (9 + k)).toInt

/-- Bytes of an element of a format (11 R260). -/
def elemSize (fmt : Nat) : Nat := [1, 1, 2, 2, 4, 4, 8, 8, 2, 2, 4, 8, 1, 1, 1, 1].getD fmt 1

/-- Elements of a scale block; 0 where the tensor has no scales (11 R259). -/
def tBlock (d : List Word) : Nat := if tScale d = 1 then 16 else if tScale d = 2 then 32 else 0

/-- The first index of a list of checks that fails. -/
def firstBad : List (Nat × Bool) → Option Nat
  | [] => none
  | (k, bad) :: t => if bad then some k else firstBad t

/-- The lowest word of a tensor descriptor that breaks R259. -/
def tensorBad (d : List Word) : Option Nat :=
  let w := wordAt d
  let r := tRank d
  let w0 := r = 0 || r = 6 || r = 7 || tScale d = 3 || bits (w 0) 21 20 ≠ 0 || (tScale d ≠ 0 && decide (tFmt d < 12)) ||
    (tPack d && tFmt d ≠ 15) || (tUnfold d && (r ≠ 4 || !tSpace d)) || bits (w 0) 17 0 ≠ 0
  let geo := fun (x : Word) => bits x 31 24 = 0 || bits x 23 16 = 0 || bits x 15 8 = 0 || bits x 7 0 = 0
  firstBad (
    [(0, w0), (2, tSpace d && w 2 ≠ 0)] ++
    ((List.range 5).map fun k => (5 + k, decide (k < r) == decide (w (5 + k) = 0))) ++
    ((List.range 4).map fun k => (10 + k, decide (r ≤ k + 1) && decide (w (10 + k) ≠ 0))) ++
    [(14, if tUnfold d then geo (w 14) else decide (w 14 ≠ 0)),
     (15, if tUnfold d then decide (bits (w 15) 31 16 ≠ 0) else decide (w 15 ≠ 0))])

/-- Whether an index lies inside a tensor (11 R260, 12 R285). -/
def tInside (d : List Word) (ix : List Nat) : Bool :=
  (List.range 5).all fun k => if k < tRank d then decide (ix.getD k 0 < tDim d k) else ix.getD k 0 = 0

/-- Address, byte count and bit shift of an element (11 R260). -/
def elemPlace (d : List Word) (ix : List Nat) : DWord × Nat × Nat :=
  let d0 := ix.getD 0 0
  let (off, n, sh) := if tPack d then (3 * (d0 / 4), 3, 6 * (d0 % 4)) else (d0 * elemSize (tFmt d), elemSize (tFmt d), 0)
  let sum := (List.range 5).foldl (fun (a : Int) k => a + (ix.getD k 0 : Int) * tStride d k) 0
  (tBase d + BitVec.ofNat 64 off + BitVec.ofInt 64 sum, n, sh)

/-- Bytes of a tensor's space read and written. -/
def State.spaceRead (s : State) (gid : Nat) (path : Path) (d : List Word) (a : DWord) (n : Nat) : EAns (List Byte) :=
  if tSpace d then s.engScrRead gid (a.toNat % 2 ^ 32) n path else s.engRead gid path a n
def State.spaceWrite (s : State) (gid : Nat) (path : Path) (d : List Word) (a : DWord) (bs : List Byte) : EAns Unit :=
  if tSpace d then s.engScrWrite gid (a.toNat % 2 ^ 32) bs path else s.engWrite gid path a bs

/-- An element read; one outside the tensor reads as zero (11 R260, R266, 12 R285). -/
def State.elemRead (s : State) (gid : Nat) (path : Path) (d : List Word) (ix : List Nat) : EAns Nat :=
  if !tInside d ix then .ok 0 s
  else
    let (a, n, sh) := elemPlace d ix
    (s.spaceRead gid path d a n).bind fun bs s => .ok (if tPack d then leNat bs / 2 ^ sh % 64 else leNat bs) s

/-- The bits of a group with a field of 6 bits replaced (03 R77). -/
def putField (old sh v : Nat) : Nat := old - old / 2 ^ sh % 64 * 2 ^ sh + v % 64 * 2 ^ sh

/-- An element written; one outside the tensor is not (11 R266, 12 R293). -/
def State.elemWrite (s : State) (gid : Nat) (path : Path) (d : List Word) (ix : List Nat) (v : Nat) : EAns Unit :=
  if !tInside d ix then .ok () s
  else
    let (a, n, sh) := elemPlace d ix
    if tPack d then (s.spaceRead gid path d a n).bind fun bs s => s.spaceWrite gid path d a (leBytes 3 (putField (leNat bs) sh v))
    else s.spaceWrite gid path d a (leBytes n v)

/-- The scale byte of an element (11 R260). -/
def State.scaleRead (s : State) (gid : Nat) (path : Path) (d : List Word) (ix : List Nat) : EAns Nat :=
  let i := fun k => ix.getD k 0
  let row := i 1 + tDim d 1 * (i 2 + tDim d 2 * (i 3 + tDim d 3 * i 4))
  let b := tBlock d
  (s.engRead gid path (tScaleBase d + BitVec.ofNat 64 (i 0 / b + divUp (tDim d 0) b * row)) 1).bind fun bs s => .ok (leNat bs) s

/-- The entry of a tensor identifier; an invalid one traps with PROT (11 R258). -/
def State.tensor (s : State) (tid : Nat) : Except Res (List Word) :=
  match s.graph.bind fun g => Tab.find? g.tids tid with
  | some d => .ok d
  | none => .error (.trap { cause := cPROT, info := BitVec.ofNat 32 (tid * 4096) })

/-- A parameter block or layout record of 64 bytes in scratchpad, as an engine path finds it (11 R257, 12 R283, R288). -/
def State.block (s : State) (off : Nat) (path : Path := 2) : Except Res (List Word) :=
  match scrAcc s.party off 64 with
  | .ok _ =>
    .ok (if (Tab.get [] s.grp.engOld path).isEmpty then s.grp.scrWords off 16
      else leWords ((List.range 64).map fun i => s.grp.stagedByte path (off + i)) 16)
  | .bad c => .error (.trap { cause := c, addr := BitVec.ofNat 64 off })
  | .miss => .error (.trap { cause := cPROT, addr := BitVec.ofNat 64 off })

/-- The PROT trap of a block's word: its index in TRAPINFO[15:12], the block's offset in TRAPADDR (11 R265, 12 R284). -/
def blockTrap (off word : Nat) : Res :=
  .trap { cause := cPROT, info := BitVec.ofNat 32 (word * 4096), addr := BitVec.ofNat 64 off }

end Sys2Proof.Machine
end

