-- ==== Sys2Proof/Machine/Ste.lean ====
section
/-!
DEFINITION. Stream contexts: SOPEN, SGO, SSLOT, SSTAT, SCLOSE and COPY with their slots, SORT and BIN with their work
(11 R264 to R273).
-/
namespace Sys2Proof.Machine

/-- A context of a group. -/
def Group.ctx (g : Group) (n : Nat) : Ctx := Tab.get {} g.ctxs n

/-- The state with a context of a group replaced. -/
def State.setCtx (s : State) (gid n : Nat) (x : Ctx) : State :=
  s.setGroup gid { s.group gid with ctxs := Tab.put (s.group gid).ctxs n x }

/-- The code of a context's state (11 R268). -/
def CtxState.code : CtxState → Nat
  | .closed => 0
  | .held => 1
  | .running => 2
  | .done => 3
  | .error => 4

/-- The QUEUE trap of a stream-context command (11 R256). -/
def ctxTrap (n code : Nat) : Res := .trap { cause := cQUEUE, info := BitVec.ofNat 32 (n * 16 + code * 512) }

/-- A command that needs its context in one state (11 R264). -/
def State.inState (s : State) (n : Nat) (st : CtxState) (k : Ctx → Res) : Res :=
  let x := s.grp.ctx n
  if x.st = st then k x else ctxTrap n 2

/-- Fields of a layout record (11 R265). -/
def lTid (b : List Word) : Nat := bits (wordAt b 0) 31 24
def lDrain (b : List Word) : Bool := bit (wordAt b 0) 23
def lSlots (copy : Bool) (b : List Word) : Nat := if copy then 1 else bits (wordAt b 0) 19 12
def lRing (b : List Word) : Nat := (wordAt b 1).toNat
def lSlotSz (b : List Word) : Nat := (wordAt b 2).toNat
def lTotal (copy : Bool) (b : List Word) : Nat := if copy then 1 else (wordAt b 3).toNat
def lArrival (b : List Word) : Nat := (wordAt b 4).toNat
def lAbase (b : List Word) : Word := wordAt b 5

/-- Tile extent and origin of a dimension (11 R265). -/
def lTe (b d : List Word) (k : Nat) : Nat := if k < tRank d then bits (wordAt b (6 + k)) 15 0 else 1
def lOrg (b d : List Word) (k : Nat) : Nat := if k < tRank d then (wordAt b (11 + k)).toNat else 0

/-- Elements of a tile, and its bytes in a slot (11 R265, R266). -/
def tileElems (b d : List Word) : Nat := (List.range 5).foldl (fun a k => a * lTe b d k) 1
def tileBytes (b d : List Word) : Nat := if tPack d then tileElems b d * 3 / 4 else tileElems b d * elemSize (tFmt d)

/-- The lowest word of a layout record that breaks R265, a RING, SLOTSZ or ARRIVAL that is no multiple of its unit among them (DESIGN
CHOICE, log 76). -/
def layoutBad (b d : List Word) (copy : Bool) (scr : Nat) : Option Nat :=
  let w0 := wordAt b 0
  let ring := lRing b
  let span := lSlots copy b * lSlotSz b
  let arr := lArrival b
  firstBad (
    [(0, bits w0 22 20 ≠ 0 || bits w0 11 0 ≠ 0 || lSlots copy b = 0 || tSpace d),
     (1, ring % 16 ≠ 0 || decide (scr < ring + span)),
     (2, lSlotSz b = 0 || lSlotSz b % 16 ≠ 0 || decide (lSlotSz b < tileBytes b d)),
     (4, arr % 4 ≠ 0 || decide (scr < arr + 4) || (decide (ring ≤ arr) && decide (arr < ring + span)))] ++
    ((List.range 5).map fun k =>
      (6 + k, bits (wordAt b (6 + k)) 31 16 ≠ 0 || lTe b d k = 0 || (k = 0 && tPack d && lTe b d 0 % 4 ≠ 0))) ++
    (List.range 5).map fun k => (11 + k, decide (k < tRank d) && decide (tDim d k ≤ lOrg b d k)))

/-- Tiles along a dimension, and all tiles (11 R266). -/
def tileCount (b d : List Word) (k : Nat) : Nat := if k < tRank d then divUp (tDim d k - lOrg b d k) (lTe b d k) else 1
def tileTotal (b d : List Word) : Nat := (List.range 5).foldl (fun a k => a * tileCount b d k) 1

/-- S, the slots a stream transfers (11 R266). -/
def slotTotal (b d : List Word) (copy : Bool) : Nat :=
  if lTotal copy b = 0 then tileTotal b d else min (lTotal copy b) (tileTotal b d)

/-- The index of element j of tile t (11 R266). -/
def tileIndex (b d : List Word) (t j : Nat) : List Nat :=
  let step := fun (p : Nat × Nat × List Nat) k =>
    let (t, j, ix) := p
    (t / tileCount b d k, j / lTe b d k, ix ++ [lOrg b d k + t % tileCount b d k * lTe b d k + j % lTe b d k])
  ((List.range 5).foldl step (t, j, [])).2.2

/-- A context opened on a layout record: checked, its arrival word set to ABASE (11 R265, R267). -/
def State.openCtx (s : State) (a : BitVec 7) (n : Nat) (copy : Bool) (k : State → Ctx → Res) : Res :=
  s.inState n .closed fun _ =>
    let off := ((s.read a).lane 0).toNat
    match s.block off with
    | .error e => e
    | .ok b =>
      match s.tensor (lTid b) with
      | .error e => e
      | .ok d =>
        match layoutBad b d copy s.grp.scrSize with
        | some w => blockTrap off w
        | none =>
          k (s.engWord s.cur.gid (lArrival b) (lAbase b))
            { st := .held, kind := if copy then .copy else .stream, block := off, blk := b, desc := d,
              total := slotTotal b d copy, bid := s.cur.bid, acc := s.cur.acc }

/-- The effect of SOPEN (11 R267). -/
def perfSopen (a : BitVec 7) (n : BitVec 4) (s : State) : Res :=
  s.openCtx a n.toNat false fun s x => .done (s.setCtx s.cur.gid n.toNat x)

/-- A held context runs; with no slot to transfer it is done (11 R267). -/
def Ctx.go (x : Ctx) (bid : Nat) (acc : Bool) : Ctx :=
  { x with st := if x.total = 0 then .done else .running, bid := bid, acc := acc }

/-- The effect of SGO (11 R267). -/
def perfSgo (n : BitVec 4) (s : State) : Res :=
  s.inState n.toNat .held fun x => .done (s.setCtx s.cur.gid n.toNat (x.go s.cur.bid s.cur.acc))

/-- The effect of SSLOT (11 R267). -/
def perfSslot (c : BitVec 7) (n : BitVec 4) (s : State) : Res :=
  s.inState n.toNat .running fun x =>
    let k := ((s.read c).lane 0).toNat
    let stream := x.kind = .stream || x.kind = .copy
    let ok := if !stream then false
      else if lDrain x.blk then
        decide (1 ≤ k) && decide (k + x.released ≤ x.total) &&
          decide (x.released - x.done + k ≤ lSlots (x.kind = .copy) x.blk)
      else decide (1 ≤ k) && decide (k + x.released ≤ x.done)
    if ok then .done (s.setCtx s.cur.gid n.toNat { x with released := x.released + k }) else ctxTrap n.toNat 3

/-- Slots pending, as SSTAT reports them (11 R268). -/
def Ctx.pend (x : Ctx) : Nat :=
  if x.kind = .stream ∨ x.kind = .copy then (if lDrain x.blk then x.released - x.done else x.done - x.released) else 0

/-- The effect of SSTAT (11 R268). -/
def perfSstat (d : BitVec 7) (n : BitVec 4) (s : State) : Res :=
  let x := s.grp.ctx n.toNat
  let stream := x.kind = .stream || x.kind = .copy
  let cause := if x.st = .error then x.cause else 0
  .done (s.writeAll d.toNat 0 (BitVec.ofNat 32
    (x.st.code * 2 ^ 29 + cause % 32 * 2 ^ 24 + x.pend % 256 * 65536 + (if stream then x.done % 65536 else 0))))

/-- The slots a drain has to transfer: those handed over, and once an SCLOSE stopped it only those handed over before it (11 R267). -/
def Ctx.handed (x : Ctx) : Nat := if x.closing && x.kind = .stream then x.bound else x.released

/-- Whether a stream that is closing still has a slot to complete: a fill the one in progress, a drain those handed over
(11 R267). -/
def Ctx.unfinished (x : Ctx) : Bool :=
  if x.kind = .stream then (if lDrain x.blk then decide (x.done < x.handed) else x.begun) else true

/-- The effect of SCLOSE: a running command that has work to finish is left to end it, and the SCLOSE's clause waits
(11 R267). A context that is closed keeps no counts, so that SSTAT reads 0 of it (R268; DESIGN CHOICE, log 77). -/
def perfSclose (n : BitVec 4) (s : State) : Res :=
  let x := s.grp.ctx n.toNat
  let gid := s.cur.gid
  if x.st = .running && x.unfinished then
    .done (s.setCtx gid n.toNat
      { x with closing := true, bound := x.handed, closers := (s.cur, s.str.clause.id) :: x.closers })
  else .done (s.setCtx gid n.toNat {})

/-- The effect of COPY: SOPEN with one slot, then SGO; a drain's slot is handed over (11 R267). -/
def perfCopy (a : BitVec 7) (n : BitVec 4) (s : State) : Res :=
  s.openCtx a n.toNat true fun s x =>
    let x := { x.go s.cur.bid s.cur.acc with released := if lDrain x.blk then 1 else 0, clause := s.str.clause.id }
    .done (s.setCtx s.cur.gid n.toNat x)

/-! ## Slots -/

/-- A fault of a context's work: PAGE parks it at its cursor; others end it in ERROR with an engine trap, a closing context
then being CLOSED. The clause of a command that has ended so completes, and its flag falls (11 R267, R271; DESIGN CHOICE, log 78). -/
def ctxFault {α : Type} (gid n : Nat) (x : Ctx) : EAns α → State
  | .ok _ s => s
  | .fault cause va s =>
    let y : Ctx := if x.closing then {} else { x with st := .error, cause := cause, clause := 0, parked := false }
    let w : Who := { gid := gid, bid := x.bid, acc := x.acc }
    (s.setCtx gid n y).engTrap w (x.clause :: (x.closers.filter fun k => k.1 = w).map (·.2)) cause n va
  | .miss va acc s => (s.setCtx gid n { x with parked := true }).engPark (.ctx gid n) gid 2 va acc

/-- The elements of a slot from a cursor on, each moved by f; the cursor follows in the context (11 R266, R271). -/
def State.moveElems (s : State) (f : State → Nat → EAns Unit) (gid n : Nat) (x : Ctx) : Nat → Nat → Except State State
  | 0, _ => .ok s
  | m + 1, j =>
    match f s j with
    | .ok _ s => State.moveElems s f gid n x m (j + 1)
    | r => .error (ctxFault gid n { x with curA := j, begun := true } r)

/-- Where element j of a slot stands: byte offset, byte count, bit shift (11 R266; 03 R77). -/
def slotPlace (d : List Word) (pos j : Nat) : Nat × Nat × Nat :=
  if tPack d then (pos + 3 * (j / 4), 3, 6 * (j % 4)) else (pos + j * elemSize (tFmt d), elemSize (tFmt d), 0)

/-- One element of a fill (11 R266). -/
def fillElem (gid : Nat) (x : Ctx) (pos : Nat) (s : State) (j : Nat) : EAns Unit :=
  let d := x.desc
  let (off, k, sh) := slotPlace d pos j
  (s.elemRead gid 2 d (tileIndex x.blk d x.done j)).bind fun v s =>
    if tPack d then (s.engScrRead gid off 3).bind fun bs s => s.engScrWrite gid off (leBytes 3 (putField (leNat bs) sh v))
    else s.engScrWrite gid off (leBytes k v)

/-- One element of a drain (11 R266). -/
def drainElem1 (gid : Nat) (x : Ctx) (pos : Nat) (s : State) (j : Nat) : EAns Unit :=
  let d := x.desc
  let (off, k, sh) := slotPlace d pos j
  (s.engScrRead gid off k).bind fun bs s =>
    s.elemWrite gid 2 d (tileIndex x.blk d x.done j) (if tPack d then leNat bs / 2 ^ sh % 64 else leNat bs)

/-- What a context becomes when slot i of it has completed (11 R264, R266, R267). -/
def Ctx.slotDone (x : Ctx) : Ctx :=
  let y := { x with done := x.done + 1, curA := 0, begun := false }
  if y.total ≤ y.done then (if x.kind = .copy || x.closing then {} else { y with st := .done })
  else if x.closing && !y.unfinished then {}
  else y

/-- Whether a context has a slot to transfer: a fill one whose position is free, a drain one handed over (11 R266). -/
def Ctx.slotReady (x : Ctx) : Bool :=
  let stream := x.kind = .stream || x.kind = .copy
  x.st = .running && stream && !x.parked && decide (x.done < x.total) &&
    (if lDrain x.blk then decide (x.done < x.handed)
     else x.begun || (!(x.closing && x.kind = .stream) &&
       decide (x.done < x.released + lSlots (x.kind = .copy) x.blk)))

/-- One slot of a context: its elements, which for a drain perform at device scope, then the arrival word (11 R266; 08 R212). -/
def State.slotStep (s : State) (gid n : Nat) (drain : Bool) : State :=
  let x := (s.group gid).ctx n
  if s.resident gid && x.slotReady && lDrain x.blk == drain then
    let slots := lSlots (x.kind = .copy) x.blk
    let pos := lRing x.blk + x.done % slots * lSlotSz x.blk
    let f := if drain then drainElem1 gid x pos else fillElem gid x pos
    match s.moveElems f gid n x (tileElems x.blk x.desc - x.curA) x.curA with
    | .error s => s
    | .ok s =>
      let s := if drain then s.wbPath (s.group gid).core 2 else s
      (s.engWord gid (lArrival x.blk) (lAbase x.blk + BitVec.ofNat 32 (x.done + 1))).setCtx gid n x.slotDone
  else s

/-- SLOT_FILL (11 R266). -/
def execSlotFill (g n : Nat) (s : State) : Host.Outcome State Fault Refusal := .next (s.tick.slotStep g n false)

/-- SLOT_DRAIN (11 R266). -/
def execSlotDrain (g n : Nat) (s : State) : Host.Outcome State Fault Refusal := .next (s.tick.slotStep g n true)

/-! ## SORT -/

/-- Fields of a SORT block (11 R269). -/
def sKey (b : List Word) : Nat := if bit (wordAt b 0) 0 then 8 else 4
def sCount (b : List Word) : Nat := (wordAt b 1).toNat
def sKeys (b : List Word) : DWord := pair64 (wordAt b 2) (wordAt b 3)
def sVals (b : List Word) : DWord := pair64 (wordAt b 4) (wordAt b 5)
def sTemp (b : List Word) : DWord := pair64 (wordAt b 6) (wordAt b 7)
def sArrival (b : List Word) : Nat := (wordAt b 8).toNat

/-- Whether two areas share a byte. -/
def overlap (a m b n : Nat) : Bool := decide (a < b + n) && decide (b < a + m) && decide (m ≠ 0) && decide (n ≠ 0)

/-- The first of some addresses that is not a multiple of its size. -/
def firstOdd (l : List (DWord × Nat)) : Option DWord := (l.find? fun p => p.1.toNat % p.2 ≠ 0).map (·.1)

/-- Whether a SORT block breaks R269 by value. -/
def sortBad (b : List Word) (scr : Nat) : Bool :=
  let k := sKey b
  let n := sCount b
  let a := (sKeys b).toNat
  let v := (sVals b).toNat
  let t := (sTemp b).toNat
  bits (wordAt b 0) 31 1 ≠ 0 || (List.range 6).any (fun i => wordAt b (10 + i) ≠ 0) || decide (2 ^ 31 < n) ||
    decide (scr < sArrival b + 4) || overlap a (n * k) v (4 * n) || overlap a (n * k) t (n * (k + 4)) ||
    overlap v (4 * n) t (n * (k + 4))

/-- A command that runs on a context begins (11 R264). -/
def State.startCtx (s : State) (n : Nat) (kind : CtxKind) (off : Nat) (b : List Word) (total : Nat) : Res :=
  .done (s.setCtx s.cur.gid n
    { st := .running, kind := kind, block := off, blk := b, total := total, bid := s.cur.bid, acc := s.cur.acc,
      clause := s.str.clause.id })

/-- The effect of SORT (11 R269). -/
def perfSort (a : BitVec 7) (n : BitVec 4) (s : State) : Res :=
  s.inState n.toNat .closed fun _ =>
    let off := ((s.read a).lane 0).toNat
    match s.block off with
    | .error e => e
    | .ok b =>
      let k := sKey b
      match firstOdd [(sKeys b, k), (sVals b, 4), (sTemp b, k), (BitVec.ofNat 64 (sArrival b), 4)] with
      | some va => .trap { cause := cALIGN, addr := va }
      | none =>
        if sortBad b s.grp.scrSize then .trap { cause := cPROT, addr := BitVec.ofNat 64 off }
        else s.startCtx n.toNat .sort off b (sCount b)

/-- A command's end: its arrival word, and its context CLOSED (11 R269, R270). -/
def State.endCtx (s : State) (gid n off : Nat) (v : Word) : State := (s.engWord gid off v).setCtx gid n {}

/-- Elements ordered by an 8-bit digit of their keys, equal digits in their old order (11 R269). -/
def byDigit (l : List (Nat × Nat)) (k : Nat) : List (Nat × Nat) :=
  (List.range 256).flatMap fun v => l.filter fun e => e.1 / 256 ^ k % 256 = v

/-- Where pass k of a SORT reads, or writes: keys and values (11 R269). -/
def sortSide (b : List Word) (odd : Bool) : DWord × DWord :=
  if odd then (sTemp b, sTemp b + BitVec.ofNat 64 (sCount b * sKey b)) else (sKeys b, sVals b)

/-- The address of element i of an array of elements of n bytes. -/
def elemAt (a : DWord) (i n : Nat) : DWord := a + BitVec.ofNat 64 (i * n)

/-- Element i of a side of a SORT read: its key, and its value above it. -/
def State.sortGet (s : State) (gid : Nat) (b : List Word) (odd : Bool) (i : Nat) : EAns Nat :=
  (s.engRead gid 2 (elemAt (sortSide b odd).1 i (sKey b)) (sKey b)).bind fun x s =>
    (s.engRead gid 2 (elemAt (sortSide b odd).2 i 4) 4).bind fun v s => .ok (leNat x + 2 ^ 64 * leNat v) s

/-- Element i of a side of a SORT written. -/
def State.sortPut (s : State) (gid : Nat) (b : List Word) (odd : Bool) (i : Nat) (e : Nat × Nat) : EAns Unit :=
  (s.engWrite gid 2 (elemAt (sortSide b odd).1 i (sKey b)) (leBytes (sKey b) e.1)).bind fun _ s =>
    s.engWrite gid 2 (elemAt (sortSide b odd).2 i 4) (leBytes 4 e.2)

/-- The elements of a pass read from the cursor on; those read stand in work (11 R269, R271). -/
def State.sortReads (s : State) (gid n : Nat) (x : Ctx) : Nat → Except State (State × Ctx)
  | 0 => .ok (s, x)
  | m + 1 =>
    match s.sortGet gid x.blk (x.done % 2 = 1) x.curA with
    | .ok e s => State.sortReads s gid n { x with curA := x.curA + 1, work := x.work ++ [e] } m
    | r => .error (ctxFault gid n x r)

/-- The elements of a pass, in the order of its digit, written from the cursor on (11 R269, R271). -/
def State.sortWrites (s : State) (gid n : Nat) (l : List (Nat × Nat)) (x : Ctx) : Nat → Except State (State × Ctx)
  | 0 => .ok (s, x)
  | m + 1 =>
    let i := x.curA - sCount x.blk
    match s.sortPut gid x.blk (x.done % 2 = 0) i (l.getD i (0, 0)) with
    | .ok _ s => State.sortWrites s gid n l { x with curA := x.curA + 1 } m
    | r => .error (ctxFault gid n x r)

/-- The elements a pass has read, as keys with their values. -/
def Ctx.elems (x : Ctx) : List (Nat × Nat) := x.work.map fun e => (e % 2 ^ 64, e / 2 ^ 64)

/-- One pass of a SORT: its elements read, ordered by the pass's digit, and written; the last pass writes the arrival word after its
last write (11 R269). The cursor counts the elements read, then those written as well; a page that is not present parks the
command there (11 R271). -/
def State.sortStep (s : State) (gid n : Nat) : State :=
  let x := (s.group gid).ctx n
  if s.resident gid && x.st = .running && x.kind = .sort && !x.parked then
    match s.sortReads gid n x (sCount x.blk - x.curA) with
    | .error s => s
    | .ok (s, x) =>
      match s.sortWrites gid n (byDigit x.elems x.done) x (2 * sCount x.blk - x.curA) with
      | .error s => s
      | .ok (s, x) =>
        if sKey x.blk ≤ x.done + 1 then (s.wbPath (s.group gid).core 2).endCtx gid n (sArrival x.blk) (wordAt x.blk 9)
        else s.setCtx gid n { x with done := x.done + 1, curA := 0, work := [] }
  else s

/-- SORT_PASS (11 R269). -/
def execSortPass (g n : Nat) (s : State) : Host.Outcome State Fault Refusal := .next (s.tick.sortStep g n)

/-! ## BIN -/

/-- Fields of a BIN block (11 R270). -/
def bNbin (b : List Word) : Nat := bits (wordAt b 0) 31 16
def bNpatch (b : List Word) : Nat := bits (wordAt b 0) 8 0
def bCount (b : List Word) : Nat := (wordAt b 1).toNat
def bKeys (b : List Word) : DWord := pair64 (wordAt b 2) (wordAt b 3)
def bCounts (b : List Word) : DWord := pair64 (wordAt b 4) (wordAt b 5)
def bPatch (b : List Word) : Nat := (wordAt b 6).toNat
def bArrival (b : List Word) : Nat := (wordAt b 7).toNat

/-- Patch entry i, kept behind the block as read at issue. -/
def binPatch (b : List Word) (i : Nat) : List Word := (List.range 4).map fun j => wordAt b (16 + 4 * i + j)

/-- Fields of a patch entry (11 R270). -/
def pRecord (p : List Word) : Bool := bit (wordAt p 0) 31
def pWords (p : List Word) : Nat := bits (wordAt p 0) 27 24
def pWidx (p : List Word) : Nat := bits (wordAt p 0) 23 20
def pCtx (p : List Word) : Nat := bits (wordAt p 0) 19 16
def pBin (p : List Word) : Nat := bits (wordAt p 0) 11 0
def pRec (p : List Word) : Nat := (wordAt p 1).toNat

/-- The lowest word of a BIN block that breaks R270. -/
def binBad (b : List Word) (scr : Nat) : Option Nat :=
  firstBad (
    [(0, bNbin b = 0 || decide (4096 < bNbin b) || bits (wordAt b 0) 15 9 ≠ 0 || decide (256 < bNpatch b)),
     (6, decide (scr < bPatch b + 16 * bNpatch b)), (7, decide (scr < bArrival b + 4))] ++
    (List.range 5).map fun k => (11 + k, decide (wordAt b (11 + k) ≠ 0)))

/-- The lowest word of a patch entry that breaks R270. -/
def patchBad (p : List Word) (nbin scr : Nat) : Option Nat :=
  firstBad [(0, bits (wordAt p 0) 30 28 ≠ 0 || bits (wordAt p 0) 15 12 ≠ 0 || decide (nbin ≤ pBin p) || decide (pWords p < pWidx p)),
    (1, pRecord p && decide (scr < pRec p + 4 * (pWords p + 1))), (3, decide (wordAt p 3 ≠ 0))]

/-- The trap of the first patch entry that is misaligned or breaks R270; its own offset and word index are reported. -/
def State.patchTrap (s : State) (b : List Word) (nbin : Nat) : Nat → Nat → Option Res
  | 0, _ => none
  | m + 1, i =>
    let p := binPatch b i
    let off := bPatch b + 16 * i
    if pRecord p && decide (pRec p % 4 ≠ 0) then some (.trap { cause := cALIGN, addr := BitVec.ofNat 64 (pRec p) })
    else
      match patchBad p nbin s.grp.scrSize with
      | some w => some (blockTrap off w)
      | none => State.patchTrap s b nbin m (i + 1)

/-- The effect of BIN: its block and its patch entries are read and checked (11 R270). -/
def perfBin (a : BitVec 7) (n : BitVec 4) (s : State) : Res :=
  s.inState n.toNat .closed fun _ =>
    let off := ((s.read a).lane 0).toNat
    match s.block off with
    | .error e => e
    | .ok b =>
      let scr := fun (x : Nat) => BitVec.ofNat 64 x
      match firstOdd [(bKeys b, 4), (bCounts b, 4), (scr (bPatch b), 16), (scr (bArrival b), 4)] with
      | some va => .trap { cause := cALIGN, addr := va }
      | none =>
        match binBad b s.grp.scrSize with
        | some w => blockTrap off w
        | none =>
          let blk := b ++ s.grp.scrWords (bPatch b) (4 * bNpatch b)
          match s.patchTrap blk (bNbin b) (bNpatch b) 0 with
          | some r => r
          | none => s.startCtx n.toNat .bin off blk (bNbin b)

/-- Count the keys of a BIN from the cursor on; counts stand in work, keys outside in its last place (11 R270). -/
def State.binKeys (s : State) (gid n : Nat) (x : Ctx) : Nat → Except State (State × Ctx)
  | 0 => .ok (s, x)
  | m + 1 =>
    match s.engRead gid 2 (elemAt (bKeys x.blk) x.curA 4) 4 with
    | .ok bs s =>
      let k := min (leNat bs) (bNbin x.blk)
      State.binKeys s gid n { x with curA := x.curA + 1, work := x.work.set k (x.work.getD k 0 + 1) } m
    | r => .error (ctxFault gid n x r)

/-- Write the counts of a BIN from the cursor on (11 R270, R271). -/
def State.binCounts (s : State) (gid n : Nat) (x : Ctx) : Nat → Except State (State × Ctx)
  | 0 => .ok (s, x)
  | m + 1 =>
    match s.engWrite gid 2 (elemAt (bCounts x.blk) x.curA 4) (leBytes 4 (x.work.getD x.curA 0)) with
    | .ok _ s => State.binCounts s gid n { x with curA := x.curA + 1 } m
    | r => .error (ctxFault gid n x r)

/-- Release the held context a patch names with a count as its slots (11 R270). The count itself is the number of slots, so
that a count of 0 transfers none (DEDUCED, log 22). -/
def State.binRelease (s : State) (gid : Nat) (x : Ctx) (c k : Nat) : State × Bool :=
  let y := (s.group gid).ctx c
  if y.st = .held then
    (s.setCtx gid c ({ y with total := min k (tileTotal y.blk y.desc) }.go x.bid x.acc), true)
  else (s, false)

/-- Apply the patches of a BIN from the cursor on; a record that finds no room stops it there (11 R270). -/
def State.binPatches (s : State) (gid : Nat) (x : Ctx) : Nat → State × Ctx × Bool
  | 0 => (s, x, true)
  | m + 1 =>
    let p := binPatch x.blk x.curB
    let k := x.work.getD (pBin p) 0
    if !pRecord p then
      let (s, ok) := s.binRelease gid x (pCtx p) k
      State.binPatches s gid { x with curB := x.curB + 1, skip := if ok then x.skip else x.skip + 1 } m
    else
      let s := s.engWord gid (pRec p + 4 * pWidx p) (BitVec.ofNat 32 k)
      if k = 0 then State.binPatches s gid { x with curB := x.curB + 1 } m
      else
        let g := s.group gid
        match (s.releaseGroup gid 2).sendRecord g.node (wordAt p 2) (g.scrWords (pRec p) (pWords p + 1)) with
        | some s => State.binPatches s gid { x with curB := x.curB + 1 } m
        | none => (s, x, false)

/-- BIN at work: phase 0 counts, phase 1 writes the counts and OUTRANGE, phase 2 applies the patches and ends with SKIPPED and the
arrival word (11 R270). done holds the phase, curA the index of the first two, curB that of the last (11 R271). -/
def State.binStep (s : State) (gid n : Nat) : State :=
  let x := (s.group gid).ctx n
  if s.resident gid && x.st = .running && x.kind = .bin && !x.parked then
    let x := if x.work.isEmpty then { x with work := List.replicate (bNbin x.blk + 1) 0 } else x
    match (if x.done = 0 then s.binKeys gid n x (bCount x.blk - x.curA) else .ok (s, x)) with
    | .error s => s
    | .ok (s, x) =>
      let x := if x.done = 0 then { x with done := 1, curA := 0 } else x
      match (if x.done = 1 then s.binCounts gid n x (bNbin x.blk - x.curA) else .ok (s, x)) with
      | .error s => s
      | .ok (s, x) =>
        let s := if x.done = 1 then s.engWord gid (x.block + 36) (BitVec.ofNat 32 (x.work.getD (bNbin x.blk) 0)) else s
        match s.binPatches gid { x with done := 2 } (bNpatch x.blk - x.curB) with
        | (s, x, true) =>
          let s := s.engWord gid (x.block + 40) (BitVec.ofNat 32 x.skip)
          (s.wbPath (s.group gid).core 2).endCtx gid n (bArrival x.blk) (wordAt x.blk 8)
        | (s, x, false) => s.setCtx gid n x
  else s

/-- BIN_COMPLETION (11 R270). -/
def execBinCompletion (g n : Nat) (s : State) : Host.Outcome State Fault Refusal := .next (s.tick.binStep g n)

/-! ## The meanings, as exec runs them -/

/-- SOPEN as a word of the clause in progress (R267). -/
def execSopen (a : BitVec 7) (s : BitVec 4) (σ : State) :
    Host.Outcome State Fault Refusal := σ.runWord (.sopen a s) (perfSopen a s)

/-- SGO as a word of the clause in progress (R267). -/
def execSgo (s : BitVec 4) (σ : State) : Host.Outcome State Fault Refusal := σ.runWord (.sgo s) (perfSgo s)

/-- SSLOT as a word of the clause in progress (R267). -/
def execSslot (c : BitVec 7) (s : BitVec 4) (σ : State) :
    Host.Outcome State Fault Refusal := σ.runWord (.sslot c s) (perfSslot c s)

/-- SSTAT as a word of the clause in progress (R268). -/
def execSstat (d : BitVec 7) (s : BitVec 4) (σ : State) :
    Host.Outcome State Fault Refusal := σ.runWord (.sstat d s) (perfSstat d s)

/-- SCLOSE as a word of the clause in progress (R267). -/
def execSclose (s : BitVec 4) (σ : State) : Host.Outcome State Fault Refusal := σ.runWord (.sclose s) (perfSclose s)

/-- COPY as a word of the clause in progress (R267). -/
def execCopy (a : BitVec 7) (s : BitVec 4) (σ : State) :
    Host.Outcome State Fault Refusal := σ.runWord (.copy a s) (perfCopy a s)

/-- SORT as a word of the clause in progress (R269). -/
def execSort (a : BitVec 7) (s : BitVec 4) (σ : State) :
    Host.Outcome State Fault Refusal := σ.runWord (.sort a s) (perfSort a s)

/-- BIN as a word of the clause in progress (R270). -/
def execBin (a : BitVec 7) (s : BitVec 4) (σ : State) :
    Host.Outcome State Fault Refusal := σ.runWord (.bin a s) (perfBin a s)

end Sys2Proof.Machine
end

