-- ==== Sys2Proof/Machine/Coll.lean ====
section
/-!
DEFINITION. Collectives: COLL and the transfers between members (18 R398 to R401).
-/
namespace Sys2Proof.Machine

/-! ## Blocks and group entries -/

/-- Fields of a COLL block (18 R398). -/
def kOp (b : List Word) : Nat := bits (wordAt b 0) 31 28
def kGroup (b : List Word) : Nat := bits (wordAt b 0) 5 0
def kId (b : List Word) : Word := wordAt b 1
def kCount (b : List Word) : Nat := (wordAt b 2).toNat
def kRoot (b : List Word) : Nat := bits (wordAt b 3) 11 0
def kSrc (b : List Word) : DWord := pair64 (wordAt b 4) (wordAt b 5)
def kDst (b : List Word) : DWord := pair64 (wordAt b 6) (wordAt b 7)
def kArrival (b : List Word) : Nat := (wordAt b 8).toNat

/-- Fields of a collective group entry (18 R399). -/
def cgValid (e : List Word) : Bool := bit (wordAt e 0) 31
def cgRank (e : List Word) : Nat := bits (wordAt e 0) 27 16
def cgMembers (e : List Word) : Nat := bits (wordAt e 0) 11 0 + 1
def cgUp (e : List Word) : Nat := bits (wordAt e 1) 31 28
def cgSub (e : List Word) : Nat := bits (wordAt e 1) 23 12 + 1
def cgDown (e : List Word) (p : Nat) : Bool := decide (p < 12) && bit (wordAt e 1) p

/-- The entry of a collective group. -/
def State.collEntry (s : State) (g : Nat) : List Word := Tab.get [] s.dev.coll g

/-- Whether the device's own group entry holds a value its fields do not have (18 R399). -/
def entryBad (e : List Word) : Bool := !cgValid e || decide (cgMembers e ≤ cgRank e) || (decide (12 ≤ cgUp e) && cgUp e ≠ 15)

/-- Whether a COLL block breaks R398 by value, or names an entry that breaks R399. -/
def collBad (b e : List Word) (scr : Nat) : Bool :=
  let n := kCount b
  decide (3 < kOp b) || decide (bits (wordAt b 0) 27 6 ≠ 0) || entryBad e ||
    (if kOp b = 0 then decide (2 ^ 24 < n) else if kOp b = 3 then decide (n ≠ 0) else decide (n % 4 ≠ 0)) ||
    decide (bits (wordAt b 3) 31 12 ≠ 0) || decide (cgMembers e ≤ kRoot b) || decide (scr < kArrival b + 4) ||
    (List.range 6).any fun i => wordAt b (10 + i) ≠ 0

/-- The bytes a COLL reads at SRC and writes at DST on this device (18 R400). -/
def srcBytes (b e : List Word) : Nat :=
  if kOp b = 0 then 4 * kCount b else if kOp b = 1 then (if cgRank e = kRoot b then kCount b else 0)
  else if kOp b = 2 then kCount b else 0
def dstBytes (b e : List Word) : Nat :=
  if kOp b = 0 then 4 * kCount b else if kOp b = 1 then kCount b
  else if kOp b = 2 then (if cgRank e = kRoot b then kCount b * cgMembers e else 0) else 0

/-- The pages of n bytes checked for an access and a kind; exact words must have TARGET 0 (18 R398). -/
def State.rangePages (s : State) (p : Party) (acc : AccBits) (kind : Nat) : Nat → DWord → Nat → EAns Unit
  | 0, _, _ => .ok () s
  | f + 1, va, n =>
    if n = 0 then .ok () s
    else if inAperture va then .fault cKIND va s
    else
      match s.globAcc p va acc [kind] with
      | .bad c => .fault c va s
      | .miss => .miss va acc s
      | .ok (.scr _) => .fault cKIND va s
      | .ok (.mem x) =>
        if kind = 3 ∧ keyTarget x.key ≠ 0 then .fault cKIND va s
        else
          let room := min n (2 ^ x.size - va.toNat % 2 ^ x.size)
          State.rangePages s p acc kind f (va + BitVec.ofNat 64 room) (n - room)

/-! ## Transfers -/

/-- Two cells added (18 R400): the sum of their sums, and every flag that either holds. -/
def exactMerge (a b : Nat) : Nat :=
  (a % 2 ^ 376 + b % 2 ^ 376) % 2 ^ 376 + (a / 2 ^ 376 % 8 ||| b / 2 ^ 376 % 8) * 2 ^ 376

/-- Cells added element by element. -/
def mergeCells (a b : List Nat) : List Nat :=
  if a.isEmpty then b else if b.isEmpty then a else List.zipWith exactMerge a b

/-- What some transfers account for together: cells summed for ALLREDUCE, parts side by side for the others. -/
def mergeParts (op : Nat) (ps : List (List (Nat × List Nat))) : List (Nat × List Nat) :=
  if op = 0 then [(0, (ps.flatten.map (·.2)).foldl mergeCells [])] else ps.flatten

/-- A transfer of a command, for some members. -/
def xferOf (b : List Word) (members : Nat) (parts : List (Nat × List Nat)) : CollXfer :=
  { group := kGroup b, collid := kId b, op := kOp b, count := kCount b, root := kRoot b, members := members, parts := parts }

/-- Whether a transfer belongs to a group and a tag. -/
def xferIs (x : CollXfer) (g : Nat) (id : Word) : Bool := x.group = g && x.collid = id

/-- The transfers held for a command, and the state without them. -/
def State.collHeld (s : State) (b : List Word) : List (Nat × CollXfer) := s.dev.collIn.filter fun t => xferIs t.2 (kGroup b) (kId b)
def State.collDrop (s : State) (b : List Word) (p : Nat → Bool) : State :=
  { s with dev := { s.dev with collIn := s.dev.collIn.filter fun t => !(xferIs t.2 (kGroup b) (kId b) && p t.1) } }
def State.collPut (s : State) (port : Nat) (x : CollXfer) : State :=
  { s with dev := { s.dev with collIn := s.dev.collIn ++ [(port, x)] } }

/-- Send a transfer through a port, with the next sequence tag there; a port that is down drops it and counts it (08 R214, 18 R397). -/
def State.collSend (s : State) (x : CollXfer) (port : Nat) : State :=
  let p := Tab.get {} s.dev.ports port
  let tag := (s.dev.collOut.filter fun t => t.1 = port).length
  if p.up then { s with dev := { s.dev with collOut := s.dev.collOut ++ [(port, { x with tag := tag })] } }
  else { s with dev := { s.dev with ports := Tab.put s.dev.ports port { p with dropwr := satInc 32 p.dropwr } } }

/-- Ports to the subtrees below. -/
def downPorts (e : List Word) : List Nat := (List.range 12).filter (cgDown e)

/-- Members that the transfers from below, this device's own part, or its subtree sent up, account for. -/
def heldMembers (ts : List (Nat × CollXfer)) (up : Nat) : Nat :=
  (ts.filter fun t => t.1 ≠ up ∧ t.1 ≠ resultPort).foldl (fun a t => a + t.2.members) 0

/-- Whether some held transfer is one the member's entry does not expect, or differs in OP, COUNT or ROOT (18 R399, R400). -/
def collUnexpected (b e : List Word) (ts : List (Nat × CollXfer)) : Bool :=
  let up := cgUp e
  ts.any (fun t => (decide (t.1 < 12) && !cgDown e t.1 && t.1 ≠ up) ||
    decide (t.2.op ≠ kOp b) || decide (t.2.count ≠ kCount b) || decide (t.2.root ≠ kRoot b)) ||
    decide (cgSub e < heldMembers ts up) || decide (1 < (ts.filter fun t => t.1 = up).length)

/-- Whether a command finds a transfer it does not expect: once its result stands it expects no other (18 R399). -/
def State.collOdd (s : State) (x : Ctx) : Bool :=
  let ts := s.collHeld x.blk
  if x.curA = 2 then ts.any fun t => t.1 ≠ resultPort else collUnexpected x.blk (s.collEntry (kGroup x.blk)) ts

/-! ## The command at work -/

/-- A fault or a page of a COLL: as of any context, on the COL path (11 R271, 15 R347). -/
def collFault {α : Type} (gid n : Nat) (x : Ctx) : EAns α → State
  | .ok _ s => s
  | .fault cause va s => (ctxFault gid n x (.fault cause va s : EAns α)).collDrop x.blk fun _ => true
  | .miss va acc s => (s.setCtx gid n { x with parked := true }).engPark (.ctx gid n) gid 5 va acc

/-- This device's own part: its words as cells, its bytes, or nothing (18 R400). -/
def State.collOwn (s : State) (gid : Nat) (b e : List Word) : EAns (List (Nat × List Nat)) :=
  let n := srcBytes b e
  if n = 0 then .ok [] s
  else
    (s.engRead gid 5 (kSrc b) n).bind fun bs s =>
      if kOp b = 0 then
        .ok [(0, (List.range (kCount b)).map fun i => exactAdd 0 (BitVec.ofNat 32 (leNat ((bs.drop (4 * i)).take 4))))] s
      else .ok [(cgRank e, bs.map BitVec.toNat)] s

/-- One element of ALLREDUCE's result contributed to its word here (09 R233, 18 R400). -/
def State.collCell (s : State) (gid n : Nat) (x : Ctx) (i cell : Nat) : Except State State :=
  let p := (s.group gid).engine
  let va := kDst x.blk + BitVec.ofNat 64 (4 * i)
  match s.globAcc p va 3 [3] with
  | .bad c => .error (collFault gid n x (EAns.fault c va s : EAns Unit))
  | .miss => .error (collFault gid n x (EAns.miss va 3 s : EAns Unit))
  | .ok (.scr _) => .error (collFault gid n x (EAns.fault cKIND va s : EAns Unit))
  | .ok (.mem y) =>
    match s.exactCell p va y 3 with
    | .bad c a _ => .error (collFault gid n x (EAns.fault c a s : EAns Unit))
    | .miss _ ms => .error ((s.setCtx gid n { x with parked := true }).parkAccess (.ctx gid n) p.core 5 ms)
    | .ok l =>
      if s.cellPoison (y.key / 64) l.keys then .error (collFault gid n x (EAns.fault cPOISON va s : EAns Unit))
      else
        let cl := Config.clusterOf p.core
        let s := (l.cx.foldl (fun s z => s.touch cl z 3) (s.touch cl y 3)).directWrite gid
        .ok (s.writeCell (y.key / 64) l.runs l.keys (exactMerge (s.readCell (y.key / 64) l.keys) cell))

/-- The cells of ALLREDUCE's result from an index on, the cursor following. -/
def State.collCells (s : State) (gid n : Nat) (x : Ctx) : List Nat → Except State State
  | [] => .ok s
  | c :: cs =>
    match s.collCell gid n x x.curB c with
    | .ok s => State.collCells s gid n { x with curB := x.curB + 1 } cs
    | .error s => .error s

/-- Bytes cut into words of four. -/
def fours : List Nat → List (List Nat)
  | a :: b :: c :: d :: t => [a, b, c, d] :: fours t
  | _ => []

/-- The words a BROADCAST or GATHER writes, each with its byte offset from DST (18 R400). -/
def collWords (b : List Word) (parts : List (Nat × List Nat)) : List (Nat × List Nat) :=
  (if kOp b = 1 then parts.take 1 else parts).flatMap fun p =>
    (fours p.2).zipIdx.map fun w => ((if kOp b = 1 then 0 else p.1 * kCount b) + 4 * w.2, w.1)

/-- Words written from an index on, the cursor following (18 R401). -/
def State.collPuts (s : State) (gid n : Nat) (x : Ctx) : List (Nat × List Nat) → Except State State
  | [] => .ok s
  | (off, w) :: ws =>
    match s.engWrite gid 5 (kDst x.blk + BitVec.ofNat 64 off) (w.map (BitVec.ofNat 8)) with
    | .ok _ s => State.collPuts s gid n { x with curB := x.curB + 1 } ws
    | r => .error (collFault gid n x r)

/-- The result written here, from the cursor on: exact cells, or words (18 R400, R401). -/
def State.collWrite (s : State) (gid n : Nat) (x : Ctx) (parts : List (Nat × List Nat)) : Except State State :=
  let b := x.blk
  if dstBytes b (s.collEntry (kGroup b)) = 0 then .ok s
  else if kOp b = 0 then s.collCells gid n x ((parts.headD (0, [])).2.drop x.curB)
  else s.collPuts gid n x ((collWords b parts).drop x.curB)

/-- COLL_COMPLETION: the arrival word, the context CLOSED, and an acquire at system scope on the LSU and COL paths (18 R400). -/
def State.collEnd (s : State) (gid n : Nat) (x : Ctx) : State :=
  (((s.collDrop x.blk fun _ => true).endCtx gid n (kArrival x.blk) (wordAt x.blk 9)).acquireGroup gid 3).dropPath
    (s.group gid).core 5

/-- Distributing: the result goes to the subtrees below and is written here, and the command completes. -/
def State.collDistribute (s : State) (gid n : Nat) (x : Ctx) : State :=
  match (s.collHeld x.blk).find? fun t => t.1 = resultPort with
  | none => s
  | some t =>
    match s.collWrite gid n x t.2.parts with
    | .error s => s
    | .ok s => s.collEnd gid n x

/-- The result stands: it is passed down, and distributing begins. -/
def State.collResult (s : State) (gid n : Nat) (x : Ctx) (parts : List (Nat × List Nat)) : State :=
  let e := s.collEntry (kGroup x.blk)
  let r := xferOf x.blk (cgMembers e) parts
  let s := (downPorts e).foldl (fun s p => s.collSend r p) ((s.collDrop x.blk fun _ => true).collPut resultPort r)
  let x := { x with curA := 2, curB := 0 }
  (s.setCtx gid n x).collDistribute gid n x

/-- Waiting for members: what its subtree has given goes up, or at the tree's root makes the result; elsewhere the result comes
down (18 R399, R400). -/
def State.collWait (s : State) (gid n : Nat) (x : Ctx) : State :=
  let b := x.blk
  let e := s.collEntry (kGroup b)
  let up := cgUp e
  let ts := s.collHeld b
  if s.collOdd x then collFault gid n x (EAns.fault cPROT 0 s : EAns Unit)
  else
    let sent := ts.any fun t => t.1 = sentPort
    let full := !sent && decide (heldMembers ts up = cgSub e)
    let mine := ts.filter fun t => t.1 ≠ up
    let parts := mergeParts (kOp b) (mine.map fun t => t.2.parts)
    if full && up = 15 then s.collResult gid n x parts
    else
      let s := if full then
          ((s.collDrop b fun p => p ≠ up).collPut sentPort (xferOf b (cgSub e) [])).collSend (xferOf b (cgSub e) parts) up
        else s
      match (if sent || full then ts.find? fun t => t.1 = up else none) with
      | some t => s.collResult gid n x t.2.parts
      | none => s

/-- A transfer that is not expected ends the command, parked or not (18 R399). -/
def State.collRefuse (s : State) (gid n : Nat) (x : Ctx) : State :=
  collFault gid n { x with parked := false } (EAns.fault cPROT 0 (s.unpark (.ctx gid n)) : EAns Unit)

/-- A COLL carried on from its phase (18 R401). -/
def State.collStep (s : State) (gid n : Nat) : State :=
  let x := (s.group gid).ctx n
  if s.resident gid && x.st = .running && x.kind = .coll && !x.parked then
    if s.collOdd x then s.collRefuse gid n x
    else if x.curA = 0 then
      match s.collOwn gid x.blk (s.collEntry (kGroup x.blk)) with
      | .ok parts s =>
        let x := { x with curA := 1, curB := kCount x.blk }
        ((s.collPut ownPort (xferOf x.blk 1 parts)).setCtx gid n x).collWait gid n x
      | r => collFault gid n x r
    else if x.curA = 1 then s.collWait gid n x
    else s.collDistribute gid n x
  else s

/-- The context that runs a COLL of a group and tag. -/
def State.collCtx (s : State) (g : Nat) (id : Word) : Option (Nat × Nat) :=
  s.groups.findSome? fun e => e.2.ctxs.findSome? fun c =>
    if c.2.st = .running && c.2.kind = .coll && kGroup c.2.blk = g && kId c.2.blk = id then some (e.1, c.1) else none

/-- The effect of COLL (18 R398, R400). -/
def perfColl (a : BitVec 7) (n : BitVec 4) (s : State) : Res :=
  s.inState n.toNat .closed fun _ =>
    let off := ((s.read a).lane 0).toNat
    match s.block off with
    | .error r => r
    | .ok b =>
      let e := s.collEntry (kGroup b)
      match firstOdd [(kSrc b, 4), (kDst b, 4), (BitVec.ofNat 64 (kArrival b), 4)] with
      | some va => .trap { cause := cALIGN, addr := va }
      | none =>
        if collBad b e s.grp.scrSize || (s.collCtx (kGroup b) (kId b)).isSome then
          .trap { cause := cPROT, addr := BitVec.ofNat 64 off }
        else
          let p := s.grp.engine
          let m := srcBytes b e
          let k := dstBytes b e
          let exact := kOp b = 0
          match (s.rangePages p 1 0 (m + 1) (kSrc b) m).bind fun _ s =>
              s.rangePages p (if exact then 3 else 2) (if exact then 3 else 0) (k + 1) (kDst b) k with
          | .fault c va _ => .trap { cause := c, addr := va }
          | .miss va acc _ => .park 5 [{ vpn := vpnOf va, acc := acc, va := va }]
          | .ok _ s =>
            let s := (s.releaseGroup s.cur.gid 3).wbPath s.grp.core 5
            let x : Ctx := { st := .running, kind := .coll, block := off, blk := b, total := kCount b, bid := s.cur.bid,
                             acc := s.cur.acc, clause := s.str.clause.id }
            .done ((s.setCtx s.cur.gid n.toNat x).collStep s.cur.gid n.toNat)

/-- A transfer that arrives at a port: the COLL it belongs to goes on, or ends where the transfer is unexpected, parked or not
(18 R399). It waits for a COLL not issued yet, or of a saved group. One whose sequence tag has come before is a duplicate and is discarded
(08 R214). A device that accepts only a reset takes none (18 R390). -/
def State.collArrive (s : State) (p : Nat) (t : CollXfer) : State :=
  let q := Tab.get {} s.dev.ports p
  if !s.accepts || !q.up || q.tags.contains t.tag then s
  else
    let s := { s with dev := { s.dev with ports := Tab.put s.dev.ports p { q with tags := t.tag :: q.tags } } }.collPut p t
    match s.collCtx t.group t.collid with
    | none => s
    | some (gid, n) =>
      let x := (s.group gid).ctx n
      if s.resident gid && s.collOdd x then s.collRefuse gid n x else s.collStep gid n

/-- COLL_TRANSFER (18 R399). -/
def execCollTransfer (p : Nat) (t : CollXfer) (s : State) : Host.Outcome State Fault Refusal := .next (s.tick.collArrive p t)

/-! ## The meanings, as exec runs them -/

/-- COLL as a word of the clause in progress (R398). -/
def execColl (a : BitVec 7) (s : BitVec 4) (σ : State) :
    Host.Outcome State Fault Refusal := σ.runWord (.coll a s) (perfColl a s)

end Sys2Proof.Machine
end

