-- ==== Sys2Proof/Machine/Mask.lean ====
section
/-!
DEFINITION. Compares into k registers and the mask instructions (02 R52, R58, R59; 04 R108 to R110).
-/
namespace Sys2Proof.Machine

/-- A mask from a condition on the lanes below W. -/
def laneMask (w : Nat) (p : Nat → Bool) : DWord :=
  BitVec.ofNat 64 ((List.range w).foldl (fun n i => if p i then n + 2 ^ i else n) 0)

/-- A compare of two words, written under a mode (02 R52, R59). -/
def State.cmp2 (s : State) (p : Word → Word → Bool) (m : BitVec 2) (d a b : BitVec 7) : Res :=
  let x := s.read a
  let y := s.read b
  .done (s.writeKMode (kNum d) m.toNat (laneMask s.lanes fun i => p (x.lane i) (y.lane i)))

/-- A compare of a word with an immediate, in set mode (02 R58). -/
def State.cmpImm (s : State) (p : Word → Word → Bool) (d a : BitVec 7) (i : BitVec 11) : Res :=
  let x := s.read a
  .done (s.writeKMode (kNum d) 0 (laneMask s.lanes fun j => p (x.lane j) (simm i)))

/-- The effect of ICMP.EQ. -/
def perfIcmpEq (_n : BitVec 1) (m : BitVec 2) (d a b : BitVec 7) (s : State) : Res := s.cmp2 (fun x y => x = y) m d a b

/-- The effect of ICMP.NE. -/
def perfIcmpNe (_n : BitVec 1) (m : BitVec 2) (d a b : BitVec 7) (s : State) : Res := s.cmp2 (fun x y => x ≠ y) m d a b

/-- The effect of ICMP.LT. -/
def perfIcmpLt (_n : BitVec 1) (m : BitVec 2) (d a b : BitVec 7) (s : State) : Res := s.cmp2 (fun x y => x.slt y) m d a b

/-- The effect of ICMP.LE. -/
def perfIcmpLe (_n : BitVec 1) (m : BitVec 2) (d a b : BitVec 7) (s : State) : Res := s.cmp2 (fun x y => x.sle y) m d a b

/-- The effect of ICMP.LTN. -/
def perfIcmpLtn (_n : BitVec 1) (m : BitVec 2) (d a b : BitVec 7) (s : State) : Res := s.cmp2 (fun x y => x.ult y) m d a b

/-- The effect of ICMP.LEN. -/
def perfIcmpLen (_n : BitVec 1) (m : BitVec 2) (d a b : BitVec 7) (s : State) : Res := s.cmp2 (fun x y => x.ule y) m d a b

/-- The effect of ICMPI.EQ. -/
def perfIcmpiEq (d a : BitVec 7) (i : BitVec 11) (s : State) : Res := s.cmpImm (fun x y => x = y) d a i

/-- The effect of ICMPI.LT. -/
def perfIcmpiLt (d a : BitVec 7) (i : BitVec 11) (s : State) : Res := s.cmpImm (fun x y => x.slt y) d a i

/-- The effect of ICMPI.LTN. -/
def perfIcmpiLtn (d a : BitVec 7) (i : BitVec 11) (s : State) : Res := s.cmpImm (fun x y => x.ult y) d a i

/-- KOP: every bit of KD below W, whatever EXEC holds (04 R109). -/
def State.kop (s : State) (d : BitVec 4) (x : DWord) : Res := .done (s.writeK d.toNat x)

/-- The effect of KOP.AND. -/
def perfKopAnd (d a b : BitVec 4) (s : State) : Res := s.kop d (s.readK a.toNat &&& s.readK b.toNat)

/-- The effect of KOP.OR. -/
def perfKopOr (d a b : BitVec 4) (s : State) : Res := s.kop d (s.readK a.toNat ||| s.readK b.toNat)

/-- The effect of KOP.XOR. -/
def perfKopXor (d a b : BitVec 4) (s : State) : Res := s.kop d (s.readK a.toNat ^^^ s.readK b.toNat)

/-- The effect of KOP.ANDN. -/
def perfKopAndn (d a b : BitVec 4) (s : State) : Res := s.kop d (s.readK a.toNat &&& ~~~ s.readK b.toNat)

/-- The effect of KOP.NOT. -/
def perfKopNot (d a : BitVec 4) (s : State) : Res := s.kop d (~~~ s.readK a.toNat)

/-- The effect of KOP.MOV. -/
def perfKopMov (d a : BitVec 4) (s : State) : Res := s.kop d (s.readK a.toNat)

/-- The effect of KOP.SETALL. -/
def perfKopSetall (d : BitVec 4) (s : State) : Res := s.kop d (onesMask 64)

/-- The effect of KOP.CLEAR. -/
def perfKopClear (d : BitVec 4) (s : State) : Res := s.kop d 0

/-- LIVE as a stream sees it: bit 0 in the A-stream (04 R103, R108, 11 R249). -/
def State.liveMask (s : State) : DWord := if s.cur.acc then 1 else s.bun.live

/-- EXEC pending in the clause (04 R108). -/
def State.execPend (s : State) : DWord := s.str.clause.execP

/-- A KEXEC writes the pending EXEC, a subset of LIVE (04 R108). -/
def State.setPend (s : State) (x : DWord) : Res :=
  .done (s.setStr { s.str with clause := { s.str.clause with execP := x &&& s.liveMask } })

/-- The effect of KEXEC.SAVE. -/
def perfKexecSave (d : BitVec 4) (s : State) : Res := .done (s.writeK d.toNat s.execPend)

/-- The effect of KEXEC.SET. -/
def perfKexecSet (a : BitVec 4) (s : State) : Res := s.setPend (s.readK a.toNat)

/-- The effect of KEXEC.AND. -/
def perfKexecAnd (a : BitVec 4) (s : State) : Res := s.setPend (s.execPend &&& s.readK a.toNat)

/-- The effect of KEXEC.ANDN. -/
def perfKexecAndn (a : BitVec 4) (s : State) : Res := s.setPend (s.execPend &&& ~~~ s.readK a.toNat)

/-- The effect of KEXEC.OR. -/
def perfKexecOr (a : BitVec 4) (s : State) : Res := s.setPend (s.execPend ||| s.readK a.toNat)

/-- The effect of KEXEC.ALL. -/
def perfKexecAll (s : State) : Res := s.setPend s.liveMask

/-! ## The meanings, as exec runs them -/

/-- ICMP_EQ as a word of the clause in progress (R59). -/
def execIcmpEq (n : BitVec 1) (m : BitVec 2) (d : BitVec 7) (a : BitVec 7) (b : BitVec 7) (s : State) :
    Host.Outcome State Fault Refusal := s.runWord (.icmpEq n m d a b) (perfIcmpEq n m d a b)

/-- ICMP_NE as a word of the clause in progress (R59). -/
def execIcmpNe (n : BitVec 1) (m : BitVec 2) (d : BitVec 7) (a : BitVec 7) (b : BitVec 7) (s : State) :
    Host.Outcome State Fault Refusal := s.runWord (.icmpNe n m d a b) (perfIcmpNe n m d a b)

/-- ICMP_LT as a word of the clause in progress (R59). -/
def execIcmpLt (n : BitVec 1) (m : BitVec 2) (d : BitVec 7) (a : BitVec 7) (b : BitVec 7) (s : State) :
    Host.Outcome State Fault Refusal := s.runWord (.icmpLt n m d a b) (perfIcmpLt n m d a b)

/-- ICMP_LE as a word of the clause in progress (R59). -/
def execIcmpLe (n : BitVec 1) (m : BitVec 2) (d : BitVec 7) (a : BitVec 7) (b : BitVec 7) (s : State) :
    Host.Outcome State Fault Refusal := s.runWord (.icmpLe n m d a b) (perfIcmpLe n m d a b)

/-- ICMP_LTN as a word of the clause in progress (R59). -/
def execIcmpLtn (n : BitVec 1) (m : BitVec 2) (d : BitVec 7) (a : BitVec 7) (b : BitVec 7) (s : State) :
    Host.Outcome State Fault Refusal := s.runWord (.icmpLtn n m d a b) (perfIcmpLtn n m d a b)

/-- ICMP_LEN as a word of the clause in progress (R59). -/
def execIcmpLen (n : BitVec 1) (m : BitVec 2) (d : BitVec 7) (a : BitVec 7) (b : BitVec 7) (s : State) :
    Host.Outcome State Fault Refusal := s.runWord (.icmpLen n m d a b) (perfIcmpLen n m d a b)

/-- ICMPI_EQ as a word of the clause in progress (R58). -/
def execIcmpiEq (d : BitVec 7) (a : BitVec 7) (i : BitVec 11) (s : State) :
    Host.Outcome State Fault Refusal := s.runWord (.icmpiEq d a i) (perfIcmpiEq d a i)

/-- ICMPI_LT as a word of the clause in progress (R58). -/
def execIcmpiLt (d : BitVec 7) (a : BitVec 7) (i : BitVec 11) (s : State) :
    Host.Outcome State Fault Refusal := s.runWord (.icmpiLt d a i) (perfIcmpiLt d a i)

/-- ICMPI_LTN as a word of the clause in progress (R58). -/
def execIcmpiLtn (d : BitVec 7) (a : BitVec 7) (i : BitVec 11) (s : State) :
    Host.Outcome State Fault Refusal := s.runWord (.icmpiLtn d a i) (perfIcmpiLtn d a i)

/-- KOP_AND as a word of the clause in progress (R109). -/
def execKopAnd (d : BitVec 4) (a : BitVec 4) (b : BitVec 4) (s : State) :
    Host.Outcome State Fault Refusal := s.runWord (.kopAnd d a b) (perfKopAnd d a b)

/-- KOP_OR as a word of the clause in progress (R109). -/
def execKopOr (d : BitVec 4) (a : BitVec 4) (b : BitVec 4) (s : State) :
    Host.Outcome State Fault Refusal := s.runWord (.kopOr d a b) (perfKopOr d a b)

/-- KOP_XOR as a word of the clause in progress (R109). -/
def execKopXor (d : BitVec 4) (a : BitVec 4) (b : BitVec 4) (s : State) :
    Host.Outcome State Fault Refusal := s.runWord (.kopXor d a b) (perfKopXor d a b)

/-- KOP_ANDN as a word of the clause in progress (R109). -/
def execKopAndn (d : BitVec 4) (a : BitVec 4) (b : BitVec 4) (s : State) :
    Host.Outcome State Fault Refusal := s.runWord (.kopAndn d a b) (perfKopAndn d a b)

/-- KOP_NOT as a word of the clause in progress (R109). -/
def execKopNot (d : BitVec 4) (a : BitVec 4) (s : State) :
    Host.Outcome State Fault Refusal := s.runWord (.kopNot d a) (perfKopNot d a)

/-- KOP_MOV as a word of the clause in progress (R109). -/
def execKopMov (d : BitVec 4) (a : BitVec 4) (s : State) :
    Host.Outcome State Fault Refusal := s.runWord (.kopMov d a) (perfKopMov d a)

/-- KOP_SETALL as a word of the clause in progress (R109). -/
def execKopSetall (d : BitVec 4) (s : State) :
    Host.Outcome State Fault Refusal := s.runWord (.kopSetall d) (perfKopSetall d)

/-- KOP_CLEAR as a word of the clause in progress (R109). -/
def execKopClear (d : BitVec 4) (s : State) : Host.Outcome State Fault Refusal := s.runWord (.kopClear d) (perfKopClear d)

/-- KEXEC_SAVE as a word of the clause in progress (R110). -/
def execKexecSave (d : BitVec 4) (s : State) :
    Host.Outcome State Fault Refusal := s.runWord (.kexecSave d) (perfKexecSave d)

/-- KEXEC_SET as a word of the clause in progress (R110). -/
def execKexecSet (a : BitVec 4) (s : State) : Host.Outcome State Fault Refusal := s.runWord (.kexecSet a) (perfKexecSet a)

/-- KEXEC_AND as a word of the clause in progress (R110). -/
def execKexecAnd (a : BitVec 4) (s : State) : Host.Outcome State Fault Refusal := s.runWord (.kexecAnd a) (perfKexecAnd a)

/-- KEXEC_ANDN as a word of the clause in progress (R110). -/
def execKexecAndn (a : BitVec 4) (s : State) :
    Host.Outcome State Fault Refusal := s.runWord (.kexecAndn a) (perfKexecAndn a)

/-- KEXEC_OR as a word of the clause in progress (R110). -/
def execKexecOr (a : BitVec 4) (s : State) : Host.Outcome State Fault Refusal := s.runWord (.kexecOr a) (perfKexecOr a)

/-- KEXEC_ALL as a word of the clause in progress (R110). -/
def execKexecAll (s : State) : Host.Outcome State Fault Refusal := s.runWord .kexecAll perfKexecAll

end Sys2Proof.Machine
end

