-- ==== Sys2Proof/Machine/Lane.lean ====
section
/-!
DEFINITION. Cross-lane and shape instructions (04 R120 to R127). A cross-lane source lane reads whatever EXEC holds there; a
lane outside LIVE reads as zero.
-/
namespace Sys2Proof.Machine

/-- What another lane reads in lane j of a value (04 R103, R120). -/
def State.laneOf (s : State) (v : Val) (j : Nat) : Word := if s.bun.live.getLsbD j then v.lane j else 0

/-- A shuffle: pick gives the source lane of lane i by its b, or none where the lane keeps its own value; U when a is U
(04 R113, R121). -/
def State.shuffle (s : State) (pick : Nat → Nat → Option Nat) (d a b : BitVec 7) : Res :=
  let x := s.read a
  let y := s.read b
  let v := match x with
    | .u w => if s.bun.live = onesMask s.grp.w then .u w
      else .g ((List.range s.grp.w).map fun i => match pick i (y.lane i).toNat with
        | some j => s.laneOf x j
        | none => x.lane i)
    | _ => .g ((List.range s.grp.w).map fun i => match pick i (y.lane i).toNat with
        | some j => s.laneOf x j
        | none => x.lane i)
  .done (s.aluWrite d [v])

/-- The effect of SHFL.IDX. -/
def perfShflIdx (_n : BitVec 1) (d a b : BitVec 7) (s : State) : Res :=
  s.shuffle (fun _ y => if y < s.grp.w then some y else none) d a b

/-- The effect of SHFL.XOR. -/
def perfShflXor (_n : BitVec 1) (d a b : BitVec 7) (s : State) : Res :=
  s.shuffle (fun i y => if i ^^^ y < s.grp.w then some (i ^^^ y) else none) d a b

/-- The effect of SHFL.UP. -/
def perfShflUp (_n : BitVec 1) (d a b : BitVec 7) (s : State) : Res :=
  s.shuffle (fun i y => if y ≤ i then some (i - y) else none) d a b

/-- The effect of SHFL.DN: the lane number is taken as it stands, without wrapping. -/
def perfShflDn (_n : BitVec 1) (d a b : BitVec 7) (s : State) : Res :=
  s.shuffle (fun i y => if i + y < s.grp.w then some (i + y) else none) d a b

/-- The effect of BALLOT: every bit of the k register (04 R122). -/
def perfBallot (_n : BitVec 1) (d a : BitVec 7) (s : State) : Res :=
  let x := s.read a
  .done (s.writeK (kNum d) (laneMask s.grp.w fun i => s.exec0.getLsbD i && x.lane i ≠ 0))

/-- The effect of READLANE (04 R123). -/
def perfReadlane (_n : BitVec 1) (d a b : BitVec 7) (s : State) : Res :=
  let j := ((s.read b).lane 0).toNat % s.grp.w
  .done (s.aluWrite d [.u (s.laneOf (s.read a) j)])

/-- The lanes where EXEC is set. -/
def State.active (s : State) : List Nat := (List.range s.lanes).filter fun i => s.exec0.getLsbD i

/-- One level of a tree over lanes: neighbours combined in pairs (04 R124). -/
def pairUp (f : Nat → Nat → Nat) : List Nat → List Nat
  | x :: y :: t => f x y :: pairUp f t
  | l => l

/-- The root of the tree over 2^n leaves (04 R124). -/
def treeRoot (f : Nat → Nat → Nat) : Nat → List Nat → Nat
  | 0, l => l.headD 0
  | n + 1, l => treeRoot f n (pairUp f l)

/-- The effect of REDADD (04 R124). -/
def perfRedadd (_n : BitVec 1) (m : BitVec 2) (d a b : BitVec 7) (s : State) : Res :=
  let w := s.grp.w
  if m = 3#2 then
    let x := s.readN a 2
    let y := pairLane (s.readN b 2) 0
    let t := (List.range w).map fun i =>
      if s.exec0.getLsbD i then (pair64 (s.laneOf (x.getD 0 (.u 0)) i) (s.laneOf (x.getD 1 (.u 0)) i)).toNat else 2 ^ 63
    let r : DWord := BitVec.ofNat 64 (F64.add (treeRoot F64.add w.log2 t) y.toNat)
    .done (s.aluWrite d [.u (r.setWidth 32), .u (r.extractLsb' 32 32)])
  else
    let x := s.read a
    let y := (s.read b).lane 0
    let v : Word :=
      if m = 0#2 then s.active.foldl (fun r i => r + s.laneOf x i) y
      else if m = 1#2 then
        BitVec.ofNat 32 (F32.encode .rne (exactSum (F32.decode y.toNat :: s.active.map fun i => F32.decode (s.laneOf x i).toNat)))
      else
        let t := (List.range w).map fun i => if s.exec0.getLsbD i then (s.laneOf x i).toNat else 2 ^ 31
        BitVec.ofNat 32 (F32.add (treeRoot F32.add w.log2 t) y.toNat)
    .done (s.aluWrite d [.u v])

/-- Minimum or maximum of two words in the mode of REDMM (04 R125). -/
def redmmOp (m : BitVec 2) (x y : Word) : Word :=
  if m = 0#2 then iminOp 0#2 x y
  else if m = 1#2 then imaxOp 0#2 x y
  else BitVec.ofNat 32 (F32.minmax (m = 3#2) x.toNat y.toNat)

/-- The effect of REDMM. Where every term is a NaN the result is the canonical NaN, as the order of R84 gives (04 R125). -/
def perfRedmm (_n : BitVec 1) (m : BitVec 2) (d a b : BitVec 7) (s : State) : Res :=
  let x := s.read a
  .done (s.aluWrite d [.u (s.active.foldl (fun r i => redmmOp m r (s.laneOf x i)) ((s.read b).lane 0))])

/-- SCAN's operation and its identity (04 R126). -/
def scanOp (m : BitVec 2) (x y : Word) : Word :=
  if m = 0#2 then x + y
  else if m = 1#2 then BitVec.ofNat 32 (F32.add x.toNat y.toNat)
  else if m = 2#2 then imaxOp 0#2 x y
  else iminOp 0#2 x y
def scanId (m : BitVec 2) : Word :=
  if m = 0#2 then 0 else if m = 1#2 then 0x80000000 else if m = 2#2 then 0x80000000 else 0x7FFFFFFF

/-- The steps of a scan at distances s, 2s, … (04 R126). -/
def scanSteps (m : BitVec 2) : Nat → Nat → List Word → List Word
  | 0, _, t => t
  | n + 1, k, t => scanSteps m n (2 * k) ((List.range t.length).map fun i =>
      if k ≤ i then scanOp m (wordAt t (i - k)) (wordAt t i) else wordAt t i)

/-- The effect of SCAN. -/
def perfScan (_n : BitVec 1) (m : BitVec 2) (d a b : BitVec 7) (s : State) : Res :=
  let w := s.grp.w
  let x := s.read a
  let t := (List.range w).map fun i => if s.exec0.getLsbD i then s.laneOf x i else scanId m
  let y := (s.read b).lane 0
  .done (s.aluWrite d [.g ((scanSteps m w.log2 1 t).map fun z => scanOp m z y)])

/-- The effect of SHAPEOF: a spilled register, an o and an l register read 2 (04 R127). -/
def perfShapeof (_n : BitVec 1) (d a : BitVec 7) (s : State) : Res :=
  .done (s.aluWrite d [.u (BitVec.ofNat 32 (s.read a).tag)])

/-- The effect of SHAPEGEN. -/
def perfShapegen (_n : BitVec 1) (d a : BitVec 7) (s : State) : Res :=
  .done (s.aluWrite d [.g ((s.read a).lanes s.grp.w)])

/-- The effect of MOVK (04 R113, R127). -/
def perfMovk (_n : BitVec 1) (d a : BitVec 7) (s : State) : Res :=
  let k := s.readK (kNum a)
  let one := fun i => if k.getLsbD i then (1 : Word) else 0
  .done (s.aluWrite d [if sameBits k s.grp.w then .u (one 0) else .g ((List.range s.grp.w).map one)])

/-! ## The meanings, as exec runs them -/

/-- SHFL_IDX as a word of the clause in progress (R121). -/
def execShflIdx (n : BitVec 1) (d : BitVec 7) (a : BitVec 7) (b : BitVec 7) (s : State) :
    Host.Outcome State Fault Refusal := s.runWord (.shflIdx n d a b) (perfShflIdx n d a b)

/-- SHFL_XOR as a word of the clause in progress (R121). -/
def execShflXor (n : BitVec 1) (d : BitVec 7) (a : BitVec 7) (b : BitVec 7) (s : State) :
    Host.Outcome State Fault Refusal := s.runWord (.shflXor n d a b) (perfShflXor n d a b)

/-- SHFL_UP as a word of the clause in progress (R121). -/
def execShflUp (n : BitVec 1) (d : BitVec 7) (a : BitVec 7) (b : BitVec 7) (s : State) :
    Host.Outcome State Fault Refusal := s.runWord (.shflUp n d a b) (perfShflUp n d a b)

/-- SHFL_DN as a word of the clause in progress (R121). -/
def execShflDn (n : BitVec 1) (d : BitVec 7) (a : BitVec 7) (b : BitVec 7) (s : State) :
    Host.Outcome State Fault Refusal := s.runWord (.shflDn n d a b) (perfShflDn n d a b)

/-- BALLOT as a word of the clause in progress (R122). -/
def execBallot (n : BitVec 1) (d : BitVec 7) (a : BitVec 7) (s : State) :
    Host.Outcome State Fault Refusal := s.runWord (.ballot n d a) (perfBallot n d a)

/-- READLANE as a word of the clause in progress (R123). -/
def execReadlane (n : BitVec 1) (d : BitVec 7) (a : BitVec 7) (b : BitVec 7) (s : State) :
    Host.Outcome State Fault Refusal := s.runWord (.readlane n d a b) (perfReadlane n d a b)

/-- REDADD as a word of the clause in progress (R124). -/
def execRedadd (n : BitVec 1) (m : BitVec 2) (d : BitVec 7) (a : BitVec 7) (b : BitVec 7) (s : State) :
    Host.Outcome State Fault Refusal := s.runWord (.redadd n m d a b) (perfRedadd n m d a b)

/-- REDMM as a word of the clause in progress (R125). -/
def execRedmm (n : BitVec 1) (m : BitVec 2) (d : BitVec 7) (a : BitVec 7) (b : BitVec 7) (s : State) :
    Host.Outcome State Fault Refusal := s.runWord (.redmm n m d a b) (perfRedmm n m d a b)

/-- SCAN as a word of the clause in progress (R126). -/
def execScan (n : BitVec 1) (m : BitVec 2) (d : BitVec 7) (a : BitVec 7) (b : BitVec 7) (s : State) :
    Host.Outcome State Fault Refusal := s.runWord (.scan n m d a b) (perfScan n m d a b)

/-- SHAPEOF as a word of the clause in progress (R127). -/
def execShapeof (n : BitVec 1) (d : BitVec 7) (a : BitVec 7) (s : State) :
    Host.Outcome State Fault Refusal := s.runWord (.shapeof n d a) (perfShapeof n d a)

/-- SHAPEGEN as a word of the clause in progress (R127). -/
def execShapegen (n : BitVec 1) (d : BitVec 7) (a : BitVec 7) (s : State) :
    Host.Outcome State Fault Refusal := s.runWord (.shapegen n d a) (perfShapegen n d a)

/-- MOVK as a word of the clause in progress (R127). -/
def execMovk (n : BitVec 1) (d : BitVec 7) (a : BitVec 7) (s : State) :
    Host.Outcome State Fault Refusal := s.runWord (.movk n d a) (perfMovk n d a)

end Sys2Proof.Machine
end

