-- ==== Sys2Proof/Machine/Fp.lean ====
section
/-!
DEFINITION. The floating-point instructions of format RRR, the floating-point compares, FCLASS and CVT (03 R82 to R94).
-/
namespace Sys2Proof.Machine

/-- A function on 16-bit patterns applied to each element of a packed word (03 R77, R82). -/
def packed1 (f : Nat → Nat) (a : Word) : Word := BitVec.ofNat 32 (f (a.toNat % 65536) + 65536 * f (a.toNat / 65536))
def packed2 (f : Nat → Nat → Nat) (a b : Word) : Word :=
  BitVec.ofNat 32 (f (a.toNat % 65536) (b.toNat % 65536) + 65536 * f (a.toNat / 65536) (b.toNat / 65536))
def packed3 (f : Nat → Nat → Nat → Nat) (a b c : Word) : Word :=
  BitVec.ofNat 32 (f (a.toNat % 65536) (b.toNat % 65536) (c.toNat % 65536) +
    65536 * f (a.toNat / 65536) (b.toNat / 65536) (c.toNat / 65536))

/-- An operation of every format as it acts on a word of type M2 00, 01 or 10 (01 R37, 03 R82). -/
def fpWord1 (f : Fmt → Nat → Nat) (m : BitVec 2) (a : Word) : Word :=
  if m = 0#2 then BitVec.ofNat 32 (f F32 a.toNat) else packed1 (f (if m = 1#2 then F16 else BF16)) a
def fpWord2 (f : Fmt → Nat → Nat → Nat) (m : BitVec 2) (a b : Word) : Word :=
  if m = 0#2 then BitVec.ofNat 32 (f F32 a.toNat b.toNat) else packed2 (f (if m = 1#2 then F16 else BF16)) a b
def fpWord3 (f : Fmt → Nat → Nat → Nat → Nat) (m : BitVec 2) (a b c : Word) : Word :=
  if m = 0#2 then BitVec.ofNat 32 (f F32 a.toNat b.toNat c.toNat) else packed3 (f (if m = 1#2 then F16 else BF16)) a b c

/-- A one-source floating-point instruction (03 R82, R86). -/
def State.fp1 (s : State) (f : Fmt → Nat → Nat) (m : BitVec 2) (d a : BitVec 7) : Res :=
  if m = 3#2 then
    let x := s.readN a 2
    .done (s.aluWrite d (s.pairOut (x.all Val.isU) fun i => BitVec.ofNat 64 (f F64 (pairLane x i).toNat)))
  else s.alu1 (fpWord1 f m) d a

/-- A two-source floating-point instruction. -/
def State.fp2 (s : State) (f : Fmt → Nat → Nat → Nat) (m : BitVec 2) (d a b : BitVec 7) : Res :=
  if m = 3#2 then s.alu64 (fun x y => BitVec.ofNat 64 (f F64 x.toNat y.toNat)) d a b
  else s.alu2 (fpWord2 f m) d a b

/-- A fused instruction, which reads its destination as its first argument (03 R82, R83). -/
def State.fp3 (s : State) (f : Fmt → Nat → Nat → Nat → Nat) (m : BitVec 2) (d a b : BitVec 7) : Res :=
  if m = 3#2 then
    let z := s.readN d 2
    let x := s.readN a 2
    let y := s.readN b 2
    .done (s.aluWrite d (s.pairOut ((z ++ x ++ y).all Val.isU) fun i =>
      BitVec.ofNat 64 (f F64 (pairLane z i).toNat (pairLane x i).toNat (pairLane y i).toNat)))
  else .done (s.aluWrite d [s.map3 (fpWord3 f m) (s.read d) (s.read a) (s.read b)])

/-- The effect of FADD. -/
def perfFadd (_n : BitVec 1) (m : BitVec 2) (d a b : BitVec 7) (s : State) : Res := s.fp2 Fmt.add m d a b

/-- The effect of FSUB. -/
def perfFsub (_n : BitVec 1) (m : BitVec 2) (d a b : BitVec 7) (s : State) : Res := s.fp2 Fmt.sub m d a b

/-- The effect of FMUL. -/
def perfFmul (_n : BitVec 1) (m : BitVec 2) (d a b : BitVec 7) (s : State) : Res := s.fp2 Fmt.mul m d a b

/-- The effect of FFMA. -/
def perfFfma (_n : BitVec 1) (m : BitVec 2) (d a b : BitVec 7) (s : State) : Res := s.fp3 Fmt.fma m d a b

/-- The effect of FFMS. -/
def perfFfms (_n : BitVec 1) (m : BitVec 2) (d a b : BitVec 7) (s : State) : Res := s.fp3 Fmt.fms m d a b

/-- The effect of FNMA. -/
def perfFnma (_n : BitVec 1) (m : BitVec 2) (d a b : BitVec 7) (s : State) : Res := s.fp3 Fmt.nma m d a b

/-- The effect of FMIN. -/
def perfFmin (_n : BitVec 1) (m : BitVec 2) (d a b : BitVec 7) (s : State) : Res :=
  s.fp2 (fun f => f.minmax false) m d a b

/-- The effect of FMAX. -/
def perfFmax (_n : BitVec 1) (m : BitVec 2) (d a b : BitVec 7) (s : State) : Res :=
  s.fp2 (fun f => f.minmax true) m d a b

/-- The effect of FABS. -/
def perfFabs (_n : BitVec 1) (m : BitVec 2) (d a : BitVec 7) (s : State) : Res := s.fp1 Fmt.abs m d a

/-- The effect of FNEG. -/
def perfFneg (_n : BitVec 1) (m : BitVec 2) (d a : BitVec 7) (s : State) : Res := s.fp1 Fmt.neg m d a

/-- The effect of FCLASS. -/
def perfFclass (_n : BitVec 1) (d a : BitVec 7) (s : State) : Res :=
  s.alu1 (fun x => BitVec.ofNat 32 (fclassOf x.toNat)) d a

/-- Compares of two values (03 R87). -/
def fcEq (x y : Num) : Bool := x.eq y
def fcNe (x y : Num) : Bool := !x.eq y
def fcLt (x y : Num) : Bool := x.lt y
def fcLe (x y : Num) : Bool := x.lt y || x.eq y
def fcUn (x y : Num) : Bool := x.isNan || y.isNan

/-- A compare of f32 words. -/
def State.fcmp (s : State) (p : Num → Num → Bool) (m : BitVec 2) (d a b : BitVec 7) : Res :=
  s.cmp2 (fun x y => p (F32.decode x.toNat) (F32.decode y.toNat)) m d a b

/-- A compare of f64 pairs. -/
def State.dcmp (s : State) (p : Num → Num → Bool) (m : BitVec 2) (d a b : BitVec 7) : Res :=
  let x := s.readN a 2
  let y := s.readN b 2
  .done (s.writeKMode (kNum d) m.toNat (laneMask s.lanes fun i =>
    p (F64.decode (pairLane x i).toNat) (F64.decode (pairLane y i).toNat)))

/-- The effect of FCMP.EQ. -/
def perfFcmpEq (_n : BitVec 1) (m : BitVec 2) (d a b : BitVec 7) (s : State) : Res := s.fcmp fcEq m d a b

/-- The effect of FCMP.NE. -/
def perfFcmpNe (_n : BitVec 1) (m : BitVec 2) (d a b : BitVec 7) (s : State) : Res := s.fcmp fcNe m d a b

/-- The effect of FCMP.LT. -/
def perfFcmpLt (_n : BitVec 1) (m : BitVec 2) (d a b : BitVec 7) (s : State) : Res := s.fcmp fcLt m d a b

/-- The effect of FCMP.LE. -/
def perfFcmpLe (_n : BitVec 1) (m : BitVec 2) (d a b : BitVec 7) (s : State) : Res := s.fcmp fcLe m d a b

/-- The effect of FCMP.UN. -/
def perfFcmpUn (_n : BitVec 1) (m : BitVec 2) (d a b : BitVec 7) (s : State) : Res := s.fcmp fcUn m d a b

/-- The effect of DCMP.LT. -/
def perfDcmpLt (_n : BitVec 1) (m : BitVec 2) (d a b : BitVec 7) (s : State) : Res := s.dcmp fcLt m d a b

/-- The effect of DCMP.EQ. -/
def perfDcmpEq (_n : BitVec 1) (m : BitVec 2) (d a b : BitVec 7) (s : State) : Res := s.dcmp fcEq m d a b

/-- One lane of a CVT source, as 64 bits. -/
def cvtSrc (x : List Val) (i : Nat) : DWord :=
  match x with
  | [a] => (a.lane i).setWidth 64
  | _ => pairLane x i

/-- The effect of CVT. Under STO the generator advances once, whatever EXEC holds, and the result is general (03 R90, R91,
R94). -/
def perfCvt (d a : BitVec 7) (t st : BitVec 4) (r : BitVec 3) (s : State) : Res :=
  let sto := r = 5#3
  let sr := if sto then srNext s.bun.sr else s.bun.sr
  let w := srWord sr
  let s := if sto then s.setBun { s.bun with sr := sr } else s
  let x := s.readN a (cvtWords st)
  let f := fun i => cvtOne t.toNat st.toNat (rndOf r.toNat (srBits w i 0)) (cvtSrc x i)
  let uni := x.all Val.isU && !sto
  let vs := s.pairOut uni f
  .done (s.aluWrite d (vs.take (cvtWords t)))

/-! ## The meanings, as exec runs them -/

/-- FADD as a word of the clause in progress (R82). -/
def execFadd (n : BitVec 1) (m : BitVec 2) (d : BitVec 7) (a : BitVec 7) (b : BitVec 7) (s : State) :
    Host.Outcome State Fault Refusal := s.runWord (.fadd n m d a b) (perfFadd n m d a b)

/-- FSUB as a word of the clause in progress (R82). -/
def execFsub (n : BitVec 1) (m : BitVec 2) (d : BitVec 7) (a : BitVec 7) (b : BitVec 7) (s : State) :
    Host.Outcome State Fault Refusal := s.runWord (.fsub n m d a b) (perfFsub n m d a b)

/-- FMUL as a word of the clause in progress (R82). -/
def execFmul (n : BitVec 1) (m : BitVec 2) (d : BitVec 7) (a : BitVec 7) (b : BitVec 7) (s : State) :
    Host.Outcome State Fault Refusal := s.runWord (.fmul n m d a b) (perfFmul n m d a b)

/-- FFMA as a word of the clause in progress (R82). -/
def execFfma (n : BitVec 1) (m : BitVec 2) (d : BitVec 7) (a : BitVec 7) (b : BitVec 7) (s : State) :
    Host.Outcome State Fault Refusal := s.runWord (.ffma n m d a b) (perfFfma n m d a b)

/-- FFMS as a word of the clause in progress (R82). -/
def execFfms (n : BitVec 1) (m : BitVec 2) (d : BitVec 7) (a : BitVec 7) (b : BitVec 7) (s : State) :
    Host.Outcome State Fault Refusal := s.runWord (.ffms n m d a b) (perfFfms n m d a b)

/-- FNMA as a word of the clause in progress (R82). -/
def execFnma (n : BitVec 1) (m : BitVec 2) (d : BitVec 7) (a : BitVec 7) (b : BitVec 7) (s : State) :
    Host.Outcome State Fault Refusal := s.runWord (.fnma n m d a b) (perfFnma n m d a b)

/-- FMIN as a word of the clause in progress (R84). -/
def execFmin (n : BitVec 1) (m : BitVec 2) (d : BitVec 7) (a : BitVec 7) (b : BitVec 7) (s : State) :
    Host.Outcome State Fault Refusal := s.runWord (.fmin n m d a b) (perfFmin n m d a b)

/-- FMAX as a word of the clause in progress (R84). -/
def execFmax (n : BitVec 1) (m : BitVec 2) (d : BitVec 7) (a : BitVec 7) (b : BitVec 7) (s : State) :
    Host.Outcome State Fault Refusal := s.runWord (.fmax n m d a b) (perfFmax n m d a b)

/-- FABS as a word of the clause in progress (R85). -/
def execFabs (n : BitVec 1) (m : BitVec 2) (d : BitVec 7) (a : BitVec 7) (s : State) :
    Host.Outcome State Fault Refusal := s.runWord (.fabs n m d a) (perfFabs n m d a)

/-- FNEG as a word of the clause in progress (R85). -/
def execFneg (n : BitVec 1) (m : BitVec 2) (d : BitVec 7) (a : BitVec 7) (s : State) :
    Host.Outcome State Fault Refusal := s.runWord (.fneg n m d a) (perfFneg n m d a)

/-- FCLASS as a word of the clause in progress (R88). -/
def execFclass (n : BitVec 1) (d : BitVec 7) (a : BitVec 7) (s : State) :
    Host.Outcome State Fault Refusal := s.runWord (.fclass n d a) (perfFclass n d a)

/-- FCMP_EQ as a word of the clause in progress (R87). -/
def execFcmpEq (n : BitVec 1) (m : BitVec 2) (d : BitVec 7) (a : BitVec 7) (b : BitVec 7) (s : State) :
    Host.Outcome State Fault Refusal := s.runWord (.fcmpEq n m d a b) (perfFcmpEq n m d a b)

/-- FCMP_NE as a word of the clause in progress (R87). -/
def execFcmpNe (n : BitVec 1) (m : BitVec 2) (d : BitVec 7) (a : BitVec 7) (b : BitVec 7) (s : State) :
    Host.Outcome State Fault Refusal := s.runWord (.fcmpNe n m d a b) (perfFcmpNe n m d a b)

/-- FCMP_LT as a word of the clause in progress (R87). -/
def execFcmpLt (n : BitVec 1) (m : BitVec 2) (d : BitVec 7) (a : BitVec 7) (b : BitVec 7) (s : State) :
    Host.Outcome State Fault Refusal := s.runWord (.fcmpLt n m d a b) (perfFcmpLt n m d a b)

/-- FCMP_LE as a word of the clause in progress (R87). -/
def execFcmpLe (n : BitVec 1) (m : BitVec 2) (d : BitVec 7) (a : BitVec 7) (b : BitVec 7) (s : State) :
    Host.Outcome State Fault Refusal := s.runWord (.fcmpLe n m d a b) (perfFcmpLe n m d a b)

/-- FCMP_UN as a word of the clause in progress (R87). -/
def execFcmpUn (n : BitVec 1) (m : BitVec 2) (d : BitVec 7) (a : BitVec 7) (b : BitVec 7) (s : State) :
    Host.Outcome State Fault Refusal := s.runWord (.fcmpUn n m d a b) (perfFcmpUn n m d a b)

/-- DCMP_LT as a word of the clause in progress (R87). -/
def execDcmpLt (n : BitVec 1) (m : BitVec 2) (d : BitVec 7) (a : BitVec 7) (b : BitVec 7) (s : State) :
    Host.Outcome State Fault Refusal := s.runWord (.dcmpLt n m d a b) (perfDcmpLt n m d a b)

/-- DCMP_EQ as a word of the clause in progress (R87). -/
def execDcmpEq (n : BitVec 1) (m : BitVec 2) (d : BitVec 7) (a : BitVec 7) (b : BitVec 7) (s : State) :
    Host.Outcome State Fault Refusal := s.runWord (.dcmpEq n m d a b) (perfDcmpEq n m d a b)

/-- CVT as a word of the clause in progress (R90). -/
def execCvt (d : BitVec 7) (a : BitVec 7) (t : BitVec 4) (s : BitVec 4) (r : BitVec 3) (σ : State) :
    Host.Outcome State Fault Refusal := σ.runWord (.cvt d a t s r) (perfCvt d a t s r)

end Sys2Proof.Machine
end

