-- ==== Sys2Proof/Machine/Sreg.lean ====
section
/-!
DEFINITION. Special registers: what GETS reads and SETS writes (01 R47, R48; 02 R61; 04 R107, R118; 15 R336, R338).
-/
namespace Sys2Proof.Machine

/-- A word of the shape readout (04 R118). -/
def State.shapeWord (s : State) (n : Nat) : Word :=
  let b := s.bun
  if n < 6 then
    BitVec.ofNat 32 ((List.range 16).foldl (fun a j => a + (b.vreg (16 * n + j)).code * 4 ^ j) 0)
  else if n = 6 then BitVec.ofNat 32 b.residents.length
  else if n = 7 then BitVec.ofNat 32 (s.budget s.grp)
  else if n = 8 then BitVec.ofNat 32 b.autoSlots.length
  else if n = 9 then b.live.setWidth 32
  else if n = 10 then b.live.extractLsb' 32 32
  else 0

/-- TRAPMASK as a stream reads it: MASK reads 0 outside handler mode (15 R338). -/
def Stream.trapMask (x : Stream) : Word :=
  BitVec.ofNat 32 ((if x.mask && x.handler then 1 else 0) + (if x.pnote then 2 else 0))

/-- The value of a special register; LANE is affine, and reads 0 in the A-stream (01 R47, R48, 11 R249). -/
def State.getSreg (s : State) (n : Nat) : Val :=
  let g := s.grp
  let b := s.bun
  let x := s.str
  let r := s.nodeRec g.node
  if n = 0 then (if s.cur.acc then .u 0 else .a 0 1)
  else if n = 1 then .u (BitVec.ofNat 32 g.w)
  else if n = 2 then .u (BitVec.ofNat 32 b.bundle)
  else if n = 3 then .u (BitVec.ofNat 32 g.group)
  else if n = 4 then .u g.handle
  else if n = 5 then .u (BitVec.ofNat 32 (b.orig.headD 0))
  else if 8 ≤ n ∧ n ≤ 0xF then .u (BitVec.ofNat 32 (nIndex r g.sysIdx.toNat g.w g.group b.bundle (n - 8)))
  else if 0x10 ≤ n ∧ n ≤ 0x17 then .u (BitVec.ofNat 32 (nExtent r (n - 0x10)))
  else if n = 0x18 then .u (BitVec.ofNat 32 g.recBase)
  else if n = 0x19 then .u (BitVec.ofNat 32 g.records.length)
  else if n = 0x20 ∨ n = 0x21 then .u (half (n = 0x21) b.sr)
  else if n = 0x28 then .u b.ra
  else if n = 0x2A ∨ n = 0x2B then .u (half (n = 0x2B) s.codeWin)
  else if n = 0x30 then .u x.rgnPc
  else if n = 0x31 then .u x.rgnCount
  else if n = 0x38 then .u (BitVec.ofNat 32 x.trapCause)
  else if n = 0x39 then .u x.trapInfo
  else if n = 0x3A then .u x.trapPc
  else if n = 0x3B ∨ n = 0x3C then .u (half (n = 0x3C) x.trapAddr)
  else if n = 0x3D then .u x.trapMask
  else if n = 0x40 then .u b.spillBase
  else if n = 0x48 ∨ n = 0x49 then .u (half (n = 0x49) s.dev.ctl.xaccWin)
  else if n = 0x4A ∨ n = 0x4B then .u (half (n = 0x4B) s.dev.ctl.xaccBack)
  else if n = 0x50 ∨ n = 0x51 then .u (half (n = 0x51) s.exec0)
  else if 0x60 ≤ n ∧ n ≤ 0x6F then .u (s.shapeWord (n - 0x60))
  else .u 0

/-- 64 bits with one half replaced. -/
def setHalf (hi : Bool) (x : DWord) (w : Word) : DWord := if hi then w ++ x.setWidth 32 else x.extractLsb' 32 32 ++ w

/-- A window base takes a value that is a multiple of 4 and keeps its own for any other (15 R336). -/
def mul4 (new old : DWord) : DWord := if new.toNat % 4 = 0 then new else old

/-- Write a special register, for the whole bundle or stream (02 R61, 15 R336, R338). -/
def State.setSreg (s : State) (n : Nat) (w : Word) : State :=
  let b := s.bun
  let c := s.dev.ctl
  if n = 0x20 ∨ n = 0x21 then s.setBun { b with sr := setHalf (n = 0x21) b.sr w }
  else if n = 0x28 then s.setBun { b with ra := w }
  else if n = 0x3D then s.setStr { s.str with mask := bit w 0, pnote := bit w 1 }
  else if n = 0x40 then
    let s := s.setBun { b with spillBase := w }
    s.setGrp { s.grp with areas := Tab.put s.grp.areas s.cur.bid w }
  else if n = 0x48 ∨ n = 0x49 then
    { s with dev := { s.dev with ctl := { c with xaccWin := mul4 (setHalf (n = 0x49) c.xaccWin w) c.xaccWin } } }
  else if n = 0x4A ∨ n = 0x4B then
    { s with dev := { s.dev with ctl := { c with xaccBack := mul4 (setHalf (n = 0x4B) c.xaccBack w) c.xaccBack } } }
  else s

/-- The effect of GETS. -/
def perfGets (d : BitVec 7) (i : BitVec 11) (s : State) : Res := .done (s.aluWrite d [s.getSreg i.toNat])

/-- The effect of SETS: nothing where EXEC is empty, and it enters nothing into the last-result file (02 R51, R61). -/
def perfSets (a : BitVec 7) (i : BitVec 11) (s : State) : Res :=
  if s.exec0 = 0 then .done s else .done (s.setSreg i.toNat ((s.read a).lane 0))

/-! ## The meanings, as exec runs them -/

/-- GETS as a word of the clause in progress (R61). -/
def execGets (d : BitVec 7) (i : BitVec 11) (s : State) :
    Host.Outcome State Fault Refusal := s.runWord (.gets d i) (perfGets d i)

/-- SETS as a word of the clause in progress (R61). -/
def execSets (a : BitVec 7) (i : BitVec 11) (s : State) :
    Host.Outcome State Fault Refusal := s.runWord (.sets a i) (perfSets a i)

end Sys2Proof.Machine
end

