-- ==== Sys2Proof/Machine/Ctl.lean ====
section
/-!
DEFINITION. Control: branches, calls and returns (02 R66 to R71), REFORM (04 R129 to R131), named barriers (04 R133 to R135),
ACQUIRE, GBAR and YIELD (05 R150, R155, R157), ordered sections (13 R327), TRAP, BRK and RTE (02 R70, 15 R340).
-/
namespace Sys2Proof.Machine

/-- The current stream's clause continues at a target when it ends (01 R19). -/
def State.jump (s : State) (t : Word) : Res :=
  .done (s.setStr { s.str with clause := { s.str.clause with target := some t } })

/-- Where the clause in progress ends: the header that follows it (01 R20). -/
def State.nextHeader (s : State) : Word := s.str.pc + BitVec.ofNat 32 (4 * (s.str.clause.words.length + 1))

/-- The target of a C-format offset, as a signed number (01 R19, 02 R66). -/
def State.branchTarget (s : State) (o : BitVec 21) : Int := (s.str.pc.toNat : Int) + 4 * o.toInt

/-- Take a transfer to a C-format target: PROT outside the window (02 R66). -/
def State.branchTo (s : State) (o : BitVec 21) : Res :=
  let t := s.branchTarget o
  if 0 ≤ t ∧ t < 2 ^ 32 then s.jump (BitVec.ofInt 32 t) else .trap { cause := cPROT }

/-- Number of ones in a mask. -/
def popcount (m : DWord) : Nat := ((List.range 64).filter fun i => m.getLsbD i).length

/-- A conditional branch of either stream counts for the divergence record of its node (04 R101). The occupancy is kept exactly, in
units of one part in occUnit. LIVE is the bundle's for a branch of the A-stream too (DEDUCED, log 65). -/
def State.countBranch (s : State) : State :=
  let g := s.grp
  s.setGrp { g with branches := g.branches + 1,
                    occSum := g.occSum + popcount s.exec0 * 64 * (occUnit / popcount s.bun.live) }

/-- EXEC and a k register, limited to the lanes of the stream (02 R67). -/
def State.kActive (s : State) (k : BitVec 4) : DWord := s.readK k.toNat &&& s.exec0

/-- A conditional branch. -/
def State.condBranch (s : State) (taken : Bool) (o : BitVec 21) : Res :=
  let s := s.countBranch
  if taken then s.branchTo o else .done s

/-- The effect of BRA. -/
def perfBra (o : BitVec 21) (s : State) : Res := s.branchTo o

/-- The effect of BRANY. -/
def perfBrany (k : BitVec 4) (o : BitVec 21) (s : State) : Res := s.condBranch (s.kActive k ≠ 0) o

/-- The effect of BRALL. -/
def perfBrall (k : BitVec 4) (o : BitVec 21) (s : State) : Res := s.condBranch (s.exec0 &&& ~~~ s.readK k.toNat = 0) o

/-- The effect of BRNONE. -/
def perfBrnone (k : BitVec 4) (o : BitVec 21) (s : State) : Res := s.condBranch (s.kActive k = 0) o

/-- The effect of CALL: RA takes the header that follows; where the target is out of the window nothing is written. -/
def perfCall (o : BitVec 21) (s : State) : Res :=
  (s.setBun { s.bun with ra := s.nextHeader }).branchTo o

/-- The effect of RET. -/
def perfRet (s : State) : Res :=
  if s.bun.ra.toNat % 4 ≠ 0 then .trap { cause := cALIGN } else s.jump s.bun.ra

/-- The effect of JMPR: ALIGN, then PROT outside the code window (02 R69). TRAPADDR is the target (DESIGN CHOICE, log 56: 15 R341
gives an address for these causes of an access only; the traps of RET and of a C-format target leave 0). -/
def perfJmpr (a : BitVec 7) (s : State) : Res :=
  let t := pairLane (s.readN a 2) 0
  if t.toNat % 4 ≠ 0 then .trap { cause := cALIGN, addr := t }
  else if half true t ≠ half true s.codeWin then .trap { cause := cPROT, addr := t }
  else s.jump (half false t)

/-- The effect of NOP. -/
def perfNop (s : State) : Res := .done s

/-- The effect of TRAP (02 R70). -/
def perfTrap (c : BitVec 8) (_s : State) : Res := .trap { cause := cTRAPI, info := c.setWidth 32 }

/-- The effect of BRK (02 R70). -/
def perfBrk (_s : State) : Res := .trap { cause := cBREAK }

/-- A queue of the bundle with the operations a stream holds committed (11 R254). -/
def Bundle.commitQueues (b : Bundle) (acc : Bool) : Bundle :=
  { b with queues := b.queues.map fun (q : Nat × Queue) => (q.1, q.2.commit acc) }

/-- The effect of EXIT: the stream's held queue operations commit at once; it waits until every clause it has issued has
completed, and then it ends, with its bundle where that is its last stream (02 R71, 05 R159, 11 R251, R254). -/
def perfExit (s : State) : Res :=
  let s := s.setBun (s.bun.commitQueues s.cur.acc)
  let x := { s.str with exiting := true }
  let s := s.setStr x
  if !x.others.isEmpty then .wait .exit s
  else .done ((s.setStr { x with ended := true, clause := {}, wait := .nothing }).bundleEnd s.cur.gid s.cur.bid)

/-- The carried value of register r in a lane, or what stops its reading. -/
def State.carryErr (s : State) (c : Nat) : Option Res :=
  (List.range c).findSome? fun r =>
    if s.bun.poison.any fun e => e.1 = r then some (.trap { cause := cPOISON, info := BitVec.ofNat 32 (0x800000 + r * 65536) })
    else match s.bun.vreg r with
      | .val _ => none
      | .spilled j => match s.readAuto s.bun j with
        | .ok _ => none
        | .error e => some (spillRes e)

/-- Enter strands into the REFORM bin of a key (04 R130). -/
def fileStrands (bins : List (Word × List Strand)) (key : Word) (ts : List Strand) : List (Word × List Strand) :=
  if ts.isEmpty then bins
  else if bins.any fun b => b.1 = key then bins.map fun b => if b.1 = key then (b.1, b.2 ++ ts) else b
  else bins ++ [(key, ts)]

/-- The effect of REFORM: after the clauses issued before have completed, every live lane is filed under its next program
counter and the bundle departs; while the bins have no place for a key, it stalls (04 R129, R130). Where only one of its two keys
finds a bin, no strand is filed before the stall (DESIGN CHOICE, log 66). -/
def perfReform (k : BitVec 4) (o : BitVec 21) (s : State) : Res :=
  let x := s.str
  if !x.others.isEmpty then .wait .reform s
  else
    let g := s.grp
    let b := s.bun
    let c := nCarry (s.nodeRec g.node)
    let taken := s.kActive k
    let t := s.branchTarget o
    let lanes := (List.range g.w).filter fun i => b.live.getLsbD i
    let strand := fun i => ({ orig := b.orig.getD i 0, regs := (List.range c).map fun r => (s.readV r).lane i,
                              since := s.clock } : Strand)
    let there := (lanes.filter fun i => taken.getLsbD i).map strand
    let here := (lanes.filter fun i => !taken.getLsbD i).map strand
    if !there.isEmpty && !(decide (0 ≤ t) && decide (t < 2 ^ 32)) then .trap { cause := cPROT }
    else
      match s.carryErr c with
      | some r => r
      | none =>
        let s := (b.autoSlots.filter fun j => (List.range c).any fun r => b.vreg r = .spilled j).foldl State.touchAuto s
        let bins := fileStrands (fileStrands g.rbins (BitVec.ofInt 32 t) there) s.nextHeader here
        if 8 < bins.length then .wait .reform s
        else
          let s := b.autoSlots.foldl State.freeAuto s
          let g := s.grp
          .done (s.setGrp { g with rbins := bins, bundles := Tab.del g.bundles s.cur.bid,
                                   srLeft := Tab.put g.srLeft s.cur.bid b.sr })

/-- A barrier of the current group (04 R133). -/
def State.bar (s : State) (b : Nat) : Bar := Tab.get {} s.grp.bars b

/-- The state with a barrier replaced. -/
def State.setBar (s : State) (b : Nat) (x : Bar) : State := s.setGrp { s.grp with bars := Tab.put s.grp.bars b x }

/-- The effect of BAR.INIT (04 R134). -/
def perfBarInit (b : BitVec 6) (c : BitVec 13) (s : State) : Res :=
  .done (s.setBar b.toNat { s.bar b.toNat with e := c.toNat, cnt := 0 })

/-- An arrival: the record takes the generation, and the arrival that reaches E starts the next one; a release at group
scope (04 R134, R135). -/
def State.arrive (s : State) (b : Nat) : State :=
  let x := s.bar b
  let s := s.releaseGroup s.cur.gid 0
  let s := s.setStr { s.str with barRec := Tab.put s.str.barRec b x.gen }
  if x.cnt + 1 = x.e then s.setBar b { x with gen := (x.gen + 1) % 65536, cnt := 0 }
  else s.setBar b { x with cnt := (x.cnt + 1) % 8192 }

/-- Wait for a barrier: until its generation differs from the stream's record, or, with no record, from the generation found
when the wait began; the end of the wait is an acquire at group scope (04 R134, R135). -/
def State.barrierWait (s : State) (b : Nat) : Res :=
  let x := s.bar b
  let c := s.str.clause
  match Tab.find? s.str.barRec b with
  | some g => if x.gen ≠ g then .done (s.acquireGroup s.cur.gid 0) else .wait (.barrier b) s
  | none =>
    if c.arrived && decide (x.gen ≠ c.gen) then .done (s.acquireGroup s.cur.gid 0)
    else .wait (.barrier b) (s.setStr { s.str with clause := { c with arrived := true, gen := if c.arrived then c.gen else x.gen } })

/-- The effect of BAR.ARRIVE. -/
def perfBarArrive (b : BitVec 6) (s : State) : Res := .done (s.arrive b.toNat)

/-- The effect of BAR.WAIT. -/
def perfBarWait (b : BitVec 6) (s : State) : Res := s.barrierWait b.toNat

/-- The effect of BAR.SYNC: one arrival, then the wait. -/
def perfBarSync (b : BitVec 6) (s : State) : Res :=
  if s.str.clause.arrived then s.barrierWait b.toNat
  else
    let s := s.arrive b.toNat
    (s.setStr { s.str with clause := { s.str.clause with arrived := true } }).barrierWait b.toNat

/-- The effect of GBAR: one arrival, a release at device scope; the end of the wait is an acquire (05 R157). -/
def perfGbar (s : State) : Res :=
  match s.launch? s.grp.serial with
  | none => .done s
  | some l =>
    let c := s.str.clause
    if c.arrived then
      if l.gbarGen ≠ c.gen then .done (s.acquireGroup s.cur.gid 2) else .wait .gbar s
    else
      let s := s.releaseGroup s.cur.gid 2
      let s := s.setStr { s.str with clause := { c with arrived := true, gen := l.gbarGen } }
      let s := s.setLaunch s.grp.serial { l with arrived := l.arrived ++ [s.cur] }
      let s := s.gbarCheck s.grp.serial
      match s.launch? s.grp.serial with
      | some m => if m.gbarGen ≠ l.gbarGen then .done (s.acquireGroup s.cur.gid 2) else .wait .gbar s
      | none => .wait .gbar s

/-- The effect of YIELD: the bundle goes behind the others that are ready, and under ORDERED stands at a switch point
(05 R153, R155). -/
def perfYield (s : State) : Res :=
  let b := s.bun
  let x := b.stream s.cur.acc
  .done (s.setBun ({ b with ready := s.clock, promoted := false }.setStream s.cur.acc { x with yielded := true }))

/-- The effect of ACQUIRE: complete in a FULL group; else the group's request is made once, and the stream waits for the
grant (05 R150). -/
def perfAcquire (s : State) : Res :=
  let g := s.grp
  if g.isFull then .done s
  else
    match g.acqReq with
    | some _ => .wait .acquire s
    | none => .wait .acquire (s.setGrp { g with acqReq := some s.clock, acqWho := s.cur })

/-- An ORDERR trap (13 R327). -/
def orderr (code : Nat) : Res := .trap { cause := cORDERR, info := BitVec.ofNat 32 code }

/-- The effect of ORDENTER: it waits until every lower group of the launch has passed, and then acquires on the LSU and TRV paths (13
R327). -/
def perfOrdenter (s : State) : Res :=
  let g := s.grp
  if g.sect = .passed then orderr 2
  else
    let passed := match s.launch? g.serial with
      | some l => l.passed
      | none => []
    if (List.range g.group).all fun h => passed.contains h then
      .done (((s.setGrp { g with sect := .held }).acquireGroup s.cur.gid 2).dropPath g.core 4)
    else .wait .sect s

/-- The effect of ORDEXIT: it waits for the group's list operations, releases, sets COMMITTED and passes (13 R327). -/
def perfOrdexit (s : State) : Res :=
  let g := s.grp
  if g.sect ≠ .held then orderr 1
  else if (Tab.vals g.bundles).any fun b => !b.lists.isEmpty then .wait .sect s
  else
    let s := (s.releaseGroup s.cur.gid 2).wbPath g.core 4
    let s := s.setGrp { s.grp with committed := true, sect := .passed }
    match s.launch? g.serial with
    | some l => .done (s.setLaunch g.serial { l with passed := g.group :: l.passed.filter (· ≠ g.group) })
    | none => .done s

/-- The effect of RTE in its resume form. -/
def perfRte (s : State) : Res := s.returnTrap false

/-- The effect of RTE.SKIP. -/
def perfRteSkip (s : State) : Res := s.returnTrap true

/-! ## The meanings, as exec runs them -/

/-- BRA as a word of the clause in progress (R67). -/
def execBra (o : BitVec 21) (s : State) : Host.Outcome State Fault Refusal := s.runWord (.bra o) (perfBra o)

/-- BRANY as a word of the clause in progress (R67). -/
def execBrany (k : BitVec 4) (o : BitVec 21) (s : State) :
    Host.Outcome State Fault Refusal := s.runWord (.brany k o) (perfBrany k o)

/-- BRALL as a word of the clause in progress (R67). -/
def execBrall (k : BitVec 4) (o : BitVec 21) (s : State) :
    Host.Outcome State Fault Refusal := s.runWord (.brall k o) (perfBrall k o)

/-- BRNONE as a word of the clause in progress (R67). -/
def execBrnone (k : BitVec 4) (o : BitVec 21) (s : State) :
    Host.Outcome State Fault Refusal := s.runWord (.brnone k o) (perfBrnone k o)

/-- CALL as a word of the clause in progress (R68). -/
def execCall (o : BitVec 21) (s : State) : Host.Outcome State Fault Refusal := s.runWord (.call o) (perfCall o)

/-- RET as a word of the clause in progress (R68). -/
def execRet (s : State) : Host.Outcome State Fault Refusal := s.runWord .ret perfRet

/-- JMPR as a word of the clause in progress (R69). -/
def execJmpr (a : BitVec 7) (s : State) : Host.Outcome State Fault Refusal := s.runWord (.jmpr a) (perfJmpr a)

/-- NOP as a word of the clause in progress (R70). -/
def execNop (s : State) : Host.Outcome State Fault Refusal := s.runWord .nop perfNop

/-- TRAP as a word of the clause in progress (R70). -/
def execTrap (c : BitVec 8) (s : State) : Host.Outcome State Fault Refusal := s.runWord (.trap c) (perfTrap c)

/-- BRK as a word of the clause in progress (R70). -/
def execBrk (s : State) : Host.Outcome State Fault Refusal := s.runWord .brk perfBrk

/-- EXIT as a word of the clause in progress (R71). -/
def execExit (s : State) : Host.Outcome State Fault Refusal := s.runWord .exit perfExit

/-- REFORM as a word of the clause in progress (R129). -/
def execReform (k : BitVec 4) (o : BitVec 21) (s : State) :
    Host.Outcome State Fault Refusal := s.runWord (.reform k o) (perfReform k o)

/-- BAR_INIT as a word of the clause in progress (R134). -/
def execBarInit (b : BitVec 6) (c : BitVec 13) (s : State) :
    Host.Outcome State Fault Refusal := s.runWord (.barInit b c) (perfBarInit b c)

/-- BAR_ARRIVE as a word of the clause in progress (R134). -/
def execBarArrive (b : BitVec 6) (s : State) :
    Host.Outcome State Fault Refusal := s.runWord (.barArrive b) (perfBarArrive b)

/-- BAR_WAIT as a word of the clause in progress (R134). -/
def execBarWait (b : BitVec 6) (s : State) : Host.Outcome State Fault Refusal := s.runWord (.barWait b) (perfBarWait b)

/-- BAR_SYNC as a word of the clause in progress (R134). -/
def execBarSync (b : BitVec 6) (s : State) : Host.Outcome State Fault Refusal := s.runWord (.barSync b) (perfBarSync b)

/-- GBAR as a word of the clause in progress (R157). -/
def execGbar (s : State) : Host.Outcome State Fault Refusal := s.runWord .gbar perfGbar

/-- YIELD as a word of the clause in progress (R155). -/
def execYield (s : State) : Host.Outcome State Fault Refusal := s.runWord .yield perfYield

/-- ACQUIRE as a word of the clause in progress (R150). -/
def execAcquire (s : State) : Host.Outcome State Fault Refusal := s.runWord .acquire perfAcquire

/-- ORDENTER as a word of the clause in progress (R327). -/
def execOrdenter (s : State) : Host.Outcome State Fault Refusal := s.runWord .ordenter perfOrdenter

/-- ORDEXIT as a word of the clause in progress (R327). -/
def execOrdexit (s : State) : Host.Outcome State Fault Refusal := s.runWord .ordexit perfOrdexit

/-- RTE as a word of the clause in progress (R340). -/
def execRte (s : State) : Host.Outcome State Fault Refusal := s.runWord .rte perfRte

/-- RTE_SKIP as a word of the clause in progress (R340). -/
def execRteSkip (s : State) : Host.Outcome State Fault Refusal := s.runWord .rteSkip perfRteSkip

end Sys2Proof.Machine
end

