-- ==== Sys2Proof/Machine/Est.lean ====
section
/-!
DEFINITION. XADD and the estimator instructions (09 R233, R236 to R245), and the system instructions EMIT, CYCLES and COMMIT
(05 R142 to R145, R160, 07 R190).
-/
namespace Sys2Proof.Machine

/-- A lane of XADD: alignment, no aperture, then a page of kind 011 with WRITE and its cell (09 R230, R233). -/
def State.xaddAns (s : State) (va : DWord) : LaneAns :=
  if va.toNat % 4 ≠ 0 then .bad cALIGN va
  else if inAperture va then .bad cKIND va
  else s.globAns s.party va 4 3 [3] 1

/-- Contributions that join the estimator request buffer (08 R214). -/
def State.contribute (s : State) (cs : List Contrib) : State := { s with contribs := s.contribs ++ cs }

/-- The effect of XADD: one contribution a lane (09 R233). -/
def perfXadd (d a : BitVec 7) (s : BitVec 2) (σ : State) : Res :=
  let _ := s
  let x := σ.readN a 2
  let v := σ.read d
  match gather (σ.activeLanes.map fun i => (i, σ.xaddAns (pairLane x i))) with
  | .error e => e
  | .ok ls =>
    let t := if ls.isEmpty then σ else σ.directWrite σ.cur.gid
    let t := ls.foldl (fun t l => t.touchLoc l.2 3) t
    .done (t.contribute (ls.map fun l =>
      { sample := false, line := (match l.2.loc with
          | .mem y => y.key / 64
          | .scr _ => 0), runs := l.2.runs, keys := l.2.keys, x := v.lane l.1, owner := σ.cur, clause := σ.str.clause.id,
        pages := l.2.pages }))

/-- The region a slot of the current group is bound to (09 R238). -/
def State.region? (s : State) (n : BitVec 4) : Option (DWord × List Word) := Tab.find? s.grp.regions n.toNat

/-- The trap of an unbound slot (09 R238). -/
def unbound : Res := .trap { cause := cPROT }

/-- The address of cell j (09 R236). -/
def cellVa (d : List Word) (j : Nat) : DWord := rCbase d + BitVec.ofNat 64 (32 * j)

/-- A page of estimator cells, by the address of a cell on it (09 R236). -/
def State.cellAns (s : State) (va : DWord) (acc : AccBits) : LaneAns :=
  if inAperture va then .bad cKIND va
  else
    match s.globAcc s.party va acc [1] with
    | .bad c => .bad c va
    | .miss => missOf 1 va acc
    | .ok l => .ok { loc := l }

/-- A lane's cell: its index in range, its page, and its poison (09 R239, 15 R350). -/
def State.estAns (s : State) (d : List Word) (j : Nat) (acc : AccBits) : LaneAns :=
  let va := cellVa d j
  if rCcount d ≤ j then .bad cPROT va
  else
    match s.cellAns va acc with
    | .ok l =>
      (match l.loc with
       | .mem x => if s.poisonedIn x.key 32 then .bad cPOISON va else .ok l
       | .scr _ => .bad cKIND va)
    | r => r

/-- The key of a checked cell. -/
def MLoc.key (l : MLoc) : Nat := match l.loc with
  | .mem x => x.key
  | .scr o => o

/-- The effect of ESAMPLE: one sample a lane joins the request buffer. An unbound slot traps whatever EXEC holds (09 R238, R241; DESIGN
CHOICE, log 73). -/
def perfEsample (p i : BitVec 7) (n : BitVec 4) (s : State) : Res :=
  match s.region? n with
  | none => unbound
  | some (ra, d) =>
    let v := s.readN p 2
    let j := s.read i
    match gather (s.activeLanes.map fun l => (l, s.estAns d (j.lane l).toNat 3)) with
    | .error e => e
    | .ok ls =>
      let t := if ls.isEmpty then s else s.directWrite s.cur.gid
      let t := ls.foldl (fun t l => t.touchLoc l.2 3) t
      .done (t.contribute (ls.map fun l =>
        { sample := true, keys := [l.2.key], x := (v.getD 0 (.u 0)).lane l.1, y := (v.getD 1 (.u 0)).lane l.1,
          region := ra, desc := d, owner := s.cur, clause := 0, pages := l.2.pages }))

/-- The effect of ELOAD: the statistics of a lane's cell, decay applied to the values used; what the stream has contributed
before is in them. An unbound slot traps whatever EXEC holds (08 R199, 09 R238, R242; DESIGN CHOICE, log 73). -/
def perfEload (q i : BitVec 7) (n : BitVec 4) (s : State) : Res :=
  match s.region? n with
  | none => unbound
  | some (ra, d) =>
    let j := s.read i
    match gather (s.activeLanes.map fun l => (l, s.estAns d (j.lane l).toNat 1)) with
    | .error e => e
    | .ok ls =>
      let t := s.commitBuf s.cur.gid
      let t := t.drainContribs fun c => c.owner = s.cur
      let t := ls.foldl (fun t l => (t.touchLoc l.2 1).backInv l.2.key 32) t
      let ep := (t.regionCache ra).1.toNat
      let st : Tab (List Word) := ls.map fun l =>
        (l.1, ((ECell.ofNat (leNat (t.homeBytes l.2.key 32))).decay ep (rDshift d)).stats d)
      let word := fun (l k : Nat) => wordAt (Tab.get [] st l) k
      .done (t.writeN q ((List.range 4).map fun k =>
        if j.isU && s.fullExec then .u (word 0 k) else .g ((List.range s.lanes).map fun l => word l k)))

/-- A region descriptor, checked: alignment, a normal page, and its WRITE bit (09 R240, R243). -/
def State.descAcc (s : State) (va : DWord) : Except Res Xlat :=
  match s.memAcc s.party va 64 1 [0] with
  | .bad c => .error (.trap { cause := c, addr := va })
  | .miss => .error (.park 1 [{ vpn := vpnOf va, acc := 1, va := va, path := some 1 }])
  | .ok (.scr _) => .error (.trap { cause := cKIND, addr := va })
  | .ok (.mem x) =>
    if !x.leaf.getLsbD 10 then .error (.trap { cause := cPROT, addr := va })
    else if s.viewPoison s.grp.core x.key 64 true then .error (.trap { cause := cPOISON, addr := va })
    else .ok x

/-- The rejected count of a region is added to word 9, saturating, and set to zero: a direct global write (07 R189, 09 R238). -/
def State.flushReject (s : State) (ra : DWord) (x : Xlat) : State :=
  let (ep, rej) := s.regionCache ra
  if rej = 0 then s
  else
    let s := ((s.directWrite s.cur.gid).touch s.cluster x 2).flush s.grp.core (x.key + 36) 4
    let s := s.setHomeWord (x.key + 36) (BitVec.ofNat 32 (min ((s.homeWord (x.key + 36)).toNat + rej) (2 ^ 32 - 1)))
    s.setRegion ra (ep, 0)

/-- The effect of EREGION: the descriptor is read at device scope and checked; the slot is bound and the slices take the epoch
of word 4 (09 R238, R240). -/
def perfEregion (a : BitVec 7) (n : BitVec 4) (s : State) : Res :=
  let va := pairLane (s.readN a 2) 0
  match s.descAcc va with
  | .error r => r
  | .ok x =>
    let t := ((s.touch s.cluster x 1).commitBuf s.cur.gid).flush s.grp.core x.key 64
    let d := t.homeWords x.key 16
    match regionError d with
    | some k => .trap { cause := cPROT, info := BitVec.ofNat 32 (k * 4096), addr := va }
    | none =>
      let t := t.setGrp { t.grp with regions := Tab.put t.grp.regions n.toNat (va, d) }
      let t := t.setRegion va (wordAt d 4 &&& 0x3F, (t.regionCache va).2)
      .done (t.flushReject va x)

/-- The effect of EDECAY: the epoch advances by t steps in every slice and in word 4; t = 0 leaves it (09 R243). The rejected
count goes to word 9 whatever t holds. -/
def perfEdecay (t : BitVec 7) (n : BitVec 4) (s : State) : Res :=
  match s.region? n with
  | none => unbound
  | some (ra, _) =>
    match s.descAcc ra with
    | .error r => r
    | .ok x =>
      let steps := ((s.read t).lane 0).toNat
      let u := s.touch s.cluster x 1
      let u := if steps = 0 then u.commitBuf s.cur.gid else
        let u := (u.directWrite s.cur.gid).touch s.cluster x 2
        let u := u.flush s.grp.core (x.key + 16) 4
        let (ep, rej) := u.regionCache ra
        let ep' : Word := BitVec.ofNat 32 ((ep.toNat + steps) % 64)
        let w4 := u.homeWord (x.key + 16)
        (u.setHomeWord (x.key + 16) ((w4 &&& ~~~ 0x3F#32) ||| ep')).setRegion ra (ep', rej)
      .done (u.flushReject ra x)

/-- The pages of a region's cells: the address where each piece begins (15 R364). -/
def sweepPages (d : List Word) : List DWord :=
  let base := (rCbase d).toNat
  let last := base + 32 * rCcount d - 1
  (List.range (last / 4096 - base / 4096 + 1)).map fun k =>
    if k = 0 then rCbase d else BitVec.ofNat 64 ((base / 4096 + k) * 4096)

/-- What the visit of a cell leaves: the cell, and its Sprout record where one is due (09 R245). -/
def sweepCell (d : List Word) (ep slot j : Nat) (c : Nat) : Nat × Option (List Word) :=
  let e := (ECell.ofNat c).decay ep (rDshift d)
  let st := e.stats d
  if lagOf st && !e.req then
    ({ e with req := true : ECell }.toNat, some [BitVec.ofNat 32 slot, BitVec.ofNat 32 j, BitVec.ofNat 32 e.n, wordAt st 2])
  else (e.toNat, none)

/-- A record of an EMIT or an ESWEEP goes to its bin, or is discarded, or, where it finds no room or an earlier one of the same clause
waits, waits: only the sending waits, and the records keep their order (05 R142, 09 R245, 18 R386). -/
def State.sprout (s : State) (handle : Word) (r : List Word) : State :=
  let me : Sprout := { who := s.cur, clause := s.str.clause.id, node := s.grp.node, handle := handle, rcd := r }
  let waits := s.sprouts.any fun p => p.who = me.who && p.clause = me.clause
  match (if waits then none else s.sendRecord s.grp.node handle r) with
  | some t => t
  | none => { s with sprouts := s.sprouts ++ [me] }

/-- Visit cells in ascending index order; a poisoned cell stops the sweep with an engine trap (09 R245). -/
def State.sweepFrom (s : State) (d : List Word) (ep slot : Nat) (at' : Nat → Nat) : Nat → Nat → State
  | 0, _ => s
  | m + 1, j =>
    let k := at' j
    if s.poisonedIn k 32 then
      let t : Trap := { cause := cPOISON, info := BitVec.ofNat 32 (2 ^ 31 + 0x30 + slot), addr := cellVa d j }
      s.setStr { s.str with due := s.str.due ++ [t] }
    else
      let (c, rcd) := sweepCell d ep slot j (leNat (s.homeBytes k 32))
      let s := s.homeWrite k (leBytes 32 c)
      State.sweepFrom (match rcd with
        | none => s
        | some r => s.sprout (rSprout d) r) d ep slot at' m (j + 1)

/-- The effect of ESWEEP (09 R245). -/
def perfEsweep (n : BitVec 4) (s : State) : Res :=
  match s.region? n with
  | none => unbound
  | some (ra, d) =>
    let pages := sweepPages d
    match gather (pages.map fun va => (0, s.cellAns va 3)) with
    | .error e => e
    | .ok ls =>
      let t := s.directWrite s.cur.gid
      let t := t.drainContribs fun c => c.owner = s.cur
      let t := ls.foldl (fun t l => t.touchLoc l.2 3) t
      let base := (rCbase d).toNat
      let keys := ls.map fun l => l.2.key
      let at' := fun j =>
        let p := (base + 32 * j) / 4096 - base / 4096
        keys.getD p 0 + (if p = 0 then 32 * j else (base + 32 * j) % 4096)
      .done (t.sweepFrom d (t.regionCache ra).1.toNat n.toNat at' (rCcount d) 0)

/-- The effect of EMIT: a release, then one record a lane in ascending order. Records that find no room are kept in order, and the
clause's completion waits for them (05 R142 to R144, 18 R386). With EXEC empty it sends nothing. -/
def perfEmit (f h : BitVec 7) (c : BitVec 5) (s : State) : Res :=
  let v := s.readN f (c.toNat + 1)
  let handle := (s.read h).lane 0
  let recs := s.activeLanes.map fun i => v.map fun x => x.lane i
  .done (recs.foldl (fun t r => t.sprout handle r) (s.releaseGroup s.cur.gid 2))

/-- The effect of CYCLES: the clock at issue, in every lane (05 R160). -/
def perfCycles (d : BitVec 7) (s : State) : Res :=
  let t : DWord := BitVec.ofNat 64 s.clock
  .done ((s.writeAll d.toNat 0 (half false t)).writeAll d.toNat 1 (half true t))

/-- The effect of COMMIT (07 R190). -/
def perfCommit (s : State) : Res := .done (s.commitBuf s.cur.gid)

/-! ## The meanings, as exec runs them -/

/-- XADD as a word of the clause in progress (R233). -/
def execXadd (d : BitVec 7) (a : BitVec 7) (s : BitVec 2) (σ : State) :
    Host.Outcome State Fault Refusal := σ.runWord (.xadd d a s) (perfXadd d a s)

/-- ESAMPLE as a word of the clause in progress (R241). -/
def execEsample (p : BitVec 7) (i : BitVec 7) (n : BitVec 4) (s : State) :
    Host.Outcome State Fault Refusal := s.runWord (.esample p i n) (perfEsample p i n)

/-- ELOAD as a word of the clause in progress (R242). -/
def execEload (q : BitVec 7) (i : BitVec 7) (n : BitVec 4) (s : State) :
    Host.Outcome State Fault Refusal := s.runWord (.eload q i n) (perfEload q i n)

/-- EREGION as a word of the clause in progress (R240). -/
def execEregion (a : BitVec 7) (n : BitVec 4) (s : State) :
    Host.Outcome State Fault Refusal := s.runWord (.eregion a n) (perfEregion a n)

/-- EDECAY as a word of the clause in progress (R243). -/
def execEdecay (t : BitVec 7) (n : BitVec 4) (s : State) :
    Host.Outcome State Fault Refusal := s.runWord (.edecay t n) (perfEdecay t n)

/-- ESWEEP as a word of the clause in progress (R245). -/
def execEsweep (n : BitVec 4) (s : State) : Host.Outcome State Fault Refusal := s.runWord (.esweep n) (perfEsweep n)

/-- EMIT as a word of the clause in progress (R142). -/
def execEmit (f : BitVec 7) (h : BitVec 7) (c : BitVec 5) (s : State) :
    Host.Outcome State Fault Refusal := s.runWord (.emit f h c) (perfEmit f h c)

/-- CYCLES as a word of the clause in progress (R160). -/
def execCycles (d : BitVec 7) (s : State) : Host.Outcome State Fault Refusal := s.runWord (.cycles d) (perfCycles d)

/-- COMMIT as a word of the clause in progress (R190). -/
def execCommit (s : State) : Host.Outcome State Fault Refusal := s.runWord .commit perfCommit

end Sys2Proof.Machine
end

