-- ==== Sys2Proof/Machine/Pool.lean ====
section
/-!
DEFINITION. Layered-target descriptors, the pool of nodes and its free list, and the reservation of nodes at issue (13 R318 to
R321).
-/
namespace Sys2Proof.Machine

/-- Fields of a layered-target descriptor as MLTSET read it (13 R318). -/
def lWidth (d : List Word) : Nat := bits (wordAt d 0) 15 0
def lHeight (d : List Word) : Nat := bits (wordAt d 0) 31 16
def lRule (d : List Word) : Nat := bits (wordAt d 1) 7 4
def lMax (d : List Word) : Nat := bits (wordAt d 1) 3 0
def lHeads (d : List Word) : DWord := pair64 (wordAt d 2) (wordAt d 3)
def lPool (d : List Word) : DWord := pair64 (wordAt d 4) (wordAt d 5)

/-- The node index that ends a list (13 R319). -/
def nilNode : Nat := 0xFFFFFF

/-- NEXT of a node, and a node with NEXT replaced (13 R319). -/
def nextOf (n : List Word) : Nat := bits (wordAt n 3) 23 0
def withNext (n : List Word) (j : Nat) : List Word := n.set 3 ((wordAt n 3 &&& 0xFF000000#32) ||| BitVec.ofNat 32 (j % 2 ^ 24))

/-- The answer of a piece of a list operation: performed; ended by a bad index; a fault, or a page that is not present, with
its address (13 R320). Only the first carries a state: the others leave the one before. -/
inductive LAns (α : Type) where
  | ok (x : α) (s : State)
  | bad
  | fault (cause : Nat) (va : DWord)
  | miss (va : DWord) (acc : AccBits)

/-- One piece after another. -/
def LAns.bind {α β : Type} (a : LAns α) (f : α → State → LAns β) : LAns β :=
  match a with
  | .ok x s => f x s
  | .bad => .bad
  | .fault c va => .fault c va
  | .miss va acc => .miss va acc

/-- An access of a list operation: on a page of kind 010, at home (13 R318, R320). -/
def State.lAcc (s : State) (p : Party) (va : DWord) (n : Nat) (acc : AccBits) : LAns Nat :=
  match s.memAcc p va n acc [2] with
  | .bad c => .fault c va
  | .miss => .miss va acc
  | .ok (.scr _) => .fault cKIND va
  | .ok (.mem x) =>
    if acc % 2 = 1 && s.poisonedIn x.key n then .fault cPOISON va
    else .ok x.key ((s.touch (Config.clusterOf p.core) x acc).backInv x.key n)

/-- A layered target in use: who accesses, its address and words as bound, and the key of its descriptor. -/
structure Target where
  p    : Party
  va   : DWord
  desc : List Word
  dkey : Nat

/-- Address of pool node j (13 R318). -/
def Target.nodeVa (t : Target) (j : Nat) : DWord := lPool t.desc + BitVec.ofNat 64 (16 * j)

/-- CAP and FREE as they stand. -/
def State.lCap (s : State) (t : Target) : Nat := (s.homeWord (t.dkey + 24)).toNat
def State.lFree (s : State) (t : Target) : Nat := bits (s.homeWord (t.dkey + 28)) 23 0

/-- FREE written. -/
def State.setFree (s : State) (t : Target) (j : Nat) : State := s.setHomeWord (t.dkey + 28) (BitVec.ofNat 32 (j % 2 ^ 24))

/-- Add 1 to a saturating count of the descriptor: word 8 MERGES, word 9 REJECT. -/
def State.lBump (s : State) (t : Target) (word : Nat) : State :=
  let k := t.dkey + 4 * word
  s.setHomeWord k (BitVec.ofNat 32 (satInc 32 (s.homeWord k).toNat))

/-- BADIDX written. -/
def State.setBadIdx (s : State) (t : Target) (w : Word) : State := s.setHomeWord (t.dkey + 40) w

/-- A node as it is read: its res0 bits [127:124] as zero (00 R6, 13 R319). -/
def nodeWords (w : List Word) : List Word := w.set 3 (wordAt w 3 &&& 0x0FFFFFFF#32)

/-- Read a node. -/
def State.readNode (s : State) (t : Target) (j : Nat) : LAns (List Word) :=
  (s.lAcc t.p (t.nodeVa j) 16 1).bind fun k s => .ok (nodeWords (s.homeWords k 4)) s

/-- Write a node. -/
def State.writeNode (s : State) (t : Target) (j : Nat) (n : List Word) : LAns Unit :=
  (s.lAcc t.p (t.nodeVa j) 16 2).bind fun k s => .ok () (s.setHomeWords k n)

/-- A node returns to the free list (13 R321, R324, R325). -/
def State.releaseNode (s : State) (t : Target) (j : Nat) : LAns Unit :=
  (s.readNode t j).bind fun n s =>
    (s.writeNode t j (withNext n (s.lFree t))).bind fun _ s => .ok () (s.setFree t j)

/-- What the free list gives when n nodes are wanted from index j: the nodes it holds, the index it stands at after them, and
what stopped it short: a bad index, a fault or a page. -/
structure FreeWalk where
  nodes : List Nat := []
  next  : Nat
  bad   : Bool := false
  fault : Option (Nat × DWord) := none
  miss  : Option DWord := none

/-- The free list followed from an index; each node taken is read, as it is to be written (13 R321). -/
def State.freeWalk (s : State) (t : Target) : Nat → Nat → FreeWalk
  | 0, j => { next := j }
  | n + 1, j =>
    if j = nilNode then { next := j }
    else if s.lCap t ≤ j then { next := j, bad := true }
    else
      match s.lAcc t.p (t.nodeVa j) 16 3 with
      | .ok k s' =>
        let w := State.freeWalk s t n (nextOf (s'.homeWords k 4))
        { w with nodes := j :: w.nodes }
      | .fault c va => { next := j, fault := some (c, va) }
      | .miss va _ => { next := j, miss := some va }
      | .bad => { next := j, bad := true }

/-- A clause has trapped with POOL: where its free list ended at a bad index, BADIDX says so (13 R321). The trap's address is
that of the descriptor's word 7. -/
def State.noteBadFree (s : State) (addr : DWord) : State :=
  let p := s.party
  let va := addr - 28
  match s.memAcc p va 64 3 [2] with
  | .ok (.mem x) =>
    let t : Target := { p := p, va := va, desc := s.homeWords x.key 16, dkey := x.key }
    if (s.freeWalk t 960 (s.lFree t)).bad then (s.touch s.cluster x 3).setBadIdx t 0xFFFFFFFF else s
  | _ => s

end Sys2Proof.Machine
end

