-- ==== Sys2Proof/Machine/Trv.lean ====
section
/-!
DEFINITION. The traversal unit: camera, hierarchy and their bindings, CAMGEN, and TRACE (13 R302 to R317).
-/
namespace Sys2Proof.Machine

/-! ## Bindings -/

/-- A block that a binding instruction reads on the TRV path at device scope, so at home, and no copy of the path's serves it: aligned to
its size, on a page of one kind (08 R198, 13 R303, R318). -/
def State.bindRead (s : State) (a : BitVec 7) (size kind : Nat) (k : DWord → List Word → State → Res) : Res :=
  let va := pairLane (s.readN a 2) 0
  match s.memAcc s.party va size 1 [kind] with
  | .bad c => .trap { cause := c, addr := va }
  | .miss => .park 4 [{ vpn := vpnOf va, acc := 1, va := va }]
  | .ok (.scr _) => .trap { cause := cKIND, addr := va }
  | .ok (.mem x) =>
    let s' := (s.touch s.cluster x 1).wbPath s.grp.core 4
    if s'.poisonedIn x.key size then .trap { cause := cPOISON, addr := va }
    else k va (s'.homeWords x.key (size / 4)) (s'.backInv x.key size)

/-- The field trap of a binding: word index and block address (13 R303). -/
def bindTrap (va : DWord) (word : Nat) : Res := .trap { cause := cPROT, info := BitVec.ofNat 32 (word * 4096), addr := va }

/-- An f32 pattern as a number. -/
def f32 (w : Word) : Num := F32.decode w.toNat

/-- Whether a pattern is a finite f32. -/
def finite32 (w : Word) : Bool := bits w 30 23 ≠ 255

/-- Whether one number lies at or below another. -/
def Num.le (a b : Num) : Bool := a.lt b || a.eq b

/-- The lowest word of a camera block that breaks R304; where TMIN lies above TMAX it is the word of TMAX (DESIGN CHOICE, log 79). -/
def cameraBad (b : List Word) : Option Nat :=
  let w := wordAt b
  let zero := fun (x : Word) => decide (bits x 30 0 = 0)
  firstBad (
    ((List.range 16).map fun k => ((k, !finite32 (w k) || ((k == 12 || k == 13) && zero (w k))) : Nat × Bool)) ++
    ([(16, (f32 (w 16)).isNan), (17, (f32 (w 17)).isNan || !(f32 (w 16)).le (f32 (w 17)))] : List (Nat × Bool)) ++
    (List.range 14).map fun k => (18 + k, decide (w (18 + k) ≠ 0)))

/-- The effect of CAMSET (13 R303, R304). -/
def perfCamset (a : BitVec 7) (s : State) : Res :=
  s.bindRead a 128 0 fun va b s =>
    match cameraBad b with
    | some w => bindTrap va w
    | none => .done (s.setGrp { s.grp with camera := some (va, b) })

/-- The lowest word of a hierarchy descriptor that breaks R307. -/
def bvhBad (b : List Word) : Option Nat :=
  let w := wordAt b
  firstBad (
    [(0, decide (bits (w 0) 6 0 ≠ 0)), (2, decide (bits (w 2) 5 0 ≠ 0)), (4, w 4 = 0 || decide (2 ^ 26 < (w 4).toNat))] ++
    (List.range 11).map fun k => (5 + k, decide (w (5 + k) ≠ 0)))

/-- The effect of BVHSET, which invalidates the core's node cache too (13 R303, R307). -/
def perfBvhset (a : BitVec 7) (n : BitVec 2) (s : State) : Res :=
  s.bindRead a 64 0 fun va b s =>
    match bvhBad b with
    | some w => bindTrap va w
    | none => .done ((s.setGrp { s.grp with bvhs := Tab.put s.grp.bvhs n.toNat (va, b) }).dropPath s.grp.core 4)

/-! ## f32 steps -/

/-- One f32 operation on patterns, rounded to nearest even (03 R82). -/
def fadd32 (a b : Word) : Word := BitVec.ofNat 32 (F32.add a.toNat b.toNat)
def fsub32 (a b : Word) : Word := BitVec.ofNat 32 (F32.sub a.toNat b.toNat)
def fmul32 (a b : Word) : Word := BitVec.ofNat 32 (F32.mul a.toNat b.toNat)
def fmin32 (a b : Word) : Word := BitVec.ofNat 32 (F32.minmax false a.toNat b.toNat)
def fmax32 (a b : Word) : Word := BitVec.ofNat 32 (F32.minmax true a.toNat b.toNat)

/-- The correctly rounded quotient of two patterns (13 R305). -/
def fdiv32 (a b : Word) : Word :=
  let neg := a.getLsbD 31 != b.getLsbD 31
  let zero := BitVec.ofNat 32 (F32.round .rne neg 0 0)
  let inf := BitVec.ofNat 32 (F32.infPat neg)
  let nan := BitVec.ofNat 32 F32.cnan
  match f32 a, f32 b with
  | .nan _, _ | _, .nan _ => nan
  | .inf _, .inf _ => nan
  | .inf _, .fin .. => inf
  | .fin .., .inf _ => zero
  | .fin _ m e, .fin _ n f =>
    if n = 0 then (if m = 0 then nan else inf)
    else
      let l := min e f
      BitVec.ofNat 32 (F32.ofRat neg (m * 2 ^ (e - l).toNat) (n * 2 ^ (f - l).toNat))

/-- The absolute value of a pattern. -/
def fabs32 (a : Word) : Word := a &&& 0x7FFFFFFF#32

/-- The ray octet CAMGEN writes for one lane (13 R305). -/
def cameraRay (b : List Word) (x y su sv : Word) : List Word :=
  let w := wordAt b
  let ofN := fun (v : Word) => BitVec.ofNat 32 (F32.round .rne false v.toNat 0)
  let pu := fsub32 (fadd32 (ofN x) su) (w 14)
  let pv := fsub32 (fadd32 (ofN y) sv) (w 15)
  let u := fdiv32 pu (w 12)
  let v := fdiv32 pv (w 13)
  let dir := fun k => fadd32 (fadd32 (fmul32 u (w (3 + k))) (fmul32 v (w (6 + k)))) (w (9 + k))
  [w 0, w 1, w 2, w 16, dir 0, dir 1, dir 2, w 17]

/-- The effect of CAMGEN (13 R302, R305). -/
def perfCamgen (d a : BitVec 7) (s : State) : Res :=
  match s.grp.camera with
  | none => .trap { cause := cPROT }
  | some (_, b) =>
    let x := s.readN a 4
    let uni := x.all Val.isU
    let ray := fun i => cameraRay b ((x.getD 0 (.u 0)).lane i) ((x.getD 1 (.u 0)).lane i) ((x.getD 2 (.u 0)).lane i)
      ((x.getD 3 (.u 0)).lane i)
    let val := fun k =>
      if k < 4 ∨ k = 7 ∨ uni then Val.u (wordAt (ray 0) k) else .g ((List.range s.lanes).map fun i => wordAt (ray i) k)
    .done (s.writeN d ((List.range 8).map val))

/-! ## TRACE -/

/-- An order of patterns as R84 has it, -0 below +0: sign and magnitude as an integer. -/
def orderKey (w : Word) : Int :=
  let m := (w &&& 0x7FFFFFFF#32).toNat
  if w.getLsbD 31 then -(m : Int) - 1 else m

/-- Whether a ray cannot be traced (13 R311). -/
def badRay (r : List Word) : Bool :=
  let w := wordAt r
  [0, 1, 2, 4, 5, 6].any (fun k => !finite32 (w k)) || [4, 5, 6].all (fun k => fabs32 (w k) = 0) ||
    (f32 (w 3)).isNan || (f32 (w 7)).isNan || (f32 (w 7)).lt (f32 (w 3))

/-- The effect of TRACE: its lanes' rays are read, and the traversal begins (13 R311, R312). -/
def perfTrace (d a : BitVec 7) (m n : BitVec 2) (s : State) : Res :=
  match Tab.find? s.grp.bvhs n.toNat with
  | none => .trap { cause := cPROT }
  | some (_, b) =>
    if s.exec0 = 0 then .done s
    else
      let x := s.readN a 8
      let uni := x.all Val.isU && s.fullExec
      match s.reserve (.trace d a m n) ((List.range 6).map (d.toNat + ·)) uni with
      | .error e => e
      | .ok s =>
        let start := fun i =>
          let r := x.map fun v => v.lane i
          let top : TFrame := { top := true, o := r.take 3, d := (r.drop 4).take 3, root := pair64 (wordAt b 0) (wordAt b 1) }
          let bad := badRay r
          ({ lane := i, ray := r, bad := bad, stack := if bad then [] else [⟨1, 0, 0, top, 0xFF800000#32⟩] } : TLane)
        let t : Trace := { slot := n.toNat, desc := b, mode := m.toNat, d := d.toNat, uni := uni,
                           lanes := (if uni then [0] else s.activeLanes).map start, exec := s.exec0, clause := s.str.clause.id }
        .done (s.setBun { s.bun with traces := s.bun.traces ++ [t] })

/-- A byte of a fetched structure as an unsigned or signed number. -/
def byteAt (bs : List Byte) (o : Nat) : Nat := (bs.getD o 0).toNat
def sbyteAt (bs : List Byte) (o : Nat) : Int := (bs.getD o 0).toInt

/-- A word of a fetched structure. -/
def leWordAt (bs : List Byte) (o : Nat) : Word := BitVec.ofNat 32 (leNat ((bs.drop o).take 4))

/-- A child's bound on an axis: the exact value rounded once into f32 (13 R308). -/
def boxBound (c : Rnd) (p : Word) (q : Nat) (e : Int) : Word :=
  BitVec.ofNat 32 (F32.encode c ((f32 p).add (.fin false q e)))

/-- tlim: thit while a hit is held, else TMAX (13 R312). -/
def TLane.tlim (l : TLane) : Word := match l.hit with
  | some h => h.t
  | none => wordAt l.ray 7

/-- The slab test of child i of a node: its tenter where it is entered (13 R313). -/
def boxEnter (l : TLane) (f : TFrame) (node : List Byte) (i : Nat) : Option Word :=
  let at3 := fun k =>
    let p := leWordAt node (4 * k)
    let e := sbyteAt node (12 + k)
    let lo := boxBound .rdn p (byteAt node (16 + 6 * i + k)) e
    let hi := boxBound .rup p (byteAt node (16 + 6 * i + 3 + k)) e
    let inv := fdiv32 0x3F800000#32 (wordAt f.d k)
    let t0 := fmul32 (fsub32 lo (wordAt f.o k)) inv
    let t1 := fmul32 (fsub32 hi (wordAt f.o k)) inv
    (fmin32 t0 t1, fmax32 t0 t1)
  let a := at3 0
  let b := at3 1
  let c := at3 2
  let tin := fmax32 (fmax32 (fmax32 a.1 b.1) c.1) (wordAt l.ray 3)
  let tout := fmin32 (fmin32 (fmin32 a.2 b.2) c.2) l.tlim
  let slack := match f32 tout with
    | .fin _ m e => Num.fin false m (e - 20)
    | .inf _ => .inf false
    | x => x
  let lim := F32.decode (F32.encode .rup ((f32 tout).add slack))
  if (f32 tin).le lim then some tin else none

/-- The child of a node that a traversal may enter, with its tenter (13 R308, R312, R313). -/
def childEnter (desc : List Word) (l : TLane) (f : TFrame) (node : List Byte) (i : Nat) : Option TEnt :=
  let c := leWordAt node (64 + 4 * i)
  let ty := bits c 31 30
  let ix := bits c 25 0
  let empty := (List.range 3).any fun k => decide (byteAt node (16 + 6 * i + 3 + k) < byteAt node (16 + 6 * i + k))
  let leaf := ty = 2
  if (ty ≠ 1 ∧ ty ≠ 2) ∨ empty ∨ (leaf ∧ f.top ∧ (wordAt desc 4).toNat ≤ ix) then none
  else
    (boxEnter l f node i).map fun te =>
      { ty := if leaf then (if f.top then 3 else 2) else 1, idx := ix, cnt := bits c 29 26, frame := f, te := te }

/-- Insert an entered child after those at or before it: ascending tenter, ties by slot (13 R312). -/
def insertEnt (e : TEnt) : List TEnt → List TEnt
  | [] => [e]
  | x :: xs => if orderKey e.te < orderKey x.te then e :: x :: xs else x :: insertEnt e xs

/-- A push onto a traversal stack of 256 entries; one that finds it full is dropped (13 R312). -/
def TLane.push (l : TLane) (e : TEnt) : TLane :=
  if 256 ≤ l.stack.length then { l with ovf := true } else { l with stack := e :: l.stack }

/-- The shear constants of a frame: kx, ky, kz, Sx, Sy, Sz (13 R314). -/
def shear (d : List Word) : Nat × Nat × Nat × Word × Word × Word :=
  let w := wordAt d
  let a := fun k => (fabs32 (w k)).toNat
  let kz := if a 0 ≤ a 2 ∧ a 1 ≤ a 2 then 2 else if a 0 ≤ a 1 then 1 else 0
  let kx := (kz + 1) % 3
  let ky := (kx + 1) % 3
  let (kx, ky) := if (f32 (w kz)).lt (.fin false 0 0) then (ky, kx) else (kx, ky)
  (kx, ky, kz, fdiv32 (w kx) (w kz), fdiv32 (w ky) (w kz), fdiv32 0x3F800000#32 (w kz))

/-- An edge function in f32, and in f64 from the same values (13 R315). -/
def edge32 (px py qx qy : Word) : Num := f32 (fsub32 (fmul32 px qy) (fmul32 py qx))
def edge64 (px py qx qy : Word) : Num :=
  F64.decode (F64.encode .rne (((f32 px).mul (f32 qy)).add ((f32 py).mul (f32 qx)).negate))

/-- Whether a number is a zero. -/
def Num.isZero : Num → Bool
  | .fin _ m _ => m = 0
  | _ => false

/-- The sign of an edge function, a zero resolved by the ownership of its edge from P to Q (13 R315). -/
def edgeSign (neg : Bool) (u : Num) (p q : Word × Word) : Bool :=
  if !u.isZero then u.neg
  else
    let ex := (f32 q.1).add (f32 p.1).negate
    let ey := (f32 q.2).add (f32 p.2).negate
    let (ex, ey) := if neg then (ex.negate, ey.negate) else (ex, ey)
    let zero := Num.fin false 0 0
    let owned := zero.lt ey || (ey.eq zero && ex.lt zero)
    if owned then neg else !neg

/-- A triangle tested against a frame's ray: t, b1, b2 and D where it is hit (13 R315). -/
def triTest (f : TFrame) (tri : List Byte) : Option (Word × Word × Word × Word) :=
  let (kx, ky, kz, sx, sy, sz) := shear f.d
  let vert := fun j =>
    let q := fun k => fsub32 (leWordAt tri (12 * j + 4 * k)) (wordAt f.o k)
    (fsub32 (q kx) (fmul32 sx (q kz)), fsub32 (q ky) (fmul32 sy (q kz)), fmul32 sz (q kz))
  let a := vert 0
  let b := vert 1
  let c := vert 2
  let fn := fun (g : Word → Word → Word → Word → Num) => (g c.1 c.2.1 b.1 b.2.1, g a.1 a.2.1 c.1 c.2.1, g b.1 b.2.1 a.1 a.2.1)
  let e := fn edge32
  let (u, v, w) := if e.1.isZero || e.2.1.isZero || e.2.2.isZero then fn edge64 else e
  let sum := (u.add v).add w
  if sum.isNan || sum.isZero then none
  else
    let neg := sum.neg
    let xy := fun (p : Word × Word × Word) => (p.1, p.2.1)
    if edgeSign neg u (xy b) (xy c) == neg && edgeSign neg v (xy c) (xy a) == neg && edgeSign neg w (xy a) (xy b) == neg then
      let r := fun (x : Num) => BitVec.ofNat 32 (F32.encode .rne x)
      let (u, v, w) := (r u, r v, r w)
      let t := fadd32 (fadd32 (fmul32 u a.2.2) (fmul32 v b.2.2)) (fmul32 w c.2.2)
      let d := fadd32 (fadd32 u v) w
      some (fdiv32 t d, fdiv32 (fabs32 v) (fabs32 d), fdiv32 (fabs32 w) (fabs32 d), d)
    else none

/-- Whether a candidate is accepted over the hit a lane holds (13 R316). -/
def TLane.accepts (l : TLane) (mode : Nat) (h : THit) : Bool :=
  let t := f32 h.t
  (f32 (wordAt l.ray 3)).le t && t.le (f32 (wordAt l.ray 7)) &&
    (match l.hit with
     | none => true
     | some g =>
       mode ≠ 1 && (t.lt (f32 g.t) || (t.eq (f32 g.t) &&
         (decide (h.inst < g.inst) || (h.inst = g.inst && decide (h.prim.toNat < g.prim.toNat))))))

/-- A triangle of a leaf met by a lane (13 R315, R316). -/
def TLane.meet (l : TLane) (mode : Nat) (f : TFrame) (tri : List Byte) : TLane :=
  match triTest f tri with
  | none => l
  | some (t, b1, b2, d) =>
    let flip := bit f.flags 1
    let facing := if flip then (f32 d).negate else f32 d
    let negd := facing.lt (.fin false 0 0)
    let kept := mode ≠ 2 || !negd || bit f.flags 0 || bit (leWordAt tri 40) 0
    let h : THit := { t := t, b1 := b1, b2 := b2, prim := leWordAt tri 36, inst := f.inst, negd := negd }
    if kept && l.accepts mode h then { l with hit := some h } else l

/-- The frame of an instance, where it is entered (13 R309, R314). -/
def instFrame (ray : List Word) (ix : Nat) (b : List Byte) : Option TFrame :=
  let m := fun r c => leWordAt b (16 * r + 4 * c)
  let o := wordAt ray
  let d := fun k => wordAt ray (4 + k)
  let rot := fun r (v : Nat → Word) => fadd32 (fadd32 (fmul32 (m r 0) (v 0)) (fmul32 (m r 1) (v 1))) (fmul32 (m r 2) (v 2))
  let o' := (List.range 3).map fun r => fadd32 (rot r o) (m r 3)
  let d' := (List.range 3).map fun r => rot r d
  if d'.any (fun w => !finite32 w) || d'.all (fun w => fabs32 w = 0) then none
  else
    let w12 := leWordAt b 48
    some { top := false, inst := ix, o := o', d := d', root := pair64 (w12 &&& 0xFFFFFF80#32) (leWordAt b 52),
           tri := pair64 (leWordAt b 56) (leWordAt b 60), flags := w12 }

/-- The triangles of a leaf from index k on; `.any` stops at the first hit accepted (13 R312). -/
def State.leafTris (s : State) (gid mode : Nat) (e : TEnt) (l : TLane) : Nat → Nat → EAns TLane
  | 0, _ => .ok l s
  | m + 1, k =>
    let va := e.frame.tri + BitVec.ofNat 64 (48 * (e.idx + k))
    if va.toNat % 16 ≠ 0 then .fault cALIGN va s
    else
      (s.engRead gid 4 va 48).bind fun tri s =>
        let l := l.meet mode e.frame tri
        if mode = 1 ∧ l.hit.isSome then .ok { l with stack := [] } s else State.leafTris s gid mode e l m (k + 1)

/-- One turn of the loop of a lane's traversal (13 R312). -/
def State.traceTurn (s : State) (gid : Nat) (desc : List Word) (mode : Nat) (l : TLane) : EAns TLane :=
  match l.stack with
  | [] => .ok l s
  | e :: rest =>
    let l' := { l with stack := rest }
    let far := match l.hit with
      | some h => (f32 h.t).lt (f32 e.te)
      | none => false
    if mode ≠ 1 && far then .ok l' s
    else if e.ty = 1 then
      (s.engRead gid 4 (e.frame.root + BitVec.ofNat 64 (128 * e.idx)) 128).bind fun node s =>
        let es := (List.range 8).filterMap fun i => childEnter desc l' e.frame node i
        let sorted := es.foldl (fun t x => insertEnt x t) []
        .ok (sorted.reverse.foldl TLane.push l') s
    else if e.ty = 3 then
      (s.engRead gid 4 (pair64 (wordAt desc 2) (wordAt desc 3) + BitVec.ofNat 64 (64 * e.idx)) 64).bind fun b s =>
        match instFrame l.ray e.idx b with
        | none => .ok l' s
        | some f => .ok (l'.push { ty := 1, idx := 0, cnt := 0, frame := f, te := e.te }) s
    else s.leafTris gid mode e l' (e.cnt + 1) 0

/-- Turns a lane makes in one step of the model (DESIGN CHOICE, log 23: a traversal of more turns takes more steps). -/
def traceTurns : Nat := 4096

/-- Turns of a lane until its stack is empty, it faults or meets a page, or the step's turns are used. A fault ends the lane
(13 R317). -/
def State.traceLane (s : State) (gid : Nat) (desc : List Word) (mode : Nat) : Nat → TLane → State × TLane × Option (DWord × AccBits)
  | 0, l => (s, l, none)
  | n + 1, l =>
    if l.stack.isEmpty then (s, l, none)
    else
      match s.traceTurn gid desc mode l with
      | .ok l s => State.traceLane s gid desc mode n l
      | .fault c va s => (s, { l with stack := [], hit := none, fault := some (c, va) }, none)
      | .miss va acc s => (s, l, some (va, acc))

/-- The lanes of a TRACE, each carried on. -/
def State.traceLanes (s : State) (gid : Nat) (desc : List Word) (mode : Nat) : List TLane → State × List TLane × List Miss
  | [] => (s, [], [])
  | l :: ls =>
    let (s, l, miss) := s.traceLane gid desc mode traceTurns l
    let (s, ls, ms) := State.traceLanes s gid desc mode ls
    let ms := match miss with
      | some (va, acc) => ({ vpn := vpnOf va, acc := acc, lane := l.lane, va := va } : Miss) :: ms
      | none => ms
    (s, l :: ls, ms)

/-- The six words TRACE writes for a lane (13 R311). -/
def TLane.words (l : TLane) : List Word :=
  let flag := fun (b : Bool) (k : Nat) => if b then 2 ^ k else 0
  let more := flag l.ovf 2 + flag l.bad 3 + flag l.fault.isSome 4
  match l.hit with
  | some h =>
    [h.t, h.b1, h.b2, h.prim, BitVec.ofNat 32 h.inst, BitVec.ofNat 32 (1 + flag h.negd 1 + more)]
  | none => [0x7F800000#32, 0, 0, 0xFFFFFFFF#32, 0xFFFFFFFF#32, BitVec.ofNat 32 more]

/-- A v register of the current bundle written in the lanes of a mask (04 R114). -/
def State.writeLater (s : State) (r : Nat) (exec : DWord) (v : Val) : State :=
  let b := s.bun
  let x := mergeVal exec s.grp.w (s.readV r) v
  (s.setBun { b with v := Tab.put b.v r (.val x), poison := clearRegPoison b.poison r exec }).freeSlots b

/-- The results of a TRACE whose lanes have ended, with the engine trap of the lowest lane that faulted (13 R311, R317). -/
def State.traceEnd (s : State) (k : Nat) (t : Trace) : State :=
  let s := s.setBun { s.bun with traces := s.bun.traces.eraseIdx k }
  let word := fun i j => match t.lanes.find? fun l => l.lane = i with
    | some l => wordAt l.words j
    | none => 0
  let s := (List.range 6).foldl (fun (s : State) j =>
    s.writeLater (t.d + j) t.exec (if t.uni then .u (word 0 j) else .g ((List.range s.grp.w).map fun i => word i j))) s
  match t.lanes.findSome? (·.fault) with
  | some (c, va) => s.engTrap s.cur [t.clause] c (0x28 + t.slot) va
  | none => s

/-- TRACE number k of the current bundle carried on: its results are written once every lane has ended (13 R311, R317). -/
def State.traceStep (s : State) (k : Nat) : State :=
  match s.bun.traces[k]? with
  | none => s
  | some t =>
    if t.parked then s
    else
      let gid := s.cur.gid
      let (s, ls, ms) := s.traceLanes gid t.desc t.mode t.lanes
      let t := { t with lanes := ls }
      if ls.all fun l => l.stack.isEmpty then s.traceEnd k t
      else
        let s := s.setBun { s.bun with traces := s.bun.traces.set k { t with parked := !ms.isEmpty } }
        if ms.isEmpty then s else s.parkAccess (.trace gid s.cur.bid t.d) s.grp.core 4 ms

/-- TRACE_COMPLETION (13 R311). -/
def execTraceCompletion (g b n : Nat) (s : State) : Host.Outcome State Fault Refusal :=
  let cur := s.cur
  let s := s.tick
  .next { { s with cur := { gid := g, bid := b } }.traceStep n with cur := cur }

/-! ## The meanings, as exec runs them -/

/-- CAMSET as a word of the clause in progress (R303). -/
def execCamset (a : BitVec 7) (s : State) : Host.Outcome State Fault Refusal := s.runWord (.camset a) (perfCamset a)

/-- BVHSET as a word of the clause in progress (R303). -/
def execBvhset (a : BitVec 7) (n : BitVec 2) (s : State) :
    Host.Outcome State Fault Refusal := s.runWord (.bvhset a n) (perfBvhset a n)

/-- CAMGEN as a word of the clause in progress (R305). -/
def execCamgen (d : BitVec 7) (a : BitVec 7) (s : State) :
    Host.Outcome State Fault Refusal := s.runWord (.camgen d a) (perfCamgen d a)

/-- TRACE as a word of the clause in progress (R312). -/
def execTrace (d : BitVec 7) (a : BitVec 7) (m : BitVec 2) (n : BitVec 2) (s : State) :
    Host.Outcome State Fault Refusal := s.runWord (.trace d a m n) (perfTrace d a m n)

end Sys2Proof.Machine
end

