-- ==== Sys2Proof/Machine/Layer.lean ====
section
/-!
DEFINITION. Layered targets: MLTSET, and the list operations FRAGINS, LPOP, LRESOLVE and LCLEAR (13 R302, R303, R318 to R326).
-/
namespace Sys2Proof.Machine

/-! ## Entries of a list -/

/-- An entry of a list: its node's four words, and the node, which a fragment still to be inserted has none of. -/
structure LEnt where
  node : Option Nat
  w    : List Word
  deriving DecidableEq, Repr

/-- Depth, payload and MCOUNT of an entry (13 R319). -/
def LEnt.depth (e : LEnt) : Word := wordAt e.w 0
def LEnt.pay (e : LEnt) : DWord := pair64 (wordAt e.w 1) (wordAt e.w 2)
def LEnt.mcount (e : LEnt) : Nat := bits (wordAt e.w 3) 27 24

/-- An entry made of a depth, a payload and an MCOUNT. -/
def mkEnt (node : Option Nat) (depth : Word) (pay : DWord) (mc : Nat) : LEnt :=
  { node := node, w := [depth, half false pay, half true pay, BitVec.ofNat 32 (mc * 2 ^ 24 + nilNode)] }

/-- The order of a list: ascending depth, then the lower payload (13 R321). -/
def LEnt.before (a b : LEnt) : Bool :=
  decide (orderKey a.depth < orderKey b.depth) ||
    (decide (orderKey a.depth = orderKey b.depth) && decide (a.pay.toNat < b.pay.toNat))

/-- An entry put in its place, after those equal to it (13 R321). -/
def insEnt (e : LEnt) : List LEnt → List LEnt
  | [] => [e]
  | x :: xs => if e.before x then e :: x :: xs else x :: insEnt e xs

/-- Entries in order, equal ones as they stood. -/
def sortEnts (l : List LEnt) : List LEnt := l.foldl (fun t e => insEnt e t) []

/-! ## Merging -/

/-- An f16 channel of a payload: c0 to c2, alpha (13 R319). -/
def channel (p : DWord) (k : Nat) : Nat := p.toNat / 2 ^ (16 * k) % 2 ^ 16

/-- One channel of merge(F, B) under a rule, rounded once in f16 (13 R323). -/
def mergeChannel (rule alpha f b : Nat) : Nat :=
  match rule with
  | 0 =>
    let t := ((Num.fin false 1 0).add (F16.decode alpha).negate).mul (F16.decode b)
    F16.encode .rne (exactSum [F16.decode f, t])
  | 2 => F16.add f b
  | _ => F16.minmax true f b

/-- merge(F, B), F the front payload (13 R323). -/
def mergePay (rule : Nat) (f b : DWord) : DWord :=
  if rule = 1 then f
  else
    BitVec.ofNat 64 ((List.range 4).foldl (fun a k =>
      a + mergeChannel rule (channel f 3) (channel f k) (channel b k) * 2 ^ (16 * k)) 0)

/-- The gap between two neighbours; a NaN counts as +Inf (13 R322). -/
def gapKey (a b : LEnt) : Int :=
  let g := fsub32 b.depth a.depth
  if (f32 g).isNan then orderKey 0x7F800000#32 else orderKey g

/-- The position of the smallest gap, the lowest of equal ones. -/
def smallestGap : List LEnt → Nat
  | a :: b :: rest =>
    match rest with
    | [] => 0
    | c :: rest' =>
      let j := smallestGap (b :: c :: rest')
      let l := b :: c :: rest'
      let at' := fun k => l.getD k a
      if gapKey (at' j) (at' (j + 1)) < gapKey a b then j + 1 else 0
  | _ => 0

/-- The L + 1 entries with their closest pair merged, and the node that the pair frees given to the new fragment where it is
not part of the pair (13 R322). -/
def mergeClosest (rule : Nat) (l : List LEnt) : List LEnt :=
  let j := smallestGap l
  match l.drop j with
  | f :: b :: rest =>
    let (node, freed) := match f.node with
      | some n => (some n, b.node)
      | none => (b.node, none)
    let m := mkEnt node f.depth (mergePay rule f.pay b.pay) (min 15 (f.mcount + b.mcount + 1))
    (l.take j ++ m :: rest).map fun e => if e.node.isNone then { e with node := freed } else e
  | _ => l

/-! ## Lists in memory -/

/-- A head word from its parts (13 R319). -/
def headWord (merged count first : Nat) : Word := BitVec.ofNat 32 (merged * 2 ^ 28 + count * 2 ^ 24 + first % 2 ^ 24)

/-- MERGED, COUNT and FIRST of a head word. -/
def hMerged (h : Word) : Nat := bits h 28 28
def hLen (h : Word) : Nat := bits h 27 24
def hFirst (h : Word) : Nat := bits h 23 0

/-- The nodes of a list from index j, n of them still to come, as far as stop lets the work go. A chain that disagrees with
COUNT where it is read is a bad index (13 R320). -/
def State.listWalk (s : State) (t : Target) (stop : LEnt → Bool) : Nat → Nat → LAns (List LEnt)
  | 0, _ => .ok [] s
  | n + 1, j =>
    if s.lCap t ≤ j then .bad
    else
      (s.readNode t j).bind fun w s =>
        let e : LEnt := { node := some j, w := w }
        if decide (n = 0) != decide (nextOf w = nilNode) then .bad
        else if stop e then .ok [e] s
        else (State.listWalk s t stop n (nextOf w)).bind fun es s => .ok (e :: es) s

/-- A chain of entries written: each one's NEXT names the one after it; an entry that stands in memory already is not. -/
def State.writeChain (s : State) (t : Target) (old : List LEnt) : List LEnt → LAns Unit
  | [] => .ok () s
  | e :: es =>
    let j := e.node.getD 0
    let next := match es with
      | [] => nilNode
      | x :: _ => x.node.getD nilNode
    let w := withNext e.w next
    if old.contains { node := some j, w := w } then State.writeChain s t old es
    else (s.writeNode t j w).bind fun _ s => State.writeChain s t old es

/-- FRAGINS of one lane: the list at its head word takes a fragment; what is left of the nodes reserved (13 R321, R322). -/
def State.listInsert (s : State) (t : Target) (hkey : Nat) (depth : Word) (pay : DWord) (res : List Nat) : LAns (List Nat) :=
  let h := s.homeWord hkey
  let new := mkEnt none depth pay 0
  if lMax t.desc ≤ hLen h then
    (s.listWalk t (fun _ => false) (hLen h) (hFirst h)).bind fun es s =>
      let l := mergeClosest (lRule t.desc) (sortEnts (es ++ [new]))
      (s.writeChain t es l).bind fun _ s =>
        let first := ((l.head?.bind fun e => e.node)).getD nilNode
        .ok res ((s.lBump t 8).setHomeWord hkey (headWord 1 (hLen h) first))
  else
    (s.listWalk t (fun e => new.before e) (hLen h) (hFirst h)).bind fun es s =>
      let pick := if res.length = 1 then 0 else Config.poolPick s.freeCtr % res.length
      let s := if res.length = 1 then s else { s with freeCtr := s.freeCtr + 1 }
      let j := res.getD pick 0
      let pre := es.filter fun e => !new.before e
      let after := match es.find? fun e => new.before e with
        | some e => e.node.getD nilNode
        | none => nilNode
      (s.writeNode t j (withNext new.w after)).bind fun _ s =>
        let done := fun (s : State) (first : Nat) =>
          LAns.ok (res.eraseIdx pick) (s.setHomeWord hkey (headWord (hMerged h) (hLen h + 1) first))
        match pre.getLast? with
        | none => done s j
        | some e => (s.writeNode t (e.node.getD 0) (withNext e.w j)).bind fun _ s => done s (hFirst h)

/-- LPOP of one lane: the words of its quad and its k15 bit (13 R324). -/
def State.listPop (s : State) (t : Target) (hkey : Nat) : LAns (List Word) :=
  let h := s.homeWord hkey
  (s.listWalk t (fun _ => true) (hLen h) (hFirst h)).bind fun es s =>
    match es with
    | [] => .ok [0x7F800000#32, 0, 0, 0, 0] s
    | e :: _ =>
      (s.releaseNode t (e.node.getD 0)).bind fun _ s =>
        let left := hLen h - 1
        let s := s.setHomeWord hkey (headWord (if left = 0 then 0 else hMerged h) left (nextOf e.w))
        .ok [wordAt e.w 0, wordAt e.w 1, wordAt e.w 2, BitVec.ofNat 32 (bits (wordAt e.w 3) 31 24 + left * 2 ^ 8), 1] s

/-- Nodes returned to the free list, in order. -/
def State.releaseAll (s : State) (t : Target) : List Nat → LAns Unit
  | [] => .ok () s
  | j :: js => (s.releaseNode t j).bind fun _ s => State.releaseAll s t js

/-- LRESOLVE and LCLEAR of one lane: the blend of the list, which is freed (13 R325). -/
def State.listResolve (s : State) (t : Target) (hkey : Nat) : LAns (List Word) :=
  let h := s.homeWord hkey
  (s.listWalk t (fun _ => false) (hLen h) (hFirst h)).bind fun es s =>
    let acc := match es with
      | [] => 0
      | e :: r => r.foldl (fun a x => mergePay (lRule t.desc) a x.pay) e.pay
    (s.releaseAll t (es.map fun e => e.node.getD 0)).bind fun _ s =>
      .ok [half false acc, half true acc] (s.setHomeWord hkey (headWord 0 0 nilNode))

/-! ## Operations -/

/-- Pixel of a source word: x, y (13 R321). -/
def pixX (w : Word) : Nat := bits w 15 0
def pixY (w : Word) : Nat := bits w 31 16

/-- Whether a pixel lies inside a target. -/
def pixInside (d : List Word) (w : Word) : Bool := decide (pixX w < lWidth d) && decide (pixY w < lHeight d)

/-- Index of a pixel, and the address of its head word (13 R318). -/
def pixIndex (d : List Word) (w : Word) : Nat := pixY w * lWidth d + pixX w
def headVa (d : List Word) (w : Word) : DWord := lHeads d + BitVec.ofNat 64 (4 * pixIndex d w)

/-- The pixel word of a lane. -/
def pixOf (kind : Nat) (ws : List Word) : Word := wordAt ws (if kind = 0 then 3 else 0)

/-- Whether a lane of a list operation touches its pixel's list: the pixel inside, and for FRAGINS (kind 0) a depth that is no
NaN (13 R321, R324). The pixel is the last source word. -/
def touchesList (kind : Nat) (d : List Word) (ws : List Word) : Bool :=
  pixInside d (pixOf kind ws) && (kind ≠ 0 || !(f32 (wordAt ws 0)).isNan)

/-- One lane of a list operation that touches a list: what it writes, and the reserved nodes left. -/
def State.listLane (s : State) (op : ListOp) (t : Target) (ws : List Word) : LAns (List Word × List Nat) :=
  (s.lAcc t.p (headVa op.desc (pixOf op.kind ws)) 4 3).bind fun hkey s =>
    if op.kind = 0 then
      (s.listInsert t hkey (wordAt ws 0) (pair64 (wordAt ws 1) (wordAt ws 2)) op.res).bind fun r s => .ok ([], r) s
    else if op.kind = 1 then (s.listPop t hkey).bind fun o s => .ok (o, op.res) s
    else (s.listResolve t hkey).bind fun o s => .ok (o, op.res) s

/-- What a lane that touches no list gives: an empty list (13 R324). -/
def emptyList (kind : Nat) : List Word := if kind = 1 then [0x7F800000#32, 0, 0, 0, 0] else [0, 0]

/-- The lanes of a list operation in ascending order, until one meets a page that is not present (13 R320). -/
def State.listLanes (s : State) (gid : Nat) (t : Target) (op : ListOp) : List (Nat × List Word) → State × ListOp × Option (DWord × AccBits × Nat)
  | [] => (s, { op with lanes := [] }, none)
  | (i, ws) :: rest =>
    if touchesList op.kind op.desc ws then
      match (s.directWrite gid).listLane op t ws with
      | .ok (o, r) s => State.listLanes s gid t { op with outs := op.outs ++ [(i, o)], res := r } rest
      | .bad =>
        let s := (s.directWrite gid).setBadIdx t (BitVec.ofNat 32 (pixIndex op.desc (pixOf op.kind ws) + 1))
        State.listLanes s gid t op rest
      | .fault c va => State.listLanes s gid t { op with fault := op.fault.or (some (c, va)) } rest
      | .miss va acc => (s, { op with lanes := (i, ws) :: rest }, some (va, acc, i))
    else if op.kind = 0 then State.listLanes ((s.directWrite gid).lBump t 9) gid t op rest
    else State.listLanes s gid t { op with outs := op.outs ++ [(i, emptyList op.kind)] } rest

/-- Lanes as a mask. -/
def maskOf (l : List Nat) : DWord := l.foldl (fun m i => m ||| BitVec.ofNat 64 (2 ^ i)) 0

/-- Reserved nodes that a clause has not used are kept until it completes (13 R321). -/
def State.keepNodes (s : State) (r : Reserve) : State :=
  if r.nodes.isEmpty then s else s.setStr { s.str with spare := s.str.spare ++ [r] }

/-- The nodes of a reservation return to the free list of their target (13 R321). -/
def State.giveBack (s : State) (r : Reserve) : State :=
  let t : Target := { p := s.party, va := r.va, desc := r.desc, dkey := r.dkey }
  r.nodes.foldl (fun s j => match (s.directWrite s.cur.gid).releaseNode t j with
    | .ok _ s => s
    | _ => s) s

/-- The unused nodes that p names return, by a stream (13 R321). -/
def State.returnNodes (s : State) (w : Who) (p : Reserve → Bool) : State :=
  let x := s.stream w
  if x.spare.any p then
    let t := (x.spare.filter p).foldl State.giveBack { s.setStream w { x with spare := x.spare.filter (!p ·) } with cur := w }
    { t with cur := s.cur }
  else s

/-- The unused nodes of a stream's clauses that have no record any more return (13 R321). -/
def State.returnLost (s : State) (w : Who) : State := s.returnNodes w fun r => ((s.stream w).out? r.clause).isNone

/-- A list operation whose lanes have all been performed: unused nodes are kept for the completion of the clause, its registers are
written in the lanes that performed, and the first fault becomes an engine trap (13 R320, R321, R324, R325). -/
def State.listEnd (s : State) (t : Target) (op : ListOp) : State :=
  let s := s.keepNodes { slot := op.slot, va := op.va, desc := op.desc, dkey := t.dkey, clause := op.clause, nodes := op.res }
  let m := maskOf (op.outs.map (·.1))
  let word := fun i j => match op.outs.find? fun o => o.1 = i with
    | some o => wordAt o.2 j
    | none => 0
  let n := if op.kind = 1 then 4 else if op.kind = 2 then 2 else 0
  let s := if m = 0 then s else
    (List.range n).foldl (fun (s : State) j =>
      s.writeLater (op.d + j) m (.g ((List.range s.grp.w).map fun i => word i j))) s
  let ks := laneMask s.grp.w fun i => word i 4 = 1
  let s := if op.kind = 1 then s.writeK 15 ((s.readK 15 &&& ~~~ m) ||| (ks &&& m)) else s
  match op.fault with
  | some (c, va) => s.engTrap s.cur [op.clause] c (0x2C + op.slot) va
  | none => s

/-- The oldest list operation of the current bundle carried on, and those after it in turn; one that meets a page that is not
present is parked (13 R320). -/
def State.listStep (s : State) : Nat → State
  | 0 => s
  | n + 1 =>
    match s.bun.lists with
    | [] => s
    | op :: rest =>
      if op.parked then s
      else
        let p : Party := { s.party with handler := op.handler }
        let gid := s.cur.gid
        let park := fun (s : State) (op : ListOp) (va : DWord) (acc : AccBits) (lane : Nat) =>
          let s := s.setBun { s.bun with lists := { op with parked := true } :: rest }
          s.parkAccess (.list gid s.cur.bid 0) s.grp.core 4 [{ vpn := vpnOf va, acc := acc, lane := lane, va := va }]
        match s.lAcc p op.va 64 3 with
        | .miss va acc => park s op va acc 0
        | .ok k s =>
          let t : Target := { p := p, va := op.va, desc := op.desc, dkey := k }
          match s.listLanes gid t op op.lanes with
          | (s, op, some (va, acc, i)) => park s op va acc i
          | (s, op, none) => State.listStep ((s.setBun { s.bun with lists := rest }).listEnd t op) n
        | .fault c va =>
          State.listStep ((s.setBun { s.bun with lists := rest }).engTrap s.cur [op.clause] c (0x2C + op.slot) va) n
        | .bad => s

/-- The checks of a list operation at issue: the descriptor, then the head word of every lane whose pixel lies inside (13 R320,
R324). -/
def State.listPlaces (s : State) (kind : Nat) (va : DWord) (desc : List Word) (lanes : List (Nat × List Word)) :
    Except Res Nat × List Miss :=
  let p := s.party
  let miss := fun (va : DWord) (i : Nat) => ({ vpn := vpnOf va, acc := 3, lane := i, va := va } : Miss)
  let heads := lanes.filterMap fun l => if pixInside desc (pixOf kind l.2) then some (l.1, headVa desc (pixOf kind l.2)) else none
  let ans := heads.map fun h => (h, s.lAcc p h.2 4 3)
  let ms := ans.filterMap fun a => match a.2 with
    | .miss va _ => some (miss va a.1.1)
    | _ => none
  let bad := ans.findSome? fun a => match a.2 with
    | .fault c va => some (Res.trap { cause := c, info := BitVec.ofNat 32 (a.1.1 * 16), addr := va })
    | _ => none
  match s.lAcc p va 64 3, bad with
  | .fault c va, _ => (.error (.trap { cause := c, addr := va }), ms)
  | _, some r => (.error r, ms)
  | .miss va _, none => (.error (.park 4 (miss va 0 :: ms)), miss va 0 :: ms)
  | .ok k _, none => (.ok k, ms)
  | .bad, none => (.ok 0, ms)

/-- FRAGINS words on a slot in the clause in progress, from the one that performs on and as long as no MLTSET binds the slot anew
(13 R303, R321). -/
def State.fraginsLeft (s : State) (slot : Nat) : Nat :=
  let c := s.str.clause
  let here := (c.words.drop c.idx).takeWhile fun w => match decode w with
    | some (.mltset _ n) => n.toNat ≠ slot
    | _ => true
  (here.filter fun w => match decode w with
    | some (.fragins _ n) => n.toNat = slot
    | _ => false).length

/-- The reservation a clause makes on a layered slot, for some lanes of each of n FRAGINS: the nodes the free list gives, taken from
it where they are enough (13 R321). -/
def State.reserveSlot (s : State) (slot n : Nat) : State :=
  match Tab.find? s.grp.layers slot with
  | none => s
  | some (va, desc) =>
    match s.lAcc s.party va 64 3 with
    | .ok k u =>
      let t : Target := { p := s.party, va := va, desc := desc, dkey := k }
      let need := s.activeLanes.length * n
      let w := u.freeWalk t need (u.lFree t)
      let s := if w.nodes.length = need && need ≠ 0 then (u.directWrite s.cur.gid).setFree t w.next else s
      let x := s.str
      let r : Reserve := { slot := slot, va := va, desc := desc, dkey := k, clause := s.str.clause.id, nodes := w.nodes,
                           fault := w.fault, miss := w.miss }
      s.setStr { x with clause := { x.clause with pool := x.clause.pool ++ [r] } }
    | _ => s

/-- Before any lane of a clause performs, it reserves nodes on every slot for all its FRAGINS there (13 R321). -/
def State.reserveClause (s : State) : State :=
  (List.range 4).foldl (fun s slot =>
    let n := s.fraginsLeft slot
    if n = 0 then s else s.reserveSlot slot n) s

/-- The clause's reservation on a slot and target replaced, or made. -/
def State.setReserve (s : State) (r : Reserve) : State :=
  let x := s.str
  let pool := x.clause.pool.filter (fun o => !(o.slot = r.slot && o.va = r.va)) ++ [r]
  s.setStr { x with clause := { x.clause with pool := pool } }

/-- The nodes of a FRAGINS: from what its clause reserved on its target at issue; where an MLTSET of the clause has bound the slot since,
from the new target's free list, for all FRAGINS left on it. With fewer than these need, the clause traps with POOL (13 R303,
R321). -/
def State.reserveNodes (s : State) (t : Target) (lanes slot : Nat) (ms : List Miss) : Except Res (List Nat × State) :=
  let need := lanes * max 1 (s.fraginsLeft slot)
  let got := s.str.clause.pool.find? fun r => r.slot = slot && r.va = t.va
  let w : FreeWalk := match got with
    | some r => { nodes := r.nodes, next := 0, fault := r.fault, miss := r.miss }
    | none => s.freeWalk t need (s.lFree t)
  match w.fault, w.miss with
  | some (c, va), _ => .error (.trap { cause := c, addr := va })
  | none, some va => .error (.park 4 (ms ++ [{ vpn := vpnOf va, acc := 3, va := va }]))
  | none, none =>
    if w.nodes.length < need then
      .error (.trap { cause := cPOOL, info := BitVec.ofNat 32 (need % 2 ^ 16 * 16), addr := t.va + 28 })
    else if !ms.isEmpty then .error (.park 4 ms)
    else
      match got with
      | some r => .ok (r.nodes.take lanes, s.setReserve { r with nodes := r.nodes.drop lanes })
      | none =>
        let r : Reserve := { slot := slot, va := t.va, desc := t.desc, dkey := t.dkey, clause := s.str.clause.id,
                             nodes := w.nodes.drop lanes }
        .ok (w.nodes.take lanes, (((s.directWrite s.cur.gid).setFree t w.next)).setReserve r)

/-- A list operation of a slot: kind 0 FRAGINS, 1 LPOP, 2 LRESOLVE, 3 LCLEAR; n source words from a (13 R302, R320, R321). -/
def State.listOp (s : State) (i : Instr) (kind : Nat) (a : BitVec 7) (n d slot dn : Nat) : Res :=
  match Tab.find? s.grp.layers slot with
  | none => .trap { cause := cPROT }
  | some (va, desc) =>
    if s.exec0 = 0 then .done s
    else
      let q := s.readN a n
      let lanes := s.activeLanes.map fun i => (i, q.map fun v => v.lane i)
      let go := fun (res : List Nat) (s : State) =>
        match s.reserve i ((List.range dn).map (d + ·)) false with
        | .error e => e
        | .ok s =>
          let op : ListOp := { kind := kind, slot := slot, va := va, desc := desc, lanes := lanes, outs := [], d := d, res := res,
                               handler := s.str.handler, clause := s.str.clause.id }
          let s := s.setBun { s.bun with lists := s.bun.lists ++ [op] }
          .done (s.listStep s.bun.lists.length)
      match s.listPlaces kind va desc lanes with
      | (.error r, _) => r
      | (.ok k, ms) =>
        if kind = 0 then
          let t : Target := { p := s.party, va := va, desc := desc, dkey := k }
          match s.reserveNodes t lanes.length slot ms with
          | .error r => r
          | .ok (res, s) => go res s
        else if ms.isEmpty then go [] s
        else .park 4 ms

/-- The effect of FRAGINS (13 R321, R322). -/
def perfFragins (a : BitVec 7) (n : BitVec 2) (s : State) : Res := s.listOp (.fragins a n) 0 a 4 0 n.toNat 0

/-- The effect of LPOP (13 R324). -/
def perfLpop (d p : BitVec 7) (n : BitVec 2) (s : State) : Res := s.listOp (.lpop d p n) 1 p 1 d.toNat n.toNat 4

/-- The effect of LRESOLVE (13 R325). -/
def perfLresolve (d p : BitVec 7) (n : BitVec 2) (s : State) : Res := s.listOp (.lresolve d p n) 2 p 1 d.toNat n.toNat 2

/-- The effect of LCLEAR (13 R325). -/
def perfLclear (p : BitVec 7) (n : BitVec 2) (s : State) : Res := s.listOp (.lclear p n) 3 p 1 0 n.toNat 0

/-! ## MLTSET -/

/-- The lowest word of a layered-target descriptor that breaks R318. -/
def layerBad (b : List Word) : Option Nat :=
  let w := wordAt b
  firstBad (
    [(0, decide (lWidth b = 0) || decide (lHeight b = 0)),
     (1, decide (bits (w 1) 31 8 ≠ 0) || decide (3 < lRule b) || decide (lMax b < 2)),
     (2, decide (bits (w 2) 1 0 ≠ 0)), (4, decide (bits (w 4) 3 0 ≠ 0)),
     (6, w 6 = 0 || decide (nilNode < (w 6).toNat)), (7, decide (bits (w 7) 31 24 ≠ 0))] ++
    (List.range 5).map fun k => (11 + k, decide (w (11 + k) ≠ 0)))

/-- The effect of MLTSET (13 R303, R318). -/
def perfMltset (a : BitVec 7) (n : BitVec 2) (s : State) : Res :=
  s.bindRead a 64 2 fun va b s =>
    match layerBad b with
    | some w => bindTrap va w
    | none => .done (s.setGrp { s.grp with layers := Tab.put s.grp.layers n.toNat (va, b) })

/-! ## The meanings, as exec runs them -/

/-- FRAGINS as a word of the clause in progress (R321). -/
def execFragins (a : BitVec 7) (n : BitVec 2) (s : State) :
    Host.Outcome State Fault Refusal := s.runWord (.fragins a n) (perfFragins a n)

/-- LPOP as a word of the clause in progress (R324). -/
def execLpop (d : BitVec 7) (p : BitVec 7) (n : BitVec 2) (s : State) :
    Host.Outcome State Fault Refusal := s.runWord (.lpop d p n) (perfLpop d p n)

/-- LRESOLVE as a word of the clause in progress (R325). -/
def execLresolve (d : BitVec 7) (p : BitVec 7) (n : BitVec 2) (s : State) :
    Host.Outcome State Fault Refusal := s.runWord (.lresolve d p n) (perfLresolve d p n)

/-- LCLEAR as a word of the clause in progress (R325). -/
def execLclear (p : BitVec 7) (n : BitVec 2) (s : State) :
    Host.Outcome State Fault Refusal := s.runWord (.lclear p n) (perfLclear p n)

/-- MLTSET as a word of the clause in progress (R303). -/
def execMltset (a : BitVec 7) (n : BitVec 2) (s : State) :
    Host.Outcome State Fault Refusal := s.runWord (.mltset a n) (perfMltset a n)

end Sys2Proof.Machine
end

