-- ==== Sys2Proof/Machine/Mxe.lean ====
section
/-!
DEFINITION. The matrix engine: accumulator tiles and their owners, MMA by chunks, MDRAIN by rows, and the token and access
instructions (12 R275 to R294).
-/
namespace Sys2Proof.Machine

/-- A tile of a group. -/
def Group.tile (g : Group) (t : Nat) : Tile := Tab.get {} g.tiles t

/-- The state with a tile of the current group replaced. -/
def State.setTile (s : State) (t : Nat) (x : Tile) : State := s.setGrp { s.grp with tiles := Tab.put s.grp.tiles t x }

/-- An element of a tile, by row and column. -/
def Tile.elem (x : Tile) (m n : Nat) : Word := Tab.get 0 x.elems (128 * m + n)

/-- The tile with an element written. An element of +0 is not listed. -/
def Tile.setElem (x : Tile) (m n : Nat) (w : Word) : Tile :=
  let k := 128 * m + n
  { x with elems := if w = 0 then Tab.del x.elems k else Tab.put x.elems k w }

/-- The code of an owner state (12 R276). -/
def Owner.code : Owner → Nat
  | .vec => 0
  | .mxe => 1
  | .busy => 2

/-- The TOKEN trap of a tile found in a state its instruction does not accept (12 R277). -/
def tokenTrap (t : Nat) (o : Owner) : Res := .trap { cause := cTOKEN, info := BitVec.ofNat 32 (t * 16 + o.code * 128) }

/-- An instruction that requires the owner VEC (12 R277). -/
def State.needVec (s : State) (t : Nat) (k : Tile → Res) : Res :=
  let x := s.grp.tile t
  if x.owner = .vec then k x else tokenTrap t x.owner

/-- A command that requires the owner MXE; it stalls while the tile is BUSY (12 R277). -/
def State.needMxe (s : State) (t : Nat) (k : Tile → Res) : Res :=
  let x := s.grp.tile t
  match x.owner with
  | .mxe => k x
  | .vec => tokenTrap t .vec
  | .busy => .stall (.tile t)

/-- The effect of MZERO (12 R279). -/
def perfMzero (t : BitVec 3) (s : State) : Res :=
  s.needVec t.toNat fun x => .done (s.setTile t.toNat { x with elems := [] })

/-- The effect of TKGIVE (12 R279). -/
def perfTkgive (t : BitVec 3) (s : State) : Res :=
  s.needVec t.toNat fun x => .done (s.setTile t.toNat { x with owner := .mxe })

/-- The effect of TKTAKE: it stalls while the tile is BUSY (12 R277, R279). -/
def perfTktake (t : BitVec 3) (s : State) : Res :=
  let x := s.grp.tile t.toNat
  if x.owner = .busy then .stall (.tile t.toNat) else .done (s.setTile t.toNat { x with owner := .vec })

/-- The row and first column of a row operand; none where its value is not admitted (12 R280). -/
def rowOf (r : Word) (h : BitVec 1) (w : Nat) : Option (Nat × Nat) :=
  let c := bits r 13 8
  if bit r 7 || bits r 31 14 ≠ 0 || decide (64 < c + w) then none else some (bits r 6 0, 64 * h.toNat + c)

/-- The effect of ACCRD (12 R280). -/
def perfAccrd (d r : BitVec 7) (h : BitVec 1) (t : BitVec 3) (s : State) : Res :=
  let w := s.grp.w
  match rowOf ((s.read r).lane 0) h w with
  | none => .trap { cause := cILLOPND }
  | some (m, j) => s.needVec t.toNat fun x => .done (s.write d (.g ((List.range w).map fun i => x.elem m (j + i))))

/-- The effect of ACCWR (12 R280). -/
def perfAccwr (v r : BitVec 7) (h : BitVec 1) (t : BitVec 3) (s : State) : Res :=
  match rowOf ((s.read r).lane 0) h s.grp.w with
  | none => .trap { cause := cILLOPND }
  | some (m, j) =>
    s.needVec t.toNat fun x =>
      let y := s.read v
      .done (s.setTile t.toNat (s.activeLanes.foldl (fun (x : Tile) i => x.setElem m (j + i) (y.lane i)) x))

/-- The effect of MSTAT (12 R281). -/
def perfMstat (d : BitVec 7) (s : State) : Res :=
  let g := s.grp
  let n := nTiles (s.nodeRec g.node)
  let own := (List.range 8).foldl (fun a t => a + (if t < n then (g.tile t).owner.code else 3) * 4 ^ t) 0
  .done (s.writeAll d.toNat 0 (BitVec.ofNat 32 (min 15 g.mcmds.length * 65536 + own)))

/-! ## Parameter blocks -/

/-- The chunk of two operand types; 0 where they share no class (12 R283). -/
def mmaChunk (a b : Nat) : Nat :=
  let narrow := fun t => decide (12 ≤ t) && decide (t ≤ 15)
  let half := fun t => t = 8 || t = 9
  if narrow a && narrow b then 32 else if half a && half b then 16 else 0

/-- Fields of an MMA block (12 R283). -/
def mTile (b : List Word) : Nat := bits (wordAt b 0) 2 0
def mAcc (b : List Word) : Bool := bit (wordAt b 0) 3
def mAtype (b : List Word) : Nat := bits (wordAt b 0) 7 4
def mBtype (b : List Word) : Nat := bits (wordAt b 0) 11 8
def mAvirt (b : List Word) : Bool := bit (wordAt b 0) 12
def mAscale (b : List Word) : Bool := bit (wordAt b 0) 13
def mBscale (b : List Word) : Bool := bit (wordAt b 0) 14
def mAtid (b : List Word) : Nat := bits (wordAt b 0) 23 16
def mBtid (b : List Word) : Nat := bits (wordAt b 0) 31 24
def mRows (b : List Word) : Nat := bits (wordAt b 1) 7 0
def mCols (b : List Word) : Nat := bits (wordAt b 1) 15 8
def mK (b : List Word) : Nat := (wordAt b 2).toNat
def mKcur (b : List Word) : Nat := (wordAt b 3).toNat

/-- Whether a command returns its tile to VEC (12 R283, R292). -/
def MCmd.relTk (c : MCmd) : Bool := if c.drain then bit (wordAt c.blk 0) 13 else bit (wordAt c.blk 1) 16

/-- Rows and columns outside 1 to 128, or a bit above them (12 R283, R292). -/
def sizeBad (w : Word) (hi : Nat) : Bool :=
  let m := bits w 7 0
  let n := bits w 15 8
  m = 0 || decide (128 < m) || n = 0 || decide (128 < n) || decide (w.toNat / 2 ^ hi ≠ 0)

/-- The lowest word of an MMA block that breaks R283. -/
def mmaBad (b : List Word) (tiles : Nat) : Option Nat :=
  let c := mmaChunk (mAtype b) (mBtype b)
  firstBad (
    [(0, bit (wordAt b 0) 15 || c = 0 || decide (tiles ≤ mTile b)), (1, sizeBad (wordAt b 1) 17),
     (2, c ≠ 0 && (mK b % c ≠ 0 || decide (mK b < c))), (3, c ≠ 0 && (mKcur b % c ≠ 0 || decide (mK b < mKcur b))),
     (8, !mAvirt b && wordAt b 8 ≠ 0)] ++
    (List.range 7).map fun k => (9 + k, decide (wordAt b (9 + k) ≠ 0)))

/-- Whether the tensors an MMA names fit its block (12 R284). -/
def mmaTensorsBad (b ta tb : List Word) : Bool :=
  tFmt ta ≠ mAtype b || tFmt tb ≠ mBtype b || !tSpace tb || tUnfold ta ≠ mAvirt b || (mAscale b && tScale ta = 0) ||
    (mBscale b && tScale tb = 0)

/-- A command starts: its tile is BUSY until it ends (12 R276). -/
def State.startCmd (s : State) (t : Nat) (x : Tile) (c : MCmd) : State :=
  let g := (s.setTile t { x with owner := .busy }).grp
  s.setGrp { g with mcmds := Tab.put g.mcmds t c }

/-- The effect of MMA: its block and tensors are read and checked, its owner is checked, and with EXEC not empty the command
starts (12 R284, R286, R289). -/
def perfMma (a : BitVec 7) (s : State) : Res :=
  let off := ((s.read a).lane 0).toNat
  match s.block off 3 with
  | .error e => e
  | .ok b =>
    match mmaBad b (nTiles (s.nodeRec s.grp.node)) with
    | some w => blockTrap off w
    | none =>
      match s.tensor (mAtid b), s.tensor (mBtid b) with
      | .error e, _ => e
      | _, .error e => e
      | .ok ta, .ok tb =>
        if mmaTensorsBad b ta tb then blockTrap off 0
        else
          s.needMxe (mTile b) fun x =>
            if s.exec0 = 0 then .done s
            else
              .done (s.startCmd (mTile b) x
                { drain := false, block := off, blk := b, descs := [ta, tb], bid := s.cur.bid, acc := s.cur.acc,
                  clause := s.str.clause.id, cur := mKcur b })

/-- Fields of an MDRAIN block (12 R292). -/
def dRnd (b : List Word) : Nat := bits (wordAt b 0) 10 8
def dAmax (b : List Word) : Bool := bit (wordAt b 0) 12
def dFmt (b : List Word) : Nat := bits (wordAt b 0) 7 4
def dOsc (b : List Word) : Int := ((wordAt b 4).setWidth 8).toInt
def dAmaxVa (b : List Word) : DWord := pair64 (wordAt b 5) (wordAt b 6)
def dCur (b : List Word) : Nat := (wordAt b 7).toNat

/-- The lowest word of an MDRAIN block that breaks R292. -/
def drainBad (b : List Word) (tiles : Nat) : Option Nat :=
  let w0 := wordAt b 0
  let fmts := [0x8, 0x9, 0xA, 0xC, 0xD, 0xE, 0xF]
  firstBad (
    [(0, bits w0 31 24 ≠ 0 || bits w0 15 14 ≠ 0 || bit w0 11 || bit w0 3 || dRnd b = 7 || !fmts.contains (dFmt b) ||
        decide (tiles ≤ mTile b)),
     (1, sizeBad (wordAt b 1) 16), (4, bits (wordAt b 4) 31 8 ≠ 0),
     (5, dAmax b && decide ((dAmaxVa b).toNat % 4 ≠ 0)), (7, decide (mRows b < dCur b))] ++
    (List.range 8).map fun k => (8 + k, decide (wordAt b (8 + k) ≠ 0)))

/-- The effect of MDRAIN: checks as for MMA; under STO the bundle's generator advances once, whatever EXEC holds (12 R292,
R293). -/
def perfMdrain (a : BitVec 7) (s : State) : Res :=
  let off := ((s.read a).lane 0).toNat
  match s.block off 3 with
  | .error e => e
  | .ok b =>
    match drainBad b (nTiles (s.nodeRec s.grp.node)) with
    | some w => blockTrap off w
    | none =>
      match s.tensor (mAtid b) with
      | .error e => e
      | .ok t =>
        if tFmt t ≠ dFmt b || tScale t ≠ 0 || tUnfold t then blockTrap off 0
        else
          s.needMxe (mTile b) fun x =>
            let sr := if dRnd b = 5 then srNext s.bun.sr else s.bun.sr
            let s := s.setBun { s.bun with sr := sr }
            if s.exec0 = 0 then .done s
            else
              .done (s.startCmd (mTile b) x
                { drain := true, block := off, blk := b, descs := [t], bid := s.cur.bid, acc := s.cur.acc,
                  clause := s.str.clause.id, cur := dCur b, s0 := sr })

/-! ## Commands at work -/

/-- A command ends: its tile returns to an owner (12 R276). -/
def State.endCmd (s : State) (gid t : Nat) (o : Owner) : State :=
  let g := s.group gid
  s.setGroup gid { g with mcmds := Tab.del g.mcmds t, tiles := Tab.put g.tiles t { g.tile t with owner := o } }

/-- A command completes (12 R276). -/
def State.completeCmd (s : State) (gid t : Nat) (c : MCmd) : State := s.endCmd gid t (if c.relTk then .vec else .mxe)

/-- A fault of a command: PAGE parks it at its cursor; others end it with an engine trap (12 R290). -/
def cmdFault {α : Type} (gid t : Nat) (c : MCmd) : EAns α → State
  | .ok _ s => s
  | .fault cause va s => (s.endCmd gid t .mxe).engTrap { gid := gid, bid := c.bid, acc := c.acc } [c.clause] cause (0x20 + t) va
  | .miss va acc s =>
    let g := s.group gid
    (s.setGroup gid { g with mcmds := Tab.put g.mcmds t { c with parked := true } }).engPark (.tile gid t) gid 3 va acc

/-- An operand element as a value, its scale applied (12 R285, R286; 03 R78). -/
def State.operand (s : State) (gid : Nat) (d : List Word) (scaled : Bool) (ix : Option (List Nat)) : EAns Num :=
  match ix with
  | none => .ok (.fin false 0 0) s
  | some ix =>
    if !tInside d ix then .ok (.fin false 0 0) s
    else
      (s.elemRead gid 3 d ix).bind fun x s =>
        let v := (tyOf (tFmt d)).decode x
        if !scaled then .ok v s
        else
          (s.scaleRead gid 3 d ix).bind fun c s =>
            .ok (if c = 255 then .nan false else
              match v with
              | .fin neg m e => .fin neg m (e + ((c : Int) - 127))
              | v => v) s

/-- The output extent of an unfolded dimension (12 R287). -/
def unfoldExtent (size pad dil kern stride : Nat) : Nat :=
  if size + 2 * pad < dil * (kern - 1) + 1 then 0 else (size + 2 * pad - dil * (kern - 1) - 1) / stride + 1

/-- The element that row p and column kk of an unfolded A read; none where it is zero (12 R287). -/
def unfoldIndex (d : List Word) (p kk : Nat) : Option (List Nat) :=
  let w14 := wordAt d 14
  let w15 := wordAt d 15
  let kh := bits w14 31 24
  let kw := bits w14 23 16
  let cs := bits w14 15 8
  let dil := bits w14 7 0
  let ph := bits w15 15 8
  let pw := bits w15 7 0
  let c := tDim d 0
  let wi := tDim d 1
  let hh := tDim d 2
  let oh := unfoldExtent hh ph dil kh cs
  let ow := unfoldExtent wi pw dil kw cs
  if oh = 0 ∨ ow = 0 then none
  else
    let ox := p % ow
    let oy := p / ow % oh
    let img := p / (ow * oh)
    let kwi := kk / c % kw
    let khi := kk / (c * kw)
    let y : Int := (oy * cs : Int) - ph + khi * dil
    let x : Int := (ox * cs : Int) - pw + kwi * dil
    if tDim d 3 ≤ img ∨ kh ≤ khi ∨ y < 0 ∨ (hh : Int) ≤ y ∨ x < 0 ∨ (wi : Int) ≤ x then none
    else some [kk % c, x.toNat, y.toNat, img]

/-- The index of element (m, k) of A (12 R285, R287). -/
def mmaIndexA (b d : List Word) (m k : Nat) : Option (List Nat) :=
  let kk := (wordAt b 5).toNat + k
  if mAvirt b then unfoldIndex d ((wordAt b 8).toNat + m) kk else some [kk, (wordAt b 4).toNat + m]

/-- The index of element (k, n) of B (12 R285). -/
def mmaIndexB (b : List Word) (k n : Nat) : Option (List Nat) := some [(wordAt b 7).toNat + k, (wordAt b 6).toNat + n]

/-- One element of a chunk's result, rounded once (12 R286). -/
def chunkElem (acc : Num) (a b : List Num) : Word :=
  BitVec.ofNat 32 (F32.encode .rne (exactSum (acc :: a.zipWith Num.mul b)))

/-- The tile after a chunk: rows of A and columns of B by k (12 R286). -/
def chunkTile (x : Tile) (fresh : Bool) (as bs : List (List Num)) : Tile :=
  (List.range as.length).foldl (fun x m =>
    (List.range bs.length).foldl (fun (x : Tile) n =>
      let acc := if fresh then Num.fin true 0 0 else F32.decode (x.elem m n).toNat
      x.setElem m n (chunkElem acc (as.getD m []) (bs.getD n []))) x) x

/-- The chunk of an MMA at its cursor; a command whose cursor stands at K completes (12 R286, R289). -/
def State.mmaStep (s : State) (gid t : Nat) : State :=
  match Tab.find? (s.group gid).mcmds t with
  | none => s
  | some c =>
    let b := c.blk
    let ch := mmaChunk (mAtype b) (mBtype b)
    if c.drain || c.parked || !s.resident gid then s
    else if mK b ≤ c.cur ∨ ch = 0 then s.completeCmd gid t c
    else
      let ta := c.descs.headD []
      let tb := c.descs.getD 1 []
      let ks := (List.range ch).map (c.cur + ·)
      let r := (eMap (fun m s => eMap (fun k s => s.operand gid ta (mAscale b) (mmaIndexA b ta m k)) ks s)
          (List.range (mRows b)) s).bind fun as s =>
        (eMap (fun n s => eMap (fun k s => s.operand gid tb (mBscale b) (mmaIndexB b k n)) ks s)
          (List.range (mCols b)) s).bind fun bs s => .ok (as, bs) s
      match r with
      | .ok (as, bs) s =>
        let g := s.group gid
        let x := chunkTile (g.tile t) (!mAcc b && c.cur = 0) as bs
        let c := { c with cur := c.cur + ch }
        let s := s.setGroup gid { g with tiles := Tab.put g.tiles t x, mcmds := Tab.put g.mcmds t c }
        let s := s.engWord gid (c.block + 12) (BitVec.ofNat 32 c.cur) 3
        if mK b ≤ c.cur then s.completeCmd gid t c else s
      | r => cmdFault gid t c r

/-- MMA_CHUNK (12 R286). -/
def execMmaChunk (g t : Nat) (s : State) : Host.Outcome State Fault Refusal := .next (s.tick.mmaStep g t)

/-- The pattern MDRAIN writes for column n of a row (12 R293; 03 R90). -/
def drainElem (b : List Word) (w : DWord) (n : Nat) (x : Word) : Nat :=
  let y := match F32.decode x.toNat with
    | .fin neg m e => Num.fin neg m (e + dOsc b)
    | v => v
  let r := rndOf (dRnd b) (srBits w (n % 64) (if n < 64 then 0 else 1))
  ((tyOf (dFmt b)).encode r y).toNat

/-- The amax of a row: the largest pattern without its sign (12 R294). -/
def rowAmax (x : Tile) (m cols : Nat) (a : Word) : Word :=
  (List.range cols).foldl (fun (a : Word) n =>
    let v := x.elem m n &&& 0x7FFFFFFF#32
    if a.toNat < v.toNat then v else a) a

/-- The writes of an MDRAIN perform at device scope; its amax is merged into its word, once, after the last row; then the command
completes (12 R293, R294). -/
def State.amaxMerge (s : State) (gid t : Nat) (c : MCmd) : State :=
  let s := s.wbPath (s.group gid).core 3
  if !dAmax c.blk || !c.begun then s.completeCmd gid t c
  else
    let va := dAmaxVa c.blk
    let p := (s.group gid).engine
    let r : EAns Unit := (s.engPage p 3 va).bind fun x s =>
      if s.poisonedIn x.key 4 then .fault cPOISON va s
      else
        let s := (s.touch (Config.clusterOf p.core) x 3).directWrite gid
        .ok () (s.rmw p.core x 2 4 fun old => max old c.amax.toNat).2
    match r with
    | .ok _ s => s.completeCmd gid t c
    | r => cmdFault gid t c r

/-- The row of an MDRAIN at its cursor; after the last one the amax is merged (12 R293, R294). -/
def State.drainStep (s : State) (gid t : Nat) : State :=
  match Tab.find? (s.group gid).mcmds t with
  | none => s
  | some c =>
    let b := c.blk
    if !c.drain || c.parked || !s.resident gid then s
    else if mRows b ≤ c.cur then s.amaxMerge gid t c
    else
      let d := c.descs.headD []
      let m := c.cur
      let x := (s.group gid).tile t
      let w := srWord (c.s0 + BitVec.ofNat 64 m * 0x9E3779B97F4A7C15#64)
      let ix := fun n => [(wordAt b 3).toNat + n, (wordAt b 2).toNat + m]
      match eMap (fun n s => s.elemWrite gid 3 d (ix n) (drainElem b w n (x.elem m n))) (List.range (mCols b)) s with
      | .ok _ s =>
        let c := { c with cur := m + 1, begun := true, amax := rowAmax x m (mCols b) c.amax }
        let g := s.group gid
        let s := s.setGroup gid { g with mcmds := Tab.put g.mcmds t c }
        let s := s.engWord gid (c.block + 28) (BitVec.ofNat 32 c.cur) 3
        if mRows b ≤ c.cur then s.amaxMerge gid t c else s
      | r => cmdFault gid t c r

/-- MDRAIN_ROW (12 R293). -/
def execMdrainRow (g t : Nat) (s : State) : Host.Outcome State Fault Refusal := .next (s.tick.drainStep g t)

/-! ## The meanings, as exec runs them -/

/-- MZERO as a word of the clause in progress (R279). -/
def execMzero (t : BitVec 3) (s : State) : Host.Outcome State Fault Refusal := s.runWord (.mzero t) (perfMzero t)

/-- TKGIVE as a word of the clause in progress (R279). -/
def execTkgive (t : BitVec 3) (s : State) : Host.Outcome State Fault Refusal := s.runWord (.tkgive t) (perfTkgive t)

/-- TKTAKE as a word of the clause in progress (R279). -/
def execTktake (t : BitVec 3) (s : State) : Host.Outcome State Fault Refusal := s.runWord (.tktake t) (perfTktake t)

/-- ACCRD as a word of the clause in progress (R280). -/
def execAccrd (d : BitVec 7) (r : BitVec 7) (h : BitVec 1) (t : BitVec 3) (s : State) :
    Host.Outcome State Fault Refusal := s.runWord (.accrd d r h t) (perfAccrd d r h t)

/-- ACCWR as a word of the clause in progress (R280). -/
def execAccwr (s : BitVec 7) (r : BitVec 7) (h : BitVec 1) (t : BitVec 3) (σ : State) :
    Host.Outcome State Fault Refusal := σ.runWord (.accwr s r h t) (perfAccwr s r h t)

/-- MSTAT as a word of the clause in progress (R281). -/
def execMstat (d : BitVec 7) (s : State) : Host.Outcome State Fault Refusal := s.runWord (.mstat d) (perfMstat d)

/-- MMA as a word of the clause in progress (R286). -/
def execMma (a : BitVec 7) (s : State) : Host.Outcome State Fault Refusal := s.runWord (.mma a) (perfMma a)

/-- MDRAIN as a word of the clause in progress (R293). -/
def execMdrain (a : BitVec 7) (s : State) : Host.Outcome State Fault Refusal := s.runWord (.mdrain a) (perfMdrain a)

end Sys2Proof.Machine
end

