-- ==== Sys2Proof/Machine/Special.lean ====
section
/-!
DEFINITION. The fourteen functions of the special-function queue (03 R97, R98). A value that is exact is given exactly; every
other result is irrational, and is computed in fixed point with 640 fraction bits and rounded once, to nearest even. No f32 or
f16 argument brings an irrational result nearer than that to a point where rounding turns (DEDUCED, log 21).
-/
namespace Sys2Proof.Machine

/-- Fraction bits of the fixed-point values below. -/
def fxP : Nat := 640

/-- One in fixed point. -/
def fxOne : Int := 2 ^ fxP

/-- Product of two fixed-point values. -/
def fxMul (a b : Int) : Int := a * b / fxOne

/-- Sum of a series from a term on: next n t is the term after t; it ends at a zero term. -/
def fxSeries (next : Nat → Int → Int) : Nat → Nat → Int → Int → Int
  | 0, _, _, s => s
  | fuel + 1, n, t, s => if t = 0 then s else fxSeries next fuel (n + 1) (next n t) (s + t)

/-- The inverse hyperbolic tangent of t. -/
def fxAtanh (t : Int) : Int :=
  let t2 := fxMul t t
  let rec go : Nat → Nat → Int → Int → Int
    | 0, _, _, s => s
    | fuel + 1, n, p, s => if p = 0 then s else go fuel (n + 1) (fxMul p t2) (s + p / ((2 * n + 1 : Nat) : Int))
  go 1000 0 t 0

/-- The inverse tangent of 1 / k. -/
def fxAcot (k : Nat) : Int :=
  let rec go : Nat → Nat → Int → Int → Int
    | 0, _, _, s => s
    | fuel + 1, n, p, s =>
      if p = 0 then s
      else go fuel (n + 1) (p / ((k * k : Nat) : Int))
        (if n % 2 = 0 then s + p / ((2 * n + 1 : Nat) : Int) else s - p / ((2 * n + 1 : Nat) : Int))
  go 1000 0 (fxOne / k) 0

/-- ln 2 and π. -/
def fxLn2 : Int := 2 * fxAtanh (fxOne / 3)
def fxPi : Int := 16 * fxAcot 5 - 4 * fxAcot 239

/-- The exponential of x: a mantissa in fixed point and a power of two. -/
def fxExp (x : Int) : Int × Int :=
  let n := x / fxLn2
  let r := x - n * fxLn2
  (fxSeries (fun k t => fxMul t r / ((k + 1 : Nat) : Int)) 1000 0 fxOne 0, n)

/-- A pair of mantissa and power as one fixed-point value. -/
def fxShift (p : Int × Int) : Int := if 0 ≤ p.2 then p.1 * 2 ^ p.2.toNat else p.1 / 2 ^ (-p.2).toNat

/-- sin of π t, for t between 0 and 1/2. -/
def fxSinPi (t : Int) : Int :=
  let y := fxMul fxPi t
  let y2 := fxMul y y
  fxSeries (fun k u => -(fxMul u y2 / (((2 * k + 2) * (2 * k + 3) : Nat) : Int))) 1000 0 y 0

/-- The sum of z^(2n+1) · c^n / (2n+1)!!, terms all of z's sign. -/
def fxOdd (z c2 : Int) : Int := fxSeries (fun k t => fxMul t c2 / ((2 * k + 3 : Nat) : Int)) 2000 0 z 0

/-- The square root of a positive integer ratio a / b in fixed point. -/
def fxSqrt (a b : Int) : Int := (isqrt ((a * fxOne * fxOne / b).toNat) : Int)

/-- erf z for z between 0 and 8. -/
def fxErf (z : Int) : Int :=
  let s := fxOdd z (2 * fxMul z z)
  let e := fxShift (fxExp (-(fxMul z z)))
  2 * fxMul e s * fxOne / fxSqrt fxPi fxOne

/-- The standard normal distribution function at z, of magnitude below 16. -/
def fxPhi (z : Int) : Int :=
  let s := fxOdd z (fxMul z z)
  let e := fxShift (fxExp (-(fxMul z z) / 2))
  fxOne / 2 + fxMul e s * fxOne / fxSqrt (2 * fxPi) fxOne

/-- A finite argument as a fixed-point value, exact for f32 and f16. -/
def fxOf (neg : Bool) (m : Nat) (e : Int) : Int :=
  let k := e + fxP
  let v : Nat := if 0 ≤ k then m * 2 ^ k.toNat else m / 2 ^ (-k).toNat
  if neg then -(v : Int) else v

/-- The same, held between two whole numbers: beyond them the function has settled. -/
def fxHeld (neg : Bool) (m : Nat) (e : Int) (lim : Nat) : Int :=
  if 0 ≤ e ∧ 10 < e.toNat ∧ m ≠ 0 then (if neg then -((lim : Int) * fxOne) else lim * fxOne)
  else max (-((lim : Int) * fxOne)) (min (lim * fxOne) (fxOf neg m e))

/-- A fixed-point result times 2^k, rounded. -/
def Fmt.ofFx (f : Fmt) (v : Int) (k : Int) : Nat := f.round .rne (decide (v < 0)) v.natAbs (k - fxP)

/-- The natural logarithm of a positive m · 2^e: the fraction is brought between 3/4 and 3/2. -/
def fxLog (m : Nat) (e : Int) : Int :=
  let k := m.log2 + (if 3 * 2 ^ m.log2 ≤ 2 * m then 1 else 0)
  let num : Int := (m : Int) - 2 ^ k
  let den : Int := (m : Int) + 2 ^ k
  2 * fxAtanh (num * fxOne / den) + (e + k) * fxLn2

/-- Whether m is a power of two. -/
def isPow2 (m : Nat) : Bool := decide (m ≠ 0) && decide (2 ^ m.log2 = m)

/-- A signed zero, one, or NaN of a format. -/
def Fmt.zero (f : Fmt) (neg : Bool) : Nat := if neg then 2 ^ f.top else 0
def Fmt.one (f : Fmt) (neg : Bool) : Nat := f.round .rne neg 1 0

/-- Twice the argument modulo 4, as quarters of a period: the integer n with x = n / 2, or none (03 R97). -/
def halves (m : Nat) (e : Int) : Option Nat :=
  if 0 ≤ e + 1 then some (m * 2 ^ (e + 1).toNat)
  else if m % 2 ^ (-(e + 1)).toNat = 0 then some (m / 2 ^ (-(e + 1)).toNat) else none

/-- sin(πx), with x = (-1)^neg · m · 2^e not zero (03 R97). -/
def sinPi (f : Fmt) (neg : Bool) (m : Nat) (e : Int) : Nat :=
  match halves m e with
  | some n => if n % 2 = 0 then f.zero neg else f.one (neg != decide (n % 4 = 3))
  | none =>
    let t := fxOf false m e % (2 * fxOne)
    let (s, u) := if t < fxOne then (neg, t) else (!neg, t - fxOne)
    let u := if fxOne < 2 * u then fxOne - u else u
    let v := fxSinPi u
    f.ofFx (if s then -v else v) 0

/-- cos(πx) = sin(π(1/2 - t)) for t between 0 and 1 (03 R97). -/
def cosPi (f : Fmt) (m : Nat) (e : Int) : Nat :=
  match halves m e with
  | some n => if n % 2 = 1 then f.zero false else f.one (n % 4 = 2)
  | none =>
    let t := fxOf false m e % (2 * fxOne)
    let t := if t < fxOne then t else 2 * fxOne - t
    let u := fxOne / 2 - t
    f.ofFx (if u < 0 then -(fxSinPi (-u)) else fxSinPi u) 0

/-- The value of a function at a finite argument that is not zero (03 R97). -/
def specialFin (f : Fmt) (fn : Nat) (neg : Bool) (m : Nat) (e : Int) : Nat :=
  let p := pow2Rat e
  match fn with
  | 0 => f.ofRat neg p.2 (m * p.1)
  | 1 => if neg then f.cnan else f.ofRoot p.2 (m * p.1)
  | 2 => if neg then f.cnan else f.ofRoot (m * p.1) p.2
  | 3 =>
    if 0 ≤ e ∨ m % 2 ^ (-e).toNat = 0 then
      let n : Nat := if 0 ≤ e then m * 2 ^ (min 20 e.toNat) else m / 2 ^ (-e).toNat
      let n := min n 400
      f.round .rne false 1 (if neg then -(n : Int) else n)
    else
      let r := fxExp (fxMul (fxHeld neg m e 400) fxLn2)
      f.ofFx r.1 r.2
  | 4 =>
    if neg then f.cnan
    else if isPow2 m then
      let k := e + m.log2
      if k = 0 then 0 else f.round .rne (decide (k < 0)) k.natAbs 0
    else f.ofFx (fxLog m e * fxOne / fxLn2) 0
  | 5 => sinPi f neg m e
  | 6 => cosPi f m e
  | 7 =>
    let y := fxShift (fxExp (2 * fxHeld false m e 40))
    let v := (y - fxOne) * fxOne / (y + fxOne)
    f.ofFx (if neg then -v else v) 0
  | 8 =>
    let y := fxShift (fxExp (-(fxHeld neg m e 400)))
    f.ofRat false fxOne.toNat (y + fxOne).toNat
  | 9 =>
    let v := fxErf (fxHeld false m e 8)
    f.ofFx (if neg then -v else v) 0
  | 10 =>
    let r := fxExp (fxHeld neg m e 400)
    f.ofFx r.1 r.2
  | 11 =>
    if neg then f.cnan
    else if m = 2 ^ m.log2 ∧ e + m.log2 = 0 then 0 else f.ofFx (fxLog m e) 0
  | 12 =>
    let z := fxHeld neg m e 15
    if z ≤ -(15 * fxOne) then f.zero true
    else if 15 * fxOne ≤ z then f.round .rne false m e
    else f.ofFx (if neg then -((m : Int) * fxPhi z) else m * fxPhi z) e
  | 13 =>
    let y := fxShift (fxExp (-(fxHeld neg m e 400)))
    f.ofRat neg (m * p.1 * fxOne.toNat) (p.2 * (y + fxOne).toNat)
  | _ => f.cnan

/-- The values at -Inf, -0, +0 and +Inf (03 R97). -/
def specialEdge (f : Fmt) (fn : Nat) : List Nat :=
  let z := f.zero false
  let nz := f.zero true
  let o := f.one false
  let no := f.one true
  let h := f.round .rne false 1 (-1)
  let i := f.infPat false
  let ni := f.infPat true
  let q := f.cnan
  match fn with
  | 0 => [nz, ni, i, z]
  | 1 => [q, ni, i, z]
  | 2 => [q, nz, z, i]
  | 3 | 10 => [z, o, o, i]
  | 4 | 11 => [q, ni, ni, i]
  | 5 => [q, nz, z, q]
  | 6 => [q, o, o, q]
  | 7 | 9 => [no, nz, z, o]
  | 8 => [z, h, h, o]
  | 12 | 13 => [nz, nz, z, i]
  | _ => [q, q, q, q]

/-- A function of the special-function queue at a pattern (03 R97). -/
def special (f : Fmt) (fn x : Nat) : Nat :=
  let edge := fun k => (specialEdge f fn).getD k f.cnan
  match f.decode x with
  | .nan _ => f.cnan
  | .inf neg => edge (if neg then 0 else 3)
  | .fin neg m e => if m = 0 then edge (if neg then 1 else 2) else specialFin f fn neg m e

/-- FN applied to a word: f32, or the two f16 elements when FN[4] is set (03 R97, R98). -/
def specialWord (fn : Nat) (x : Word) : Word :=
  if fn < 16 then BitVec.ofNat 32 (special F32 fn x.toNat)
  else BitVec.ofNat 32 (special F16 (fn - 16) (x.toNat % 65536) + 65536 * special F16 (fn - 16) (x.toNat / 65536))

end Sys2Proof.Machine
end

