-- ==== Sys2Proof/Machine/Sfq.lean ====
section
/-!
DEFINITION. The special-function queue: SFI, the arrival of its result, SFWAIT and SFPOLL (12 R296 to R301).
-/
namespace Sys2Proof.Machine

/-- A token of the current bundle. -/
def Bundle.token (b : Bundle) (z : Nat) : Token := Tab.get {} b.toks z

/-- The effect of SFI: its token becomes pending with the operand read; with EXEC empty the result has arrived (12 R297). -/
def perfSfi (z : BitVec 3) (d a : BitVec 7) (f : BitVec 5) (s : State) : Res :=
  if (s.bun.token z.toNat).pending then .trap { cause := cTOKEN, info := BitVec.ofNat 32 (z.toNat * 16 + 3 * 128) }
  else
    let v := s.read a
    match s.reserve (.sfi z d a f) [d.toNat] (sfiUniform s.grp.w v s.exec0) with
    | .error e => e
    | .ok s =>
      let t : Token := { pending := true, dest := d.toNat, fn := f.toNat, opnd := v, exec := s.exec0,
                         written := s.exec0 = 0, clause := s.str.clause.id }
      let b := s.bun
      .done (s.setBun { b with toks := Tab.put b.toks z.toNat t })

/-- What an SFI writes: its function in every lane, computed once where it is uniform (03 R97 to R99). -/
def Token.result (t : Token) (w : Nat) : Val :=
  match t.opnd with
  | .u x => if t.exec = onesMask w then .u (specialWord t.fn x) else .g (List.replicate w (specialWord t.fn x))
  | v => .g ((List.range w).map fun i => if t.exec.getLsbD i then specialWord t.fn (v.lane i) else 0)

/-- The result of a token arrives: written to its destination in the lanes of EXEC at issue (04 R114, 12 R297). -/
def State.sfiArrive (s : State) (g b z : Nat) : State :=
  let cur := s.cur
  let s := { s with cur := { gid := g, bid := b } }
  let bun := s.bun
  let t := bun.token z
  if !t.pending || t.written then { s with cur := cur }
  else
    let w := s.grp.w
    let x := mergeVal t.exec w (s.readWord t.dest 0) (t.result w)
    let poison := clearRegPoison bun.poison t.dest t.exec
    let toks := Tab.put bun.toks z { t with written := true }
    let bun' := if t.dest < 0x60 then { bun with v := Tab.put bun.v t.dest (.val x), poison := poison, toks := toks }
      else { bun with o := Tab.put bun.o (t.dest - 0x60) (x.lanes w), poison := poison, toks := toks }
    { (s.setBun bun').freeSlots bun with cur := cur }

/-- SFI_RESULT (12 R297). -/
def execSfiResult (g b z : Nat) (s : State) : Host.Outcome State Fault Refusal := .next (s.tick.sfiArrive g b z)

/-- Tokens that a mask names and that are pending. -/
def Bundle.named (b : Bundle) (m : Nat) : List (Nat × Token) := b.toks.filter fun t => t.2.pending && m.testBit t.1

/-- The tokens a mask names are freed, and with them the marks of their destinations (12 R298). -/
def State.freeTokens (s : State) (m : Nat) : State :=
  let b := s.bun
  s.setBun { b with toks := b.toks.filter fun t => !(t.2.pending && m.testBit t.1) }

/-- The effect of SFWAIT (12 R298). -/
def perfSfwait (m : BitVec 8) (s : State) : Res :=
  if (s.bun.named m.toNat).all fun t => t.2.written then .done (s.freeTokens m.toNat) else .wait (.tokens m.toNat) s

/-- The effect of SFPOLL: every bit of the mask register, whatever EXEC holds (12 R299). -/
def perfSfpoll (k : BitVec 4) (m : BitVec 8) (s : State) : Res :=
  .done (s.writeK k.toNat (if (s.bun.named m.toNat).all fun t => t.2.written then onesMask 64 else 0))

/-! ## The meanings, as exec runs them -/

/-- SFI as a word of the clause in progress (R297). -/
def execSfi (z : BitVec 3) (d : BitVec 7) (a : BitVec 7) (f : BitVec 5) (s : State) :
    Host.Outcome State Fault Refusal := s.runWord (.sfi z d a f) (perfSfi z d a f)

/-- SFWAIT as a word of the clause in progress (R298). -/
def execSfwait (m : BitVec 8) (s : State) : Host.Outcome State Fault Refusal := s.runWord (.sfwait m) (perfSfwait m)

/-- SFPOLL as a word of the clause in progress (R299). -/
def execSfpoll (k : BitVec 4) (m : BitVec 8) (s : State) :
    Host.Outcome State Fault Refusal := s.runWord (.sfpoll k m) (perfSfpoll k m)

end Sys2Proof.Machine
end

