-- ==== Sys2Proof/Machine/Walk.lean ====
section
/-!
DEFINITION. TIDSET, the pattern of the affine address engine and its walks, and QSTAT (11 R256 to R263, R271).
-/
namespace Sys2Proof.Machine

/-- The effect of TIDSET: the STE path reads the descriptor at device scope, which is checked and written into the table (11 R258, R259). -/
def perfTidset (a : BitVec 7) (t : BitVec 8) (s : State) : Res :=
  let va := pairLane (s.readN a 2) 0
  match s.memAcc s.party va 64 1 [0] with
  | .bad c => .trap { cause := c, addr := va }
  | .miss => .park 2 [{ vpn := vpnOf va, acc := 1, va := va }]
  | .ok (.scr _) => .trap { cause := cKIND, addr := va }
  | .ok (.mem x) =>
    let s' := (s.touch s.cluster x 1).wbPath s.grp.core 2
    if s'.poisonedIn x.key 64 then .trap { cause := cPOISON, addr := va }
    else
      let d := s'.homeWords x.key 16
      match tensorBad d with
      | some w => .trap { cause := cPROT, info := BitVec.ofNat 32 (w * 4096), addr := va }
      | none => .done ((s'.backInv x.key 64).mapGraph fun g => { g with tids := Tab.put g.tids t.toNat d })

/-- The effect of AGDIM (11 R261). -/
def perfAgdim (c v : BitVec 7) (j : BitVec 2) (s : State) : Res :=
  let b := s.bun
  let e := (((s.read c).lane 0).toNat, (s.read v).lane 0)
  .done (s.setBun { b with pat := { b.pat with cs := b.pat.cs.set j.toNat e } })

/-- The effect of AGBASE (11 R261). -/
def perfAgbase (l a : BitVec 7) (s : State) : Res :=
  let b := s.bun
  let n := ((s.read l).lane 0).toNat
  .done (s.setBun { b with pat := { b.pat with base := pairLane (s.readN a 2) 0, l := if n = 0 then s.grp.w else min n s.grp.w } })

/-- Start a walk; a fifth one stalls. While the clause is still being checked its own walks have not started (11 R262). -/
def State.startWalk (s : State) (store : Bool) (q v : BitVec 7) (z : BitVec 2) : Res :=
  let b := s.bun
  let id := s.str.clause.id
  let busy := if id = 0 then (b.walks.filter fun w => w.clause ≠ 0).length else b.walks.length
  if 4 ≤ busy then .stall .room
  else
    let w : Walk := { pat := b.pat, store := store, n := 2 ^ z.toNat, q := qNum q.toNat, ls := (s.read v).lane 0,
                      point := 0, acc := s.cur.acc, clause := id, handler := s.str.handler }
    .done (s.setBun { b with walks := b.walks ++ [w] })

/-- The effects of AGLD and AGST (11 R262). -/
def perfAgld (q v : BitVec 7) (z : BitVec 2) (s : State) : Res := s.startWalk false q v z
def perfAgst (q v : BitVec 7) (z : BitVec 2) (s : State) : Res := s.startWalk true q v z

/-- The effect of QSTAT (11 R263). -/
def perfQstat (d : BitVec 7) (q : BitVec 4) (s : State) : Res :=
  let b := s.bun
  let x := b.queue q.toNat
  let o := b.stream (!s.cur.acc)
  let orphan := if o.present && o.ended then 1 else 0
  let walk := if b.walks.any fun w => w.q = q.toNat then 1 else 0
  let hpop := x.heldPops false + x.heldPops true
  let hpush := x.heldX.length + x.heldA.length
  .done (s.writeAll d.toNat 0 (BitVec.ofNat 32 (orphan * 1024 + walk * 512 + hpop * 64 + hpush * 8 + x.avail.length)))

/-! ## Walks at work -/

/-- Points of a pattern (11 R262). -/
def Pattern.points (p : Pattern) : Nat := p.cs.foldl (fun a c => a * c.1) 1

/-- The offset of a point, dimension 0 fastest. -/
def pointOff : List (Nat × Word) → Nat → DWord
  | [], _ => 0
  | (c, v) :: t, n => BitVec.ofNat 64 (n % c) * v.signExtend 64 + pointOff t (n / c)

/-- The address of a lane at the point of a walk (11 R262). -/
def Walk.laneVa (w : Walk) (i : Nat) : DWord :=
  w.pat.base + pointOff w.pat.cs w.point + BitVec.ofNat 64 i * w.ls.signExtend 64

/-- A lane of a walk: a plain access on a normal page; an aperture address traps with KIND (07 R164, 11 R262). -/
def State.walkAns (s : State) (p : Party) (va : DWord) (size : Nat) (store : Bool) : LaneAns :=
  if va.toNat % size ≠ 0 then .bad cALIGN va
  else if inAperture va then .bad cKIND va
  else s.globAns p va size (if store then 2 else 1) [0] 0

/-- Store the bytes of one lane of a walk; under CONTAIN the buffer commits first and the store is direct (07 R189). -/
def State.walkStore (s : State) (w : Walk) (l : MLoc) (bs : List Byte) : State :=
  let s := s.touchLoc l 2
  match l.loc with
  | .scr _ => s
  | .mem x => ((s.spillsFirst x.key bs.length).directWrite s.cur.gid).storeMem { s.cur with acc := w.acc } w.clause (16 + w.point) false x bs

/-- A walk of the current bundle replaced, or removed. -/
def State.setWalk (s : State) (k : Nat) (w : Option Walk) : State :=
  let b := s.bun
  match w with
  | some w => s.setBun { b with walks := b.walks.set k w }
  | none => s.setBun { b with walks := b.walks.eraseIdx k }

/-- The walk has visited its point: the next one follows, or the walk has ended (11 R262). -/
def State.walkNext (s : State) (k : Nat) (w : Walk) : State :=
  if w.pat.points ≤ w.point + 1 then s.setWalk k none else s.setWalk k (some { w with point := w.point + 1 })

/-- The walk ends with an engine trap at its stream; extra bits are those of TRAPINFO above the source (11 R256, R271). -/
def State.walkTrap (s : State) (k : Nat) (w : Walk) (cause extra : Nat) (addr : DWord) : State :=
  (s.setWalk k none).engTrap { gid := s.cur.gid, bid := s.cur.bid, acc := w.acc } [w.clause] cause (0x10 + w.q + extra) addr

/-- Whether something other than the stream of a walk and the walk itself can still push into its queue, or pop from it; the stream that
issued the walk does not count, though it runs (11 R256; DESIGN CHOICE, log 75). -/
def State.walkFed (s : State) (k : Nat) (w : Walk) : Bool :=
  let b := s.bun
  let o := b.stream (!w.acc)
  (o.present && !o.ended && !o.exiting) ||
    (List.range b.walks.length).any fun j => match b.walks[j]? with
      | some v => j ≠ k && v.q = w.q && v.store ≠ w.store
      | none => false

/-- The places of a walk's lanes at its point: the lowest lane that faults, else the pages not present. -/
def State.walkPlaces (s : State) (w : Walk) : Except Res (List (Nat × MLoc)) :=
  let p : Party := { core := s.grp.core, handler := w.handler, scr := s.grp.scrSize }
  gather ((List.range w.pat.l).map fun i => (i, s.walkAns p (w.laneVa i) (4 * w.n) w.store))

/-- The point of a load walk: its words are read and pushed, visible at once (11 R254, R262). -/
def State.walkLoad (s : State) (k : Nat) (w : Walk) (ls : List (Nat × MLoc)) : State :=
  let (r, s) := s.readLanes (4 * w.n) ls
  let word := fun (i j : Nat) => BitVec.ofNat 32 (leNat ((((Tab.find? r i).getD []).drop (4 * j)).take 4))
  let new := (List.range w.n).map fun j =>
    ({ val := .g ((List.range s.grp.w).map fun i => if i < w.pat.l then word i j else 0) } : QEnt)
  let b := s.bun
  let q := b.queue w.q
  (s.setBun (b.setQueue w.q { q with ents := q.ents ++ new })).walkNext k w

/-- The first n visible entries of a queue removed (11 R254). -/
def takeEnts : Nat → List QEnt → List QEnt
  | 0, t => t
  | _, [] => []
  | n + 1, e :: t => if e.pop.isNone then takeEnts n t else e :: takeEnts (n + 1) t

/-- The point of a store walk: entries are popped and their lanes stored (11 R262). -/
def State.walkSt (s : State) (k : Nat) (w : Walk) (ls : List (Nat × MLoc)) : State :=
  let b := s.bun
  let q := b.queue w.q
  let es := q.avail.take w.n
  let s := s.setBun (b.setQueue w.q { q with ents := takeEnts w.n q.ents })
  (ls.foldl (fun s l => s.walkStore w l.2 (es.flatMap fun v => leBytes 4 (v.lane l.1).toNat)) s).walkNext k w

/-- The next point of walk k of the current bundle. It waits for an earlier walk on its queue, for room or for entries; where
those can never come it ends with QUEUE, and with POISON where an entry it would store carries it (11 R256, R262, R271, 15 R350). -/
def State.walkStep (s : State) (k : Nat) : State :=
  let b := s.bun
  match b.walks[k]? with
  | none => s
  | some w =>
    let q := b.queue w.q
    if w.parked || !s.resident s.cur.gid || (b.walks.take k).any (fun v => v.q = w.q) then s
    else if w.pat.points ≤ w.point then s.setWalk k none
    else if (if w.store then decide (q.avail.length < w.n) else decide (q.room < w.n)) then
      if s.walkFed k w then s else s.walkTrap k w cQUEUE 512 0
    else if w.store && q.popBad w.n then s.walkTrap k w cPOISON 0 0
    else
      match s.walkPlaces w with
      | .ok ls => if w.store then s.walkSt k w ls else s.walkLoad k w ls
      | .error (.trap t) => s.walkTrap k w t.cause 0 t.addr
      | .error (.park path ms) =>
        (s.setWalk k (some { w with parked := true })).parkAccess (.walk s.cur.gid s.cur.bid w.q) s.grp.core path ms
      | .error _ => s

/-- WALK_POINT (11 R262). -/
def execWalkPoint (g b w : Nat) (s : State) : Host.Outcome State Fault Refusal :=
  let cur := s.cur
  let s := s.tick
  .next { { s with cur := { gid := g, bid := b, acc := true } }.walkStep w with cur := cur }

/-! ## The meanings, as exec runs them -/

/-- TIDSET as a word of the clause in progress (R258). -/
def execTidset (a : BitVec 7) (t : BitVec 8) (s : State) :
    Host.Outcome State Fault Refusal := s.runWord (.tidset a t) (perfTidset a t)

/-- AGDIM as a word of the clause in progress (R261). -/
def execAgdim (c : BitVec 7) (s : BitVec 7) (j : BitVec 2) (σ : State) :
    Host.Outcome State Fault Refusal := σ.runWord (.agdim c s j) (perfAgdim c s j)

/-- AGBASE as a word of the clause in progress (R261). -/
def execAgbase (l : BitVec 7) (a : BitVec 7) (s : State) :
    Host.Outcome State Fault Refusal := s.runWord (.agbase l a) (perfAgbase l a)

/-- AGLD as a word of the clause in progress (R262). -/
def execAgld (q : BitVec 7) (s : BitVec 7) (z : BitVec 2) (σ : State) :
    Host.Outcome State Fault Refusal := σ.runWord (.agld q s z) (perfAgld q s z)

/-- AGST as a word of the clause in progress (R262). -/
def execAgst (q : BitVec 7) (s : BitVec 7) (z : BitVec 2) (σ : State) :
    Host.Outcome State Fault Refusal := σ.runWord (.agst q s z) (perfAgst q s z)

/-- QSTAT as a word of the clause in progress (R263). -/
def execQstat (d : BitVec 7) (q : BitVec 4) (s : State) :
    Host.Outcome State Fault Refusal := s.runWord (.qstat d q) (perfQstat d q)

end Sys2Proof.Machine
end

