-- ==== Sys2Proof/Machine/Perform.lean ====
section
/-!
DEFINITION. The own effect of every instruction word, by constructor: what the dry run of a clause at issue performs (01 R46,
02 R64). An event is no word and has no effect of this kind.
-/
namespace Sys2Proof.Machine

/-- The own effect of an instruction word (02 R64); events are no words and change nothing here. -/
def perform (i : Instr) (s : State) : Res :=
  match i with
  | .iadd n m d a b => perfIadd n m d a b s
  | .isub n m d a b => perfIsub n m d a b s
  | .imul n d a b => perfImul n d a b s
  | .imulh n m d a b => perfImulh n m d a b s
  | .imac n d a b => perfImac n d a b s
  | .imin n m d a b => perfImin n m d a b s
  | .imax n m d a b => perfImax n m d a b s
  | .iadd64 n d a b => perfIadd64 n d a b s
  | .isub64 n d a b => perfIsub64 n d a b s
  | .and n d a b => perfAnd n d a b s
  | .or n d a b => perfOr n d a b s
  | .xor n d a b => perfXor n d a b s
  | .andn n d a b => perfAndn n d a b s
  | .shl n d a b => perfShl n d a b s
  | .shr n d a b => perfShr n d a b s
  | .sar n d a b => perfSar n d a b s
  | .rotl n d a b => perfRotl n d a b s
  | .bfx n m d a b => perfBfx n m d a b s
  | .bfi n d a b => perfBfi n d a b s
  | .popc n d a => perfPopc n d a s
  | .clz n d a => perfClz n d a s
  | .brev n d a => perfBrev n d a s
  | .sel n k d a b => perfSel n k d a b s
  | .mov n d a => perfMov n d a s
  | .fadd n m d a b => perfFadd n m d a b s
  | .fsub n m d a b => perfFsub n m d a b s
  | .fmul n m d a b => perfFmul n m d a b s
  | .ffma n m d a b => perfFfma n m d a b s
  | .ffms n m d a b => perfFfms n m d a b s
  | .fnma n m d a b => perfFnma n m d a b s
  | .fmin n m d a b => perfFmin n m d a b s
  | .fmax n m d a b => perfFmax n m d a b s
  | .icmpEq n m d a b => perfIcmpEq n m d a b s
  | .icmpNe n m d a b => perfIcmpNe n m d a b s
  | .icmpLt n m d a b => perfIcmpLt n m d a b s
  | .icmpLe n m d a b => perfIcmpLe n m d a b s
  | .icmpLtn n m d a b => perfIcmpLtn n m d a b s
  | .icmpLen n m d a b => perfIcmpLen n m d a b s
  | .fcmpEq n m d a b => perfFcmpEq n m d a b s
  | .fcmpNe n m d a b => perfFcmpNe n m d a b s
  | .fcmpLt n m d a b => perfFcmpLt n m d a b s
  | .fcmpLe n m d a b => perfFcmpLe n m d a b s
  | .fcmpUn n m d a b => perfFcmpUn n m d a b s
  | .dcmpLt n m d a b => perfDcmpLt n m d a b s
  | .dcmpEq n m d a b => perfDcmpEq n m d a b s
  | .fabs n m d a => perfFabs n m d a s
  | .fneg n m d a => perfFneg n m d a s
  | .fclass n d a => perfFclass n d a s
  | .shflIdx n d a b => perfShflIdx n d a b s
  | .shflXor n d a b => perfShflXor n d a b s
  | .shflUp n d a b => perfShflUp n d a b s
  | .shflDn n d a b => perfShflDn n d a b s
  | .ballot n d a => perfBallot n d a s
  | .redadd n m d a b => perfRedadd n m d a b s
  | .redmm n m d a b => perfRedmm n m d a b s
  | .scan n m d a b => perfScan n m d a b s
  | .readlane n d a b => perfReadlane n d a b s
  | .shapeof n d a => perfShapeof n d a s
  | .shapegen n d a => perfShapegen n d a s
  | .movk n d a => perfMovk n d a s
  | .mov64 n d a => perfMov64 n d a s
  | .iaddi d a i => perfIaddi d a i s
  | .andi d a i => perfAndi d a i s
  | .ori d a i => perfOri d a i s
  | .xori d a i => perfXori d a i s
  | .shli d a i => perfShli d a i s
  | .shri d a i => perfShri d a i s
  | .sari d a i => perfSari d a i s
  | .imuli d a i => perfImuli d a i s
  | .icmpiEq d a i => perfIcmpiEq d a i s
  | .icmpiLt d a i => perfIcmpiLt d a i s
  | .icmpiLtn d a i => perfIcmpiLtn d a i s
  | .iaddi64 d a i => perfIaddi64 d a i s
  | .gets d i => perfGets d i s
  | .sets a i => perfSets a i s
  | .affine d a i => perfAffine d a i s
  | .ldiLo d i => perfLdiLo d i s
  | .ldiHi d i => perfLdiHi d i s
  | .ldiS d i => perfLdiS d i s
  | .ldif d i => perfLdif d i s
  | .cvt d a t s' r => perfCvt d a t s' r s
  | .kopAnd d a b => perfKopAnd d a b s
  | .kopOr d a b => perfKopOr d a b s
  | .kopXor d a b => perfKopXor d a b s
  | .kopAndn d a b => perfKopAndn d a b s
  | .kopNot d a => perfKopNot d a s
  | .kopMov d a => perfKopMov d a s
  | .kopSetall d => perfKopSetall d s
  | .kopClear d => perfKopClear d s
  | .kexecSave d => perfKexecSave d s
  | .kexecSet a => perfKexecSet a s
  | .kexecAnd a => perfKexecAnd a s
  | .kexecAndn a => perfKexecAndn a s
  | .kexecOr a => perfKexecOr a s
  | .bra o => perfBra o s
  | .brany k o => perfBrany k o s
  | .brall k o => perfBrall k o s
  | .brnone k o => perfBrnone k o s
  | .call o => perfCall o s
  | .reform k o => perfReform k o s
  | .barInit b c => perfBarInit b c s
  | .barArrive b => perfBarArrive b s
  | .barWait b => perfBarWait b s
  | .barSync b => perfBarSync b s
  | .jmpr a => perfJmpr a s
  | .trap c => perfTrap c s
  | .ldN8 o d a f => perfLdN8 o d a f s
  | .ldI8 o d a f => perfLdI8 o d a f s
  | .ldN16 o d a f => perfLdN16 o d a f s
  | .ldI16 o d a f => perfLdI16 o d a f s
  | .ld32 o d a f => perfLd32 o d a f s
  | .ld64 o d a f => perfLd64 o d a f s
  | .ld128 o d a f => perfLd128 o d a f s
  | .st8 o d a f => perfSt8 o d a f s
  | .st16 o d a f => perfSt16 o d a f s
  | .st32 o d a f => perfSt32 o d a f s
  | .st64 o d a f => perfSt64 o d a f s
  | .st128 o d a f => perfSt128 o d a f s
  | .ldp32 d a f => perfLdp32 d a f s
  | .ldp128 d a f => perfLdp128 d a f s
  | .stp32 d a f => perfStp32 d a f s
  | .stp128 d a f => perfStp128 d a f s
  | .atomAddI32 o s' d a b => perfAtomAddI32 o s' d a b s
  | .atomAddI64 o s' d a b => perfAtomAddI64 o s' d a b s
  | .atomMinI32 o s' d a b => perfAtomMinI32 o s' d a b s
  | .atomMaxI32 o s' d a b => perfAtomMaxI32 o s' d a b s
  | .atomMinN32 o s' d a b => perfAtomMinN32 o s' d a b s
  | .atomMaxN32 o s' d a b => perfAtomMaxN32 o s' d a b s
  | .atomAnd o s' d a b => perfAtomAnd o s' d a b s
  | .atomOr o s' d a b => perfAtomOr o s' d a b s
  | .atomXor o s' d a b => perfAtomXor o s' d a b s
  | .atomXchg o s' d a b => perfAtomXchg o s' d a b s
  | .atomCas o s' d a b => perfAtomCas o s' d a b s
  | .atomXchg64 o s' d a b => perfAtomXchg64 o s' d a b s
  | .fenceAcq s' => perfFenceAcq s' s
  | .fenceRel s' => perfFenceRel s' s
  | .fenceFull s' => perfFenceFull s' s
  | .xfence b a s' => perfXfence b a s' s
  | .spill s' r => perfSpill s' r s
  | .fill r s' => perfFill r s' s
  | .waita e a => perfWaita e a s
  | .wake n a => perfWake n a s
  | .waitp e a c => perfWaitp e a c s
  | .xadd d a s' => perfXadd d a s' s
  | .esample p i n => perfEsample p i n s
  | .eload q i n => perfEload q i n s
  | .edecay t n => perfEdecay t n s
  | .esweep n => perfEsweep n s
  | .eregion a n => perfEregion a n s
  | .prefetch a => perfPrefetch a s
  | .mma a => perfMma a s
  | .mdrain a => perfMdrain a s
  | .mzero t => perfMzero t s
  | .tkgive t => perfTkgive t s
  | .tktake t => perfTktake t s
  | .accrd d r h t => perfAccrd d r h t s
  | .accwr s' r h t => perfAccwr s' r h t s
  | .mstat d => perfMstat d s
  | .sfi z d a f => perfSfi z d a f s
  | .sfwait m => perfSfwait m s
  | .sfpoll k m => perfSfpoll k m s
  | .tidset a t => perfTidset a t s
  | .sopen a s' => perfSopen a s' s
  | .sgo s' => perfSgo s' s
  | .sslot c s' => perfSslot c s' s
  | .sstat d s' => perfSstat d s' s
  | .sclose s' => perfSclose s' s
  | .copy a s' => perfCopy a s' s
  | .sort a s' => perfSort a s' s
  | .bin a s' => perfBin a s' s
  | .agdim c s' j => perfAgdim c s' j s
  | .agbase l a => perfAgbase l a s
  | .agld q s' z => perfAgld q s' z s
  | .agst q s' z => perfAgst q s' z s
  | .qstat d q => perfQstat d q s
  | .coll a s' => perfColl a s' s
  | .camset a => perfCamset a s
  | .camgen d a => perfCamgen d a s
  | .bvhset a n => perfBvhset a n s
  | .trace d a m n => perfTrace d a m n s
  | .mltset a n => perfMltset a n s
  | .fragins a n => perfFragins a n s
  | .lpop d p n => perfLpop d p n s
  | .lresolve d p n => perfLresolve d p n s
  | .lclear p n => perfLclear p n s
  | .emit f h c => perfEmit f h c s
  | .cycles d => perfCycles d s
  | .kexecAll => perfKexecAll s
  | .ret => perfRet s
  | .nop => perfNop s
  | .gbar => perfGbar s
  | .yield => perfYield s
  | .exit => perfExit s
  | .acquire => perfAcquire s
  | .rte => perfRte s
  | .rteSkip => perfRteSkip s
  | .brk => perfBrk s
  | .ordenter => perfOrdenter s
  | .ordexit => perfOrdexit s
  | .fenceLocal => perfFenceLocal s
  | .commit => perfCommit s
  | .clauseIssue .. | .clauseCompletion .. | .sourcesRead .. | .estContributionApply .. | .overlayEviction ..
  | .sfiResult .. | .slotFill .. | .slotDrain .. | .walkPoint .. | .sortPass .. | .binCompletion .. | .mmaChunk ..
  | .mdrainRow .. | .traceCompletion .. | .freshBundleDraw .. | .reformageExpiry .. | .starvationPromotion ..
  | .waitaPoll .. | .acquireGrant .. | .groupAdmission .. | .binTimerExpiry .. | .groupSave .. | .groupRestore ..
  | .replyEntryWrite .. | .record .. | .bind .. | .replycfg .. | .load .. | .preempt .. | .withdraw .. | .attest ..
  | .restart .. | .replayall .. | .fail .. | .fbgetWrite .. | .fbstatClear .. | .replygetWrite .. | .rdropClear ..
  | .stalecntClear .. | .orderrClear .. | .lossesClear .. | .dropwrClear .. | .retriesClear ..
  | .hashDescriptorWrite .. | .registerWrite .. | .peerRequest .. | .flitReplay .. | .linkDown .. | .linkUp ..
  | .hostHdmAccess .. | .collTransfer .. | .timingDetectorFire .. | .correctedError .. | .bankMigrationChunk ..
  | .deviceReset .. | .lineEviction .. | .uncorrectableError .. | .hdmDecoderWrite .. | .staggerExpiry
  | .completionAck | .faultsaveExpiry | .deadlineExpiry | .hangDetection | .loadInstall | .tlbInvalidateRange
  | .tlbInvalidateAll | .hullTakeover | .hullFailure | .tlbInvalidationComplete => .done s

end Sys2Proof.Machine
end

