-- ==== Sys2Proof/Machine/Issue.lean ====
section
/-!
DEFINITION. CLAUSE_ISSUE: fetch, the checks of a clause in their order, region entry, hazards, the translations of all its
words before any performs, and the rise of its flags (01 R10 to R20, R46, 02 R64, 15 R332, R333, R337, R345, R359). The words
then perform one a step.
-/
namespace Sys2Proof.Machine

/-- A word with the operand fields cleared that must be 0x00 (01 R26, R37, R38). -/
def clearZeroFields (w : Word) : Word :=
  if bits w 31 30 = 0 then w &&& ~~~ 0x7F#32
  else if bits w 31 25 = 0x2C then w &&& ~~~ 0x3F800#32
  else if bits w 31 25 = 0x2D then w &&& ~~~ 0x1FC0000#32
  else w

/-- The instruction a word of a clause is, or the cause it traps with (01 R11, R46). A word that decodes to nothing traps with
ILLOPND where only an operand field that must be 0x00 stands against it (01 R26). -/
def State.wordOf (s : State) (cls : Class) (last : Bool) (w : Word) : Except Nat Instr :=
  if bits w 31 30 = 3 then .error cILLCLAUSE
  else
    match decode w with
    | some i =>
      (match s.checkWord cls last i with
       | some c => .error c
       | none => .ok i)
    | none =>
      match decode (clearZeroFields w) with
      | some i => if s.checkWord cls last i = some cILLINSTR then .error cILLINSTR else .error cILLOPND
      | none => .error cILLINSTR

/-- The state after a wait that has ended: tokens waited for have given their results, a section is entered or passed. -/
def State.afterWait (s : State) (w : WaitOn) : State :=
  match w with
  | .tokens mask => s.freeTokens mask
  | .sect => s.setGrp { s.grp with sect := if s.grp.sect = .held then .passed else .held }
  | _ => s

/-- The state as it stands for the word after i: ALU and CTL words are interlocked and take effect at once, a wait being taken
as ended; a word of another class leaves it (01 R15, R46). -/
def State.evolve (s : State) (cls : Class) (i : Instr) : State :=
  if longLatency cls then s
  else
    match s.around i (perform i) with
    | .done t => t
    | .wait w t => t.afterWait w
    | _ => s

/-- The state with the clause in progress at its word k, counted from 1. -/
def State.atWordOf (s : State) (k : Nat) : State :=
  let x := s.str
  s.setStr { x with clause := { x.clause with idx := k - 1 } }

/-- What the check of a clause's words answers. -/
inductive Scan where
  | ok (l : List (Word × Instr × Xlat))
  | trap (t : Trap)
  | park (va : DWord) (k : Nat)
  deriving DecidableEq, Repr

/-- Fetch, decode and check the words of a clause in order; t is the state as the words before leave it. Words before first
have performed already (01 R46, 15 R335). -/
def State.scan (s : State) (cls : Class) (pc : Word) (count first : Nat) : Nat → State → List (Word × Instr × Xlat) → Scan
  | 0, _, l => .ok l.reverse
  | m + 1, t, l =>
    let k := count - m
    match s.fetch pc k with
    | .trap e => .trap e
    | .miss va => .park va k
    | .word w x =>
      if k < first then
        State.scan s cls pc count first m t ((w, (decode w).getD .nop, x) :: l)
      else
        match t.wordOf cls (m = 0) w with
        | .error c => .trap { cause := c, info := BitVec.ofNat 32 k }
        | .ok i => State.scan s cls pc count first m (if m = 0 then t else t.evolve cls i) ((w, i, x) :: l)

/-- The first HAZARD among the words of a clause: against the marks that stand, and in a long-latency clause against those of
its own earlier words (01 R16). -/
def hazards (long : Bool) : Marks → List (Nat × Instr) → Option Trap
  | _, [] => none
  | m, (k, i) :: t =>
    match hazardOf m i with
    | some info => some { cause := cHAZARD, info := BitVec.ofNat 32 (info + k) }
    | none => hazards long (if long then m.add (marksOf i) else m) t

/-- What a dry run of a clause's words answers. -/
inductive Dry where
  | ok (pins : List Xlat)
  | stall (w : WaitOn)
  | trap (i : Instr) (t : Trap) (kept : List (Nat × Bool))
  | park (path : Nat) (ms : List Miss)
  deriving DecidableEq, Repr

/-- Perform the words of a clause on a copy of the state: the first trap, else every page that is not present, else the translations
found, which the words use when they run (02 R64, 15 R345). A word that stalls stalls the clause, whatever page an earlier word misses:
a clause parks only where all its words have been checked and none traps. A word that parks still pops its queues. A TRAP or BRK is
taken when its word runs. kept gathers the spills and refills made (04 R117). Where a word parks, those behind it are checked against
what stood before it, an estimator word behind an EREGION against the binding its slot had (DESIGN CHOICE, log 70). -/
def State.dry : State → List (Nat × Instr) → Option Nat → List Miss → List (Nat × Bool) → Dry
  | _, [], some p, ms, _ => .park p ms
  | s, [], none, _, _ => .ok (s.found.getD [])
  | s, (k, i) :: t, p, ms, kept =>
    let s := s.atWordOf k
    match s.around i (perform i) with
    | .done u => State.dry u t p ms (kept ++ s.slotMoves u i)
    | .wait w u => State.dry (u.afterWait w) t p ms (kept ++ s.slotMoves u i)
    | .stall w => .stall w
    | .trap e =>
      if e.cause = cTRAPI ∨ e.cause = cBREAK then State.dry s t p ms kept else .trap i (e.atWord k) kept
    | .cap e u => .trap i (e.atWord k) (kept ++ s.slotMoves u i)
    | .park q new => State.dry (s.doPops i) t (some (p.getD q)) (ms ++ new.map fun m => { m with word := k }) kept

/-- Words numbered from 1. -/
def numbered (l : List (Word × Instr × Xlat)) : List (Nat × Instr) := (List.range l.length).zipWith (fun k e => (k + 1, e.2.1)) l

/-- The clause issues: its flags rise and its marks stand; a clause taken again at a later word adds nothing, and takes up its
record where it still counts (01 R13, R15, 15 R335). An arrival made before the clause was left, at a barrier or GBAR, stands
(15 R353). The stream is then in the clause, with the translations its words have found. hx is the header's. -/
def State.enterClause (s : State) (h : Word) (hx : Xlat) (ws : List (Word × Instr × Xlat)) (pins : List Xlat) : State :=
  let s := (hx :: ws.map fun e => e.2.2).foldl (fun s x => (s.touch s.cluster x 4).backInv x.key 4) s
  let x := s.str
  let cls := hClass h
  let first := x.resumeAt
  let m := if longLatency cls then ws.foldl (fun (m : Marks) e => m.add (marksOf e.2.1)) {} else {}
  let plain := !longLatency cls && hSeta h = 15 && hSetb h = 15
  let (id, y) :=
    if first ≠ 0 then
      (match x.held with
       | some o => (o.id, { x with outst := x.outst ++ [o], held := none })
       | none => (0, x))
    else if plain then (0, x)
    else (x.nextId, x.issueOut h m)
  let again := first ≠ 0 && (x.heldGen.isSome || (match ws[first - 1]? with
    | some (_, .barSync b, _) => (Tab.find? x.barRec b.toNat).isSome
    | _ => false))
  let c : Clause := { header := h, words := ws.map (·.1), idx := first - 1, exec0 := x.exec, execP := x.exec, id := id,
                      arrived := again, gen := if again then x.heldGen.getD 0 else 0, pins := pins }
  let b := s.bun
  let b := { b with ready := s.clock, promoted := false, current := true }
  let y := { y with clause := c, wait := .nothing, heldGen := if first ≠ 0 then none else y.heldGen, yielded := hYld h }
  let s := (s.setBun (b.setStream s.cur.acc y)).reserveClause
  s.setGrp { s.grp with faultAt := if s.grp.anyParked then some s.clock else none }

/-- The HAZARD a clause meets: with marks that stand, or, freely, with those of words that have performed and may not have cleared
yet, which R17 leaves to timing; and the state after that choice (01 R15 to R17; log 20). -/
def State.clauseHazard (s : State) (cls : Class) (todo : List (Nat × Instr)) : Option Trap × State :=
  let x := s.str
  let free := if x.resumeAt = 0 then s else s.setStr { x with held := none }
  match hazards (longLatency cls) (free.standing s.cur) todo with
  | some t => (some t, s)
  | none =>
    match hazards (longLatency cls) (free.lateMarks s.cur) todo with
    | some t => (if Config.lateMark s.freeCtr then some t else none, { s with freeCtr := s.freeCtr + 1 })
    | none => (none, s)

/-- The clause at pc with its header decoded and its WAIT flags zero: its words are checked, then hazards, then its traps and
pages; else it issues (01 R46). -/
def State.issueWords (s : State) (h : Word) (hx : Xlat) : State :=
  let x := s.str
  let cls := hClass h
  let n := hCount h
  let first := max 1 x.resumeAt
  let c0 : Clause := { header := h, words := List.replicate n 0, idx := first - 1, exec0 := x.exec, execP := x.exec }
  let s0 := s.setStr { x with clause := c0 }
  match s0.scan cls x.pc n first n s0 [] with
  | .trap t => s.takeTrap t (some n)
  | .park va k =>
    ((s.parkAccess (.fetch s.cur) s.grp.core 6 [{ vpn := vpnOf va, acc := 4, word := k, va := va }]).setStr
      { x with wait := .parked }).noteParked
  | .ok ws =>
    let todo := (numbered ws).drop (first - 1)
    match s.clauseHazard cls todo with
    | (some t, s) => s.takeTrap t (some n)
    | (none, s) =>
      let s1 := (s.setStr { x with clause := { c0 with words := ws.map (·.1) } }).reserveClause
      match { s1 with found := some [] }.dry todo none [] [] with
      | .ok pins => s.enterClause h hx ws pins
      | .stall w => s.setStr { x with wait := w }
      | .trap i t kept =>
        let s := if t.cause = cSHAPECAP then s.keepMoves kept else if t.cause = cPOOL then s.noteBadFree t.addr else s
        s.wordTrap i t (some n)
      | .park path ms =>
        ((s.parkAccess (.clause s.cur) s.grp.core path ms).setStr { x with wait := .parked }).noteParked

/-- Whether the request in force affects a group (15 R351). -/
def State.affected (s : State) (g : Group) : Bool := s.preempt.names (nPrio (s.nodeRec g.node))

/-- The engine trap a stream takes first: the lowest context or tile (15 R332, R337). -/
def firstDue (l : List Trap) : Option Trap :=
  l.foldl (fun o t => match o with
    | none => some t
    | some u => if bits t.info 6 0 < bits u.info 6 0 then some t else some u) none

/-- Remove the first occurrence of a trap. -/
def dropTrap (t : Trap) : List Trap → List Trap
  | [] => []
  | u :: us => if u = t then us else u :: dropTrap t us

/-- COUNT of the header at a stream's pc, where one stands there. -/
def State.countAt (s : State) (pc : Word) : Option Nat :=
  match s.fetch pc 0 with
  | .word h _ => if headerOk s.cur.acc h then some (hCount h) else none
  | _ => none

/-- Of the engine traps that are due, those that p names: the first is taken before the clause at pc issues, outside handler mode; else
f goes on (15 R332, R337). -/
def State.dueFirst (s : State) (h : Word) (p : Trap → Bool) (f : State → State) : State :=
  let x := s.str
  match (if x.handler then none else firstDue (x.due.filter p)) with
  | some t => (s.setStr { x with due := dropTrap t x.due }).takeTrap t (some (hCount h))
  | none => f s

/-- A clause whose WAIT flags read zero: its region entry, the PREEMPT notice, an engine trap that is due, the stop of a save at its
entry, room for its flags, and then its words (01 R13, 15 R332, R333, R352, R353, R359). -/
def State.issueHeader (s : State) (h : Word) (hx : Xlat) : State :=
  let entry := hRgn h && s.str.resumeAt = 0
  let fresh := entry && !s.str.entryMade
  let s := if fresh then s.regionEntry 0 else s
  let x := s.str
  if fresh && x.pnote && !x.pnoted && !x.handler && s.affected s.grp then
    (s.setStr { x with pnoted := true }).takeTrap { cause := cPREEMPT } (some (hCount h))
  else
    s.dueFirst h (fun _ => true) fun s =>
      if entry && s.grp.saving.isSome && !x.mask then s.setStr { s.str with wait := .nothing }
      else if x.resumeAt = 0 && !x.flagRoom h then s.setStr { s.str with wait := .room }
      else s.issueWords h hx

/-- The current stream takes up its next clause: a trap whose entry is due, or the clause at pc. A stream that stood waiting on a flag which
a command would have cleared takes that command's trap at once, before any region entry (01 R10, R13, R14, 11 R271, 12 R290,
15 R332, R337, R345). -/
def State.issue (s : State) : State :=
  let x := s.str
  match x.pend with
  | some t => if x.busyForTrap then s else s.enterTrap t
  | none =>
    match s.fetch x.pc 0 with
    | .trap t => s.takeTrap t none
    | .miss va =>
      ((s.parkAccess (.fetch s.cur) s.grp.core 6 [{ vpn := vpnOf va, acc := 4, va := va }]).setStr
        { x with wait := .parked }).noteParked
    | .word h hx =>
      if !headerOk s.cur.acc h then s.takeTrap { cause := cILLCLAUSE } none
      else if x.resumeAt ≠ 0 then s.issueHeader h hx
      else
        s.dueFirst h (·.atOnce) fun s =>
          match x.waitFlag h with
          | some f => s.setStr { x with wait := .flags f }
          | none => s.issueHeader h hx

/-- Whether a stream stands at a save point (15 R352): before a clause whose region entry is made, at a wait, parked, or ended.
A stream whose MASK is set stands at none (15 R356). -/
def Stream.atSavePoint (x : Stream) (sect : Sect) : Bool :=
  !x.present || x.ended ||
    (!x.mask && x.pend.isNone &&
      (match x.wait with
       | .parked => true
       | .barrier _ | .waita _ _ | .waitp _ _ _ | .gbar | .acquire | .tokens _ => !x.clause.words.isEmpty
       | .sect => sect = .notyet
       | .flags _ | .tile _ => x.clause.words.isEmpty
       | _ => x.entryMade && x.clause.words.isEmpty))

/-- Whether a stream stands still for a save of its group (15 R353). -/
def State.stopped (s : State) (w : Who) : Bool :=
  let g := s.group w.gid
  g.saving.isSome && ((g.bundle w.bid).stream w.acc).atSavePoint g.sect

/-- Whether a stream can take up a clause: it stands between clauses in a group that runs, and is not parked. -/
def State.canIssue (s : State) (w : Who) : Bool :=
  let g := s.group w.gid
  let b := g.bundle w.bid
  let x := b.stream w.acc
  (g.st = .prologue || g.st = .full) && b.started && x.present && !x.ended && x.clause.words.isEmpty && x.wait ≠ .parked &&
    !s.stopped w

/-- CLAUSE_ISSUE (01 R14). -/
def execClauseIssue (g b : Nat) (acc : Bool) (s : State) : Host.Outcome State Fault Refusal :=
  let w : Who := { gid := g, bid := b, acc := acc }
  let s := s.tick
  if s.canIssue w then .next { s with cur := w }.issue else .next s

/-- CLAUSE_COMPLETION: a clause whose words have performed completes: its SPILL entries are written, its flags fall, its marks
clear (01 R13, R15, 07 R171). It has not completed while an engine or the estimator request buffer still works for it. -/
def State.clauseWorks (s : State) (w : Who) (c : Nat) : Bool :=
  let g := s.group w.gid
  let b := g.bundle w.bid
  let x := b.stream w.acc
  x.clause.id = c ||
    s.contribs.any (fun k => !k.sample && k.owner = w && k.clause = c) ||
    s.uoq.any (fun u => u.who = w && u.clause = c) ||
    s.sprouts.any (fun p => p.who = w && p.clause = c) ||
    (!w.acc && b.toks.any fun t => t.2.pending && !t.2.written && t.2.clause = c) ||
    b.walks.any (fun k => k.acc = w.acc && k.clause = c) ||
    (!w.acc && (b.traces.any (fun k => k.clause = c) || b.lists.any fun k => k.clause = c)) ||
    g.mcmds.any (fun m => m.2.bid = w.bid && m.2.acc = w.acc && m.2.clause = c) ||
    g.ctxs.any (fun k => (k.2.bid = w.bid && k.2.acc = w.acc && k.2.clause = c) || k.2.closers.contains (w, c))

/-- The completion of a clause. -/
def State.completeClause (s : State) (w : Who) (c : Nat) : State :=
  if c = 0 || s.clauseWorks w c || ((s.stream w).out? c).isNone then s
  else
    let s := (s.drainClause w.gid w.bid c).returnNodes w fun r => r.clause = c
    s.setStream w ((s.stream w).complete c)

/-- CLAUSE_COMPLETION (01 R13). -/
def execClauseCompletion (g b : Nat) (acc : Bool) (c : Nat) (s : State) : Host.Outcome State Fault Refusal :=
  .next (s.tick.completeClause { gid := g, bid := b, acc := acc } c)

/-- SOURCES_READ: the words of the clause have performed, and so have read their sources (01 R13). -/
def execSourcesRead (g b : Nat) (acc : Bool) (c : Nat) (s : State) : Host.Outcome State Fault Refusal :=
  let w : Who := { gid := g, bid := b, acc := acc }
  let x := s.stream w
  if x.clause.id = c then .next s.tick else .next (s.tick.setStream w (x.readSrcs c))

end Sys2Proof.Machine
end

