-- ==== Sys2Proof/Machine/Sched.lean ====
section
/-!
DEFINITION. Events of the schedulers, the bins and the memory hierarchy: fresh bundles, promotion, polls, ACQUIRE grants,
admission and its timers (04 R130, 05 R146 to R152, 07 R185), completions (18 R391), evictions, contributions and uncorrectable
errors (08 R198, R214, 09 R235, 15 R350).
-/
namespace Sys2Proof.Machine

/-! ## Bundles -/

/-- FRESH_BUNDLE_DRAW (04 R130). -/
def execFreshBundleDraw (g : Nat) (s : State) : Host.Outcome State Fault Refusal := .next (s.tick.drawFresh g)

/-- A bin whose age exceeds REFORMAGE qualifies for a draw (04 R130). -/
def State.ageBin (s : State) (gid : Nat) (key : Word) : State :=
  let g := s.group gid
  match g.rbins.find? fun b => b.1 = key with
  | some b =>
    if nReformAge (s.nodeRec g.node) < s.clock - binSince b ∧ !g.aged.contains key then
      s.setGroup gid { g with aged := key :: g.aged }
    else s
  | none => s

/-- REFORMAGE_EXPIRY (04 R130). -/
def execReformageExpiry (g key : Nat) (s : State) : Host.Outcome State Fault Refusal := .next (s.tick.ageBin g (BitVec.ofNat 32 key))

/-- A bundle ready for 4,096 clocks without issuing is promoted until it issues (05 R152). -/
def State.promote (s : State) (gid bid : Nat) : State :=
  let b := s.bundle gid bid
  if b.started ∧ b.isReady ∧ b.ready + 4096 ≤ s.clock ∧ !b.promoted then s.setBundle gid bid { b with promoted := true } else s

/-- STARVATION_PROMOTION (05 R152). -/
def execStarvationPromotion (g b : Nat) (s : State) : Host.Outcome State Fault Refusal := .next (s.tick.promote g b)

/-- WAITA_POLL (07 R185). -/
def execWaitaPoll (g b : Nat) (acc : Bool) (s : State) : Host.Outcome State Fault Refusal :=
  .next (s.tick.pollWaita { gid := g, bid := b, acc := acc })

/-! ## ACQUIRE -/

/-- The group on a core whose ACQUIRE request is the oldest, or the latest admitted of those that wait in ACQUIRE; a restore is no
admission there, so that the group of the highest id is the latest (05 R151; DESIGN CHOICE, log 72). -/
def State.oldestReq (s : State) (core : Nat) : Option (Nat × Group) :=
  (s.groups.filter fun e => e.2.core = core && e.2.acqReq.isSome && e.2.st = .prologue).foldl (fun o e => match o with
    | some f => if e.2.acqReq.getD 0 < f.2.acqReq.getD 0 then some e else o
    | none => some e) none
def State.latestReq (s : State) (core : Nat) : Option (Nat × Group) :=
  (s.groups.filter fun e => e.2.core = core && e.2.acqReq.isSome && e.2.st = .prologue).foldl (fun o e => match o with
    | some f => if f.1 < e.1 then some e else o
    | none => some e) none

/-- Resources of a core with one of its groups counted at its full allotment (05 R150). -/
def State.loadWith (s : State) (core gid : Nat) : Load :=
  s.groups.foldl (fun (l : Load) (e : Nat × Group) =>
    let g := e.2
    let r := s.nodeRec g.node
    if g.core ≠ core ∨ g.st = .saved ∨ g.st = .gone then l
    else if e.1 = gid then l.add (groupLoad r g.w g.nb (nScratch r) (nGslots r))
    else l.add (groupLoad r g.w g.nb g.scrSize (s.budget g))) {}

/-- The oldest request of a core is granted; where it cannot be met and every group there waits in ACQUIRE, the latest of them
is saved (05 R150, R151). -/
def State.grantAcquire (s : State) (core : Nat) : State :=
  match s.oldestReq core with
  | none => s
  | some (gid, g) =>
    if (s.loadWith core gid).fits then
      s.setGroup gid { g with st := .full, isFull := true, acqReq := none, scrSize := nScratch (s.nodeRec g.node) }
    else
      let here := s.groups.filter fun e => e.2.core = core && e.2.st ≠ .saved
      if here.all (fun e => e.2.acqReq.isSome) && here.all (fun e => e.2.saving.isNone) then
        (match s.latestReq core with
         | some (k, h) => s.setGroup k { h with saving := some 2 }
         | none => s)
      else s

/-- ACQUIRE_GRANT (05 R150, R151). -/
def execAcquireGrant (core : Nat) (s : State) : Host.Outcome State Fault Refusal := .next (s.tick.grantAcquire core)

/-! ## Admission -/

/-- GROUP_ADMISSION of the next group of launch g to a core (05 R149, R156). -/
def execGroupAdmission (g core : Nat) (s : State) : Host.Outcome State Fault Refusal := .next (s.tick.admission g core)

/-- The intervals of STAGGER that have run out (05 R149). -/
def State.staggerEnd (s : State) : State :=
  s.mapGraph fun g => { g with lastAdm := g.lastAdm.filter fun t => decide (s.clock < t.2.2 + nStaggern (s.nodeRec t.1)) }

/-- STAGGER_EXPIRY (05 R149). -/
def execStaggerExpiry (s : State) : Host.Outcome State Fault Refusal := .next s.tick.staggerEnd

/-- The records of a bin whose timer has expired form a launch; the node's kick stands from the expiry on, also while no Hull works to
form it (05 R146, 18 R388). -/
def State.binTimer (s : State) (n : Nat) : State :=
  let r := s.nodeRec n
  match s.bin n with
  | [] => s
  | b :: t =>
    let due := b.1 + nBinTimer r * 1024
    if nBinTimer r = 0 ∨ s.clock < due then s
    else if s.dev.hulls = 0 then s.kick n
    else
      let s := s.journal 7 n (BitVec.ofNat 32 due) 0
      (s.setBin n []).newLaunch n (nGL r) ((b :: t).map (·.2))

/-- BIN_TIMER_EXPIRY (05 R146). -/
def execBinTimerExpiry (node : Nat) (s : State) : Host.Outcome State Fault Refusal := .next (s.tick.binTimer node)

/-- COMPLETION_ACK (18 R391). -/
def execCompletionAck (s : State) : Host.Outcome State Fault Refusal := .next s.tick.ackCompletion

/-! ## Memory -/

/-- A line leaves an L1 or a cluster unit, the writes it holds going back (08 R198). -/
def State.evictCopy (s : State) (cluster : Bool) (unit line : Nat) : State :=
  if cluster then
    let inside := fun (x : Nat × Copy) => x.1 / 64 = line
    let t := s.clOf unit
    let s := s.homePut ((t.filter fun x => inside x && x.2.2).map fun x => (x.1, x.2.1))
    { s with cl := Tab.put s.cl unit (t.filter fun x => !inside x) }
  else s.flushL1 unit (64 * line) 64

/-- LINE_EVICTION (08 R198). -/
def execLineEviction (cluster : Bool) (unit line : Nat) (s : State) : Host.Outcome State Fault Refusal :=
  .next (s.tick.evictCopy cluster unit line)

/-- The waiting records that go first: of each clause the oldest (05 R142, 09 R245). -/
def State.sproutHeads (s : State) : List Sprout :=
  s.sprouts.filter fun p => (s.sprouts.find? fun q => q.who = p.who && q.clause = p.clause) = some p

/-- The first waiting record that finds room is sent (05 R142, 09 R245, 18 R386). -/
def State.sendSprout (s : State) : Option State :=
  s.sproutHeads.findSome? fun p =>
    (s.sendRecord p.node p.handle p.rcd).map fun t => { t with sprouts := t.sprouts.erase p }

/-- The oldest entry of a forwarding table whose clause has no record any more, or had none, goes to memory (07 R171). -/
def State.settleFwd (s : State) : Option State :=
  s.groups.findSome? fun e => e.2.bundles.findSome? fun b =>
    match b.2.fwd.getLast? with
    | some f => if (b.2.xs.out? f.clause).isNone then some (s.drainFwd e.1 b.1 1) else none
    | none => none

/-- The first stream that still has unused nodes of a clause that trapped returns them (13 R321). -/
def State.settleNodes (s : State) : Option State :=
  s.groups.findSome? fun e => e.2.bundles.findSome? fun b =>
    if b.2.xs.spare.any fun r => (b.2.xs.out? r.clause).isNone then some (s.returnLost { gid := e.1, bid := b.1 }) else none

/-- What the machine holds back goes where it belongs, one piece at a time: the first UO store, else the writes of the first engine
path that holds some, else a waiting record that finds room, else a SPILL entry, else the pool nodes of a clause that trapped (07 R171,
08 R195, R201, 09 R245, 13 R321). -/
def State.settle (s : State) : State :=
  match s.uoq with
  | u :: t => { s.performUo u with uoq := t }
  | [] =>
    match List.find? (fun (e : Nat × Tab Copy) => e.2.any fun c => c.2.2) s.pbuf with
    | some e => s.wbPath (e.1 / 8) (e.1 % 8)
    | none => ((s.sendSprout.or s.settleFwd).or s.settleNodes).getD s

/-- EST_CONTRIBUTION_APPLY (08 R214). -/
def execEstContributionApply (k : Nat) (s : State) : Host.Outcome State Fault Refusal := .next (s.tick.applyContrib k)

/-- OVERLAY_EVICTION (09 R235). -/
def execOverlayEviction (line : Nat) (s : State) : Host.Outcome State Fault Refusal := .next (s.tick.evictLine line)

/-- The 8-byte unit of a key takes poison (15 R350). -/
def State.poisonUnit (s : State) (key : Nat) : State :=
  if s.poisoned.contains (key / 8) then s else { s with poisoned := key / 8 :: s.poisoned }

/-- UNCORRECTABLE_ERROR (15 R350). -/
def execUncorrectableError (addr : Nat) (s : State) : Host.Outcome State Fault Refusal := .next (s.tick.poisonUnit addr)

end Sys2Proof.Machine
end

