-- ==== Sys2Proof/Machine/Fault.lean ====
section
/-!
DEFINITION. The fault windows and the TLB invalidations: REPLAYALL and FAIL (15 R345 to R348, R371), FBGET, FBSTAT, and
TLBINVCMD (15 R344).
-/
namespace Sys2Proof.Machine

/-! ## Exact words asked for by a peer -/

/-- A trap cause as an XREMOTE record gives it, with the port's dropped-write count (09 R232). -/
def State.dropRemote (s : State) (port cause : Nat) (va : DWord) : State :=
  let p := Tab.get {} s.dev.ports port
  let s := { s with dev := { s.dev with ports := Tab.put s.dev.ports port { p with dropwr := satInc 32 p.dropwr } } }
  s.postStatus 0x0C (BitVec.ofNat 32 port) (va.setWidth 32) (BitVec.ofNat 32 cause)

/-- The party that stands for a peer's request to an exact word: the first core of cluster 0 of the die on which the home slice of
the word's line lies (09 R232, 18 R378, R379). -/
def State.peerParty (s : State) (pa : Nat) : Party := { core := 128 * dieOfSlice (s.homeSlice pa) }

/-- A peer's request to an exact word: located with this device's window and tables and performed; parked where its backing
page is not present; dropped where another check fails (09 R232). -/
def State.peerExact (s : State) (port : Nat) (op : PeerOp) (pa : Nat) (va : DWord) (f : Option (Nat → Nat)) : State :=
  let x : Xlat := { key := memKey 0 pa, kind := 3, ord := 0, leaf := 0, base := 0, size := 12, ents := [] }
  let p := s.peerParty pa
  match s.exactCell p va x 3 with
  | .bad c _ _ => s.dropRemote port c va
  | .miss _ ms => s.parkAccess (.peer port op) p.core 1 ms
  | .ok l =>
    let s := l.cx.foldl (fun s z => s.touch (Config.clusterOf p.core) z 3) s
    match f with
    | some f => s.writeCell (x.key / 64) l.runs l.keys (f (s.readCell (x.key / 64) l.keys))
    | none => s

/-- A peer's request to an exact word performed: a load reads, a store replaces, a contribution adds (09 R231 to R234). -/
def State.peerWord (s : State) (port : Nat) (op : PeerOp) : State :=
  match op with
  | .xload pa va => s.peerExact port op pa va none
  | .xstore pa va x => s.peerExact port op pa va (some fun _ => exactStore x)
  | .xadd pa va x => s.peerExact port op pa va (some fun c => exactAdd c x)
  | _ => s

/-! ## REPLAYALL -/

/-- A stream that was parked takes up its clause, or the word at which it was parked, again (15 R348). -/
def State.resumeStream (s : State) (w : Who) : State :=
  let cur := s.cur
  let s := { s with cur := w }
  let x := s.str
  if x.wait ≠ .parked ∨ s.stopped w then { s with cur := cur }
  else
    let s := s.setStr { x with wait := .nothing }
    let t :=
      if x.clause.words.isEmpty then s.issue
      else
        match decode (wordAt x.clause.words x.clause.idx) with
        | some i => (match s.runWord i (perform i) with
            | .next t => t
            | _ => s)
        | none => s
    { t with cur := cur }

/-- The state as a stream sees it, and back. -/
def State.asWho (s : State) (w : Who) (f : State → State) : State :=
  let cur := s.cur
  { f { s with cur := w } with cur := cur }

/-- The place of a walk on a queue, and of a TRACE to a destination, among those of a bundle. -/
def Bundle.walkOn (b : Bundle) (q : Nat) : Option Nat := (List.range b.walks.length).find? fun k =>
  match b.walks[k]? with
  | some w => w.q = q
  | none => false
def Bundle.traceTo (b : Bundle) (d : Nat) : Option Nat := (List.range b.traces.length).find? fun k =>
  match b.traces[k]? with
  | some t => t.d = d
  | none => false

/-- One piece of work of a context (11 R266, R269, R270; 18 R400). -/
def State.ctxStep (s : State) (gid n : Nat) : State :=
  let x := (s.group gid).ctx n
  match x.kind with
  | .none => s
  | .stream | .copy => s.slotStep gid n (lDrain x.blk)
  | .sort => s.sortStep gid n
  | .bin => s.binStep gid n
  | .coll => s.collStep gid n

/-- One piece of work of a matrix command (12 R286, R293). -/
def State.tileStep (s : State) (gid t : Nat) : State :=
  match Tab.find? (s.group gid).mcmds t with
  | some c => if c.drain then s.drainStep gid t else s.mmaStep gid t
  | none => s

/-- A context, a tile's command, a walk, a TRACE or the list operations of a bundle are no longer parked. -/
def State.freeCtx (s : State) (gid n : Nat) : State := s.setCtx gid n { (s.group gid).ctx n with parked := false }
def State.freeTile (s : State) (gid t : Nat) : State :=
  let g := s.group gid
  match Tab.find? g.mcmds t with
  | some c => s.setGroup gid { g with mcmds := Tab.put g.mcmds t { c with parked := false } }
  | none => s
def State.freeList (s : State) : State :=
  let b := s.bun
  s.setBun { b with lists := b.lists.map fun l => { l with parked := false } }

/-- A parked access is tried again (15 R348). -/
def State.retry (s : State) (p : Parker) : State :=
  match p with
  | .clause w | .fetch w => s.resumeStream w
  | .walk gid bid q =>
    s.asWho { gid := gid, bid := bid, acc := true } fun s =>
      match s.bun.walkOn q with
      | some k => (match s.bun.walks[k]? with
          | some w => (s.setWalk k (some { w with parked := false })).walkStep k
          | none => s)
      | none => s
  | .ctx gid n => (s.freeCtx gid n).ctxStep gid n
  | .tile gid t => (s.freeTile gid t).tileStep gid t
  | .trace gid bid d =>
    s.asWho { gid := gid, bid := bid } fun s =>
      match s.bun.traceTo d with
      | some k => (match s.bun.traces[k]? with
          | some t => (s.setBun { s.bun with traces := s.bun.traces.set k { t with parked := false } }).traceStep k
          | none => s)
      | none => s
  | .list gid bid _ => s.asWho { gid := gid, bid := bid } fun s => s.freeList.listStep s.bun.lists.length
  | .peer port op => s.peerWord port op

/-- Groups none of whose streams is parked any more: their FAULTSAVE time starts anew with the next page (15 R354). -/
def State.settleFaults (s : State) : State :=
  { s with groups := s.groups.map fun e =>
      if e.2.anyParked then e else (e.1, { e.2 with faultAt := none }) }

/-- The acquire at system scope that goes before a retried access, on its path (16 R371). -/
def State.acquireFor (s : State) (p : Parked) : State :=
  let paths := p.path :: p.misses.filterMap (·.path)
  let s := if paths.contains 0 then
      (match p.who.gid? with
       | some gid => s.dropOld gid
       | none => s).acquireLsu p.core 3
    else s
  (enginePaths.filter paths.contains).foldl (fun s q => s.dropPath p.core q) s

/-- The groups that wait for a REPLAYALL of a cluster may be restored, those of a frozen graph after it resumes (16 R370). -/
def State.replayed (s : State) (c : Nat) : State :=
  let free := fun (t : Tab Group) => t.map fun e => if e.2.awaits = some c then (e.1, { e.2 with awaits := none }) else e
  { s with groups := free s.groups, frozen := s.frozen.map fun f => { f with groups := free f.groups } }

/-- REPLAYALL: the miss table is emptied, and every parked access of the cluster is tried again, in the order of parking, as after an
acquire; groups saved for a fault there may be restored (15 R348, 16 R370, R371). -/
def State.replayAll (s : State) (c : Nat) : State :=
  let mine := s.parked.filter fun p => p.cluster = c
  let s := { s with parked := s.parked.filter fun p => p.cluster ≠ c }
  let s := (s.setFwin c { s.fwin c with keys := [] }).replayed c
  (mine.foldl (fun s p => (s.acquireFor p).retry p.who) s).settleFaults

/-- REPLAYALL (15 R348). -/
def execReplayall (c : Nat) (s : State) : Host.Outcome State Fault Refusal := .next (s.tick.request (·.replayAll c))

/-! ## FAIL -/

/-- The miss a released clause reports: the first word in word order with a lane on the page, and its lowest lane (15 R348). -/
def firstMiss (ms : List Miss) : Miss :=
  ms.foldl (fun a m => if m.word < a.word ∨ (m.word = a.word ∧ m.lane < a.lane) then m else a) (ms.headD { vpn := 0, acc := 0 })

/-- A clause released by FAIL traps with PAGE (15 R348). -/
def State.failClause (s : State) (w : Who) (m : Miss) : State :=
  s.asWho w fun s =>
    let x := s.str
    let word := if x.clause.words.isEmpty then m.word else x.clause.idx + 1
    let t : Trap := { cause := cPAGE, info := BitVec.ofNat 32 (m.lane * 16 + word), addr := m.va }
    (s.setStr { x with wait := .nothing }).takeTrap t (if x.clause.words.isEmpty then s.countAt x.pc else x.countOf)

/-- A fetch released by FAIL traps with PAGE, as a fault at instruction fetch (15 R341, R348). -/
def State.failFetch (s : State) (w : Who) (m : Miss) : State :=
  s.asWho w fun s =>
    let x := s.str
    let t : Trap := { cause := cPAGE, info := BitVec.ofNat 32 (2 ^ 30 + m.word), addr := m.va }
    (s.setStr { x with wait := .nothing }).takeTrap t (if m.word = 0 then none else s.countAt x.pc)

/-- Lanes of a TRACE that wait on the failed page end with PAGE; the others go on, or stay parked on their own pages (13 R317,
15 R348). -/
def State.failTrace (s : State) (p : Parked) (d key : Nat) : State :=
  match s.bun.traceTo d with
  | none => s
  | some k =>
    match s.bun.traces[k]? with
    | none => s
    | some t =>
      let gone := p.misses.filter fun m => m.vpn = key
      let left := p.misses.filter fun m => m.vpn ≠ key
      let ends := fun (l : TLane) => match gone.find? fun m => m.lane = l.lane with
        | some m => { l with stack := [], hit := none, fault := some (cPAGE, m.va) }
        | none => l
      let t := { t with lanes := t.lanes.map ends, parked := !left.isEmpty }
      let s := s.setBun { s.bun with traces := s.bun.traces.set k t }
      if left.isEmpty then s.traceStep k else { s with parked := s.parked ++ [{ p with misses := left }] }

/-- The lane of a list operation that waits on the failed page ends with PAGE, and the operation goes on (13 R320). -/
def State.failList (s : State) (va : DWord) : State :=
  match s.bun.lists with
  | [] => s
  | op :: rest =>
    let op := { op with lanes := op.lanes.drop 1, fault := op.fault.or (some (cPAGE, va)), parked := false }
    (s.setBun { s.bun with lists := op :: rest }).listStep (rest.length + 1)

/-- A parked access released by FAIL with PAGE (15 R348; 11 R271, 12 R290, 13 R317, R320). A peer's request to an exact word is
dropped, counted, and reported with XREMOTE and the code of PAGE (DESIGN CHOICE, log 57: 09 R232 gives REPLAYALL only). -/
def State.failOne (s : State) (p : Parked) (key : Nat) : State :=
  let m := firstMiss (p.misses.filter fun m => m.vpn = key)
  match p.who with
  | .clause w => s.failClause w m
  | .fetch w => s.failFetch w m
  | .walk gid bid q =>
    s.asWho { gid := gid, bid := bid, acc := true } fun s =>
      match s.bun.walkOn q with
      | some k => (match s.bun.walks[k]? with
          | some w => s.walkTrap k w cPAGE 0 m.va
          | none => s)
      | none => s
  | .ctx gid n =>
    let x := (s.group gid).ctx n
    if x.kind = .coll then collFault gid n x (EAns.fault cPAGE m.va s : EAns Unit)
    else ctxFault gid n x (EAns.fault cPAGE m.va s : EAns Unit)
  | .tile gid t =>
    (match Tab.find? (s.group gid).mcmds t with
     | some c => cmdFault gid t c (EAns.fault cPAGE m.va s : EAns Unit)
     | none => s)
  | .trace gid bid d => s.asWho { gid := gid, bid := bid } fun s => s.failTrace p d key
  | .list gid bid _ => s.asWho { gid := gid, bid := bid } fun s => s.failList m.va
  | .peer port op =>
    (match op with
     | .xload _ va | .xstore _ va _ | .xadd _ va _ => s.dropRemote port cPAGE va
     | _ => s)

/-- FAIL: every parked access whose key equals FAILVA is released, and the key leaves the table (15 R348). -/
def State.failAll (s : State) (c : Nat) : State :=
  let key := (s.fwin c).failVa.toNat % 2 ^ 57 / 4096
  let hit := fun (p : Parked) => p.cluster = c && p.misses.any fun m => m.vpn = key
  let mine := s.parked.filter hit
  let s := { s with parked := s.parked.filter fun p => !hit p }
  let s := s.setFwin c { s.fwin c with keys := (s.fwin c).keys.filter fun k => k.1 ≠ key }
  (mine.foldl (fun s p => s.failOne p key) s).settleFaults

/-- FAIL (15 R348). -/
def execFail (c : Nat) (s : State) : Host.Outcome State Fault Refusal := .next (s.tick.request (·.failAll c))

/-! ## The fault window -/

/-- FBGET written: accepted where FBPUT - FBGET stays from 0 to 8 (15 R347). -/
def State.setFbget (s : State) (c : Nat) (v : Word) : State :=
  let x := s.fwin c
  let d := (BitVec.ofNat 32 x.put - v).toNat
  if d ≤ 8 then s.setFwin c { x with get := x.put - d } else s

/-- FBGET_WRITE (15 R347). -/
def execFbgetWrite (c : Nat) (v : BitVec 32) (s : State) : Host.Outcome State Fault Refusal := .next (s.tick.request (·.setFbget c v))

/-- DROP and DROPCOUNT cleared (15 R347). -/
def State.clearFbstat (s : State) (c : Nat) : State := s.setFwin c { s.fwin c with drop := false, dropCount := 0 }

/-- FBSTAT_CLEAR (15 R347). -/
def execFbstatClear (c : Nat) (s : State) : Host.Outcome State Fault Refusal := .next (s.tick.request (·.clearFbstat c))

/-! ## Invalidations -/

/-- The control block replaced. -/
def State.setCtl (s : State) (c : CtlBlock) : State := { s with dev := { s.dev with ctl := c } }

/-- An invalidation begins, BUSY until it completes; a command while BUSY is ignored (15 R344). -/
def State.tlbInv (s : State) (base size : Nat) : State :=
  let c := s.dev.ctl
  if c.tlbBusy then s else s.setCtl { c with tlbBusy := true, tlbPend := some (base, size) }

/-- TLB_INVALIDATE_RANGE (15 R344). -/
def execTlbInvalidateRange (s : State) : Host.Outcome State Fault Refusal :=
  .next (s.tick.request (·.tlbInv (s.dev.ctl.tlbInvVa.toNat % 2 ^ 57) s.dev.ctl.tlbInvSz.toNat))

/-- TLB_INVALIDATE_ALL (15 R344). -/
def execTlbInvalidateAll (s : State) : Host.Outcome State Fault Refusal := .next (s.tick.request (·.tlbInv 0 64))

/-- Whether an invalidation overlaps the page of a translation. -/
def Xlat.inRange (x : Xlat) (base size : Nat) : Bool := overlap base (2 ^ size) x.base (2 ^ x.size)

/-- Whether a stream's accesses still to perform were translated with an affected translation. A WAITA at its clause's end has
performed its access, and translates anew for its next reading (15 R344; log 43). -/
def Stream.usesPage (x : Stream) (base size : Nat) : Bool :=
  x.clause.pins.any (·.inRange base size) && !(x.wait.isWaita && decide (x.clause.words.length ≤ x.clause.idx + 1))

/-- Whether an access that has left its stream, and was translated with an affected translation, has not performed: a UO access, a
contribution, or a SPILL that the forwarding table holds, whose area lies in 64 KiB (07 R167, 15 R344). -/
def State.pendsOn (s : State) (base size : Nat) : Bool :=
  let hit := fun (p : Nat × Nat) => overlap base (2 ^ size) p.1 (2 ^ p.2)
  s.uoq.any (fun u => hit u.page) || s.contribs.any (fun c => c.pages.any hit) ||
    s.groups.any fun g => g.2.bundles.any fun b => !b.2.fwd.isEmpty && hit (b.2.spillBase.toNat * 65536, 16)

/-- A stream without the affected translations of its clause. -/
def Stream.unpin (x : Stream) (base size : Nat) : Stream :=
  { x with clause := { x.clause with pins := x.clause.pins.filter fun p => !p.inRange base size } }

/-- The invalidation in progress completes: once every access translated with an affected translation has performed, no TLB holds
one, and BUSY clears (15 R344). -/
def State.tlbInvDone (s : State) : State :=
  let c := s.dev.ctl
  match c.tlbPend with
  | none => s
  | some (base, size) =>
    if s.pendsOn base size || s.groups.any fun g => g.2.bundles.any fun b => b.2.xs.usesPage base size || b.2.as.usesPage base size then s
    else
      let kept := s.tlb.filter fun t => !overlap base (2 ^ size) t.base (2 ^ t.size)
      let bun := fun (b : Bundle) => { b with xs := b.xs.unpin base size, as := b.as.unpin base size }
      let gs := s.groups.map fun g => (g.1, { g.2 with bundles := g.2.bundles.map fun b => (b.1, bun b.2) })
      { s with tlb := kept, groups := gs }.setCtl { c with tlbBusy := false, tlbPend := none }

/-- TLB_INVALIDATION_COMPLETE (15 R344). -/
def execTlbInvalidationComplete (s : State) : Host.Outcome State Fault Refusal := .next s.tick.tlbInvDone

end Sys2Proof.Machine
end

