-- ==== Sys2Proof/Machine/Husk.lean ====
section
/-!
DEFINITION. The Husk: its layout as fields that are both written and read, its size, and the images of a group's parts
(15 R360 to R363).
-/
namespace Sys2Proof.Machine

/-! ## Fields -/

/-- A field of a layout: where it stands, its bytes, what it holds of a part, and the part with it loaded. -/
structure Fld (α : Type) where
  off : Nat
  n   : Nat
  get : α → Nat
  set : Nat → α → α

/-- A word field. -/
def fldWord {α : Type} (off : Nat) (get : α → Word) (set : Word → α → α) : Fld α :=
  { off := off, n := 4, get := fun a => (get a).toNat, set := fun v a => set (BitVec.ofNat 32 v) a }

/-- A field of 8 bytes. -/
def fldDword {α : Type} (off : Nat) (get : α → DWord) (set : DWord → α → α) : Fld α :=
  { off := off, n := 8, get := fun a => (get a).toNat, set := fun v a => set (BitVec.ofNat 64 v) a }

/-- A field that is written and not loaded. -/
def fldOut {α : Type} (off n : Nat) (get : α → Nat) : Fld α := { off := off, n := n, get := get, set := fun _ a => a }

/-- The fields of a part as fields of the whole. -/
def fldsIn {α β : Type} (base : Nat) (get : α → β) (put : β → α → α) (fs : List (Fld β)) : List (Fld α) :=
  fs.map fun f => { off := base + f.off, n := f.n, get := fun a => f.get (get a), set := fun v a => put (f.set v (get a)) a }

/-- What fields write: offsets with bytes. -/
def fldsBytes {α : Type} (fs : List (Fld α)) (a : α) : List (Nat × List Byte) := fs.map fun f => (f.off, leBytes f.n (f.get a))

/-- A part with fields loaded; rd gives n bytes at an offset as a number. -/
def fldsLoad {α : Type} (fs : List (Fld α)) (rd : Nat → Nat → Nat) (a : α) : α := fs.foldl (fun a f => f.set (rd f.off f.n) a) a

/-- A bit of a number as a number. -/
def bitOf (b : Bool) (k : Nat) : Nat := if b then 2 ^ k else 0

/-- A bit field of a number. -/
def nbits (v hi lo : Nat) : Nat := v / 2 ^ lo % 2 ^ (hi - lo + 1)

/-! ## Streams -/

/-- A set of designators as a bit map. -/
def bitMap (l : List Nat) (n : Nat) : Nat := (List.range n).foldl (fun a i => a + bitOf (l.contains i) i) 0

/-- A stream's state (15 R362); m gives the marks that stand. -/
def streamFlds (acc : Bool) (m : Marks) : List (Fld Stream) :=
  [fldWord 0x00 (·.pc) (fun v x => { x with pc := v }),
   { off := 0x04, n := 4,
     get := fun x => x.resumeAt % 16 + bitOf (x.wait ≠ .nothing) 4 + bitOf x.handler 5 + bitOf x.mask 6 + bitOf x.pnote 7,
     set := fun v x => { x with resumeAt := v % 16, handler := v.testBit 5, mask := v.testBit 6, pnote := v.testBit 7 } },
   fldWord 0x08 (·.rgnPc) (fun v x => { x with rgnPc := v }),
   { off := 0x0C, n := 4, get := fun x => x.rgnWord % 16, set := fun v x => { x with rgnWord := v % 16 } },
   fldWord 0x10 (·.rgnCount) (fun v x => { x with rgnCount := v }),
   { off := 0x18, n := 8, get := fun x => if acc then x.exec.toNat else 0,
     set := fun v x => if acc then { x with exec := BitVec.ofNat 64 v } else x },
   fldDword 0x20 (·.entryExec) (fun v x => { x with entryExec := v })] ++
  ((List.range 12).map fun f =>
    { off := 0x28 + f, n := 1, get := fun x => x.flag f, set := fun v x => { x with flags := Tab.put x.flags f v } }) ++
  [fldOut 0x40 16 (fun _ => bitMap m.dst 0x68), fldOut 0x50 16 (fun _ => bitMap m.src 0x68),
   fldOut 0x60 2 (fun _ => bitMap m.kdst 16), fldOut 0x62 2 (fun _ => bitMap m.ksrc 16),
   { off := 0x70, n := 4, get := fun x => x.trapCause, set := fun v x => { x with trapCause := v } },
   fldWord 0x74 (·.trapInfo) (fun v x => { x with trapInfo := v }),
   fldWord 0x78 (·.trapPc) (fun v x => { x with trapPc := v }),
   fldDword 0x80 (·.trapAddr) (fun v x => { x with trapAddr := v }),
   fldDword 0x88 (·.trapExec) (fun v x => { x with trapExec := v }),
   fldOut 0x90 8 (fun x => match firstDue x.due with
     | some t => t.cause + t.info.toNat * 2 ^ 32
     | none => 0)]

/-- A stream's barrier records (15 R362). -/
def barrecFlds : List (Fld Stream) :=
  (List.range 64).map fun n =>
    { off := 4 * n, n := 4,
      get := fun x => match Tab.find? x.barRec n with
        | some g => 2 ^ 31 + g % 2 ^ 16
        | none => 0,
      set := fun v x => { x with barRec := if v.testBit 31 then Tab.put x.barRec n (v % 2 ^ 16) else Tab.del x.barRec n } }

/-! ## Bundles -/

/-- A pattern's 11 words (11 R261): base, lane count, then four counts and strides. -/
def patWords (p : Pattern) : List Word :=
  [half false p.base, half true p.base, BitVec.ofNat 32 p.l] ++ p.cs.flatMap fun c => [BitVec.ofNat 32 c.1, c.2]

/-- The pattern that 11 words stand for. -/
def patOf (w : List Word) : Pattern :=
  { base := pair64 (wordAt w 0) (wordAt w 1), l := (wordAt w 2).toNat,
    cs := (List.range 4).map fun k => ((wordAt w (3 + 2 * k)).toNat, wordAt w (4 + 2 * k)) }

/-- Words as a number, and a number as words. -/
def wordsNat : List Word → Nat
  | [] => 0
  | w :: ws => w.toNat + 2 ^ 32 * wordsNat ws
def natWords (n v : Nat) : List Word := (List.range n).map fun i => BitVec.ofNat 32 (v / 2 ^ (32 * i))

/-- The size code of a walk's entries (11 R262). -/
def sizeCode (n : Nat) : Nat := if n = 1 then 0 else if n = 2 then 1 else 2

/-- Walk i of a bundle: a record of 64 bytes (15 R362). The lane stride stands in word 12 (DESIGN CHOICE, log 26). -/
def walkFld (i : Nat) : Fld Bundle :=
  { off := 0x540 + 64 * i, n := 64,
    get := fun b => match b.walks[i]? with
      | none => 0
      | some w =>
        wordsNat ([BitVec.ofNat 32 (1 + bitOf w.store 1 + sizeCode w.n * 4 + w.q * 2 ^ 16)] ++ patWords w.pat ++ [w.ls, BitVec.ofNat 32 w.point]),
    set := fun v b => match b.walks[i]? with
      | none => b
      | some w =>
        let ws := natWords 14 v
        let h := v % 2 ^ 32
        { b with walks := b.walks.set i { w with store := h.testBit 1, n := 2 ^ nbits h 3 2, q := nbits h 19 16, pat := patOf (ws.drop 1),
                                                 ls := wordAt ws 12, point := (wordAt ws 13).toNat, parked := false } } }

/-- The fixed part of a bundle record (15 R362); mx and ma give the marks that stand in its streams. -/
def bundleFlds (mx ma : Marks) (hasA : Bool) : List (Fld Bundle) :=
  [fldOut 0x000 4 (fun b => b.bundle + bitOf b.xs.ended 8 + bitOf b.as.ended 9 + bitOf b.as.present 10),
   fldWord 0x004 (·.spillBase) (fun v b => { b with spillBase := v }),
   fldWord 0x008 (·.ra) (fun v b => { b with ra := v })] ++
  fldsIn 0x010 (·.xs) (fun x b => { b with xs := x }) (streamFlds false mx) ++
  (if hasA then fldsIn 0x110 (·.as) (fun x b => { b with as := x }) (streamFlds true ma) else []) ++
  fldsIn 0x210 (·.xs) (fun x b => { b with xs := x }) barrecFlds ++
  (if hasA then fldsIn 0x310 (·.as) (fun x b => { b with as := x }) barrecFlds else []) ++
  [fldDword 0x410 (·.sr) (fun v b => { b with sr := v }),
   fldDword 0x418 (·.srEntry) (fun v b => { b with srEntry := v }),
   { off := 0x420, n := 4,
     get := fun b => b.toks.foldl (fun a t => a + bitOf t.2.pending t.1 + bitOf t.2.atEntry (8 + t.1)) 0,
     set := fun v b => { b with toks := b.toks.map fun t => (t.1, { t.2 with pending := v.testBit t.1, atEntry := v.testBit (8 + t.1) }) } }] ++
  ((List.range 8).map fun z =>
    { off := 0x424 + z, n := 1, get := fun b => (Tab.get {} b.toks z).dest,
      set := fun v b => match Tab.find? b.toks z with
        | some t => { b with toks := Tab.put b.toks z { t with dest := v } }
        | none => b }) ++
  ((List.range 32).map fun r =>
    fldWord (0x440 + 4 * r) (fun b => Tab.get 0 b.as.x r) (fun v b => { b with as := { b.as with x := Tab.put b.as.x r v } })) ++
  [{ off := 0x4C0, n := 2,
     get := fun b => (List.range 16).foldl (fun a j => a + bitOf ((Tab.get 0 b.as.k j).getLsbD 0) j) 0,
     set := fun v b => { b with as := { b.as with k := (List.range 16).map fun j => (j, if v.testBit j then 1 else 0) } } },
   { off := 0x500, n := 48, get := fun b => wordsNat (patWords b.pat), set := fun v b => { b with pat := patOf (natWords 11 v) } }] ++
  ((List.range 4).map walkFld) ++
  ((List.range 16).map fun q => fldOut (0x640 + 4 * q) 4 (fun b => (b.queue q).ents.length)) ++
  [fldOut 0x680 24 (fun b => (List.range 96).foldl (fun a r => a + (b.vreg r).code * 4 ^ r) 0)]

/-- Lane values as bytes. -/
def laneBytes (w : Nat) (f : Nat → Word) : List Byte := (List.range w).flatMap fun i => leBytes 4 (f i).toNat

/-- The entry of the shape store for a register (04 R111, 15 R362). -/
def shapeEntry : VReg → List Byte
  | .val (.u a) => leBytes 8 a.toNat
  | .val (.a b s) => leBytes 4 b.toNat ++ leBytes 4 s.toNat
  | _ => leBytes 8 0

/-- The variable part of a bundle record (15 R362). -/
def bundleVar (w : Nat) (b : Bundle) : List Byte :=
  let o := fun n => laneBytes w fun i => wordAt (Tab.get [] b.o n) i
  let kx := fun n => leBytes 8 (Tab.get (0 : DWord) b.xs.k n).toNat
  let ent := fun (e : QEnt) => [BitVec.ofNat 8 e.val.tag, 0, 0, 0] ++ laneBytes w fun i => e.val.lane i
  ((List.range 96).flatMap fun r => shapeEntry (b.vreg r)) ++
    (b.residents.flatMap fun r => match b.vreg r with
      | .val v => laneBytes w fun i => v.lane i
      | .spilled _ => []) ++
    (List.range 8).flatMap o ++ laneBytes w (fun i => wordAt b.l0 i) ++ laneBytes w (fun i => wordAt b.l1 i) ++
    (List.range 16).flatMap kx ++ leBytes 8 b.xs.exec.toNat ++ leBytes 8 b.live.toNat ++
    (List.range 16).flatMap fun q => (b.queue q).ents.flatMap ent

/-- Bytes of a bundle record (15 R363). -/
def bundleSize (w : Nat) (b : Bundle) : Nat :=
  roundUp (2048 + 768 + 4 * w * (b.residents.length + 10) + 144 +
    (List.range 16).foldl (fun a q => a + (b.queue q).ents.length * (4 + 4 * w)) 0) 256

/-- The registers of a bundle as its Husk gives them: the shape store, resident registers in order, and registers in automatic
slots as they stood. -/
def loadRegs (w : Nat) (rd : Nat → Nat → Nat) (b : Bundle) : Bundle × Nat :=
  let tag := fun r => nbits (rd (0x680 + r / 4) 1) (2 * (r % 4) + 1) (2 * (r % 4))
  let step := fun (a : Tab VReg × Nat) r =>
    let e := rd (0x800 + 8 * r) 8
    match tag r with
    | 0 => (a.1 ++ [(r, .val (.u (BitVec.ofNat 32 e)))], a.2)
    | 1 => (a.1 ++ [(r, .val (.a (BitVec.ofNat 32 e) (BitVec.ofNat 32 (e / 2 ^ 32))))], a.2)
    | 2 => (a.1 ++ [(r, .val (.g ((List.range w).map fun i => BitVec.ofNat 32 (rd (a.2 + 4 * i) 4))))], a.2 + 4 * w)
    | _ => (a.1 ++ [(r, b.vreg r)], a.2)
  let (v, at') := (List.range 96).foldl step ([], 0x800 + 768)
  ({ b with v := v }, at')

/-- The rest of the variable part: o and l registers, k registers, EXEC, LIVE and queue entries from an offset on. -/
def loadRest (w : Nat) (rd : Nat → Nat → Nat) (at' : Nat) (b : Bundle) : Bundle :=
  let lanes := fun a => (List.range w).map fun i => BitVec.ofNat 32 (rd (a + 4 * i) 4)
  let ks := at' + 40 * w
  let b := { b with o := (List.range 8).map fun n => (n, lanes (at' + 4 * w * n)), l0 := lanes (at' + 32 * w), l1 := lanes (at' + 36 * w),
                    live := BitVec.ofNat 64 (rd (ks + 136) 8),
                    xs := { b.xs with k := (List.range 16).map fun n => (n, BitVec.ofNat 64 (rd (ks + 8 * n) 8)),
                                      exec := BitVec.ofNat 64 (rd (ks + 128) 8) } }
  let ent := fun a => ({ val := match rd a 1 with
    | 0 => .u (BitVec.ofNat 32 (rd (a + 4) 4))
    | 1 => .a (BitVec.ofNat 32 (rd (a + 4) 4)) (BitVec.ofNat 32 (rd (a + 8) 4) - BitVec.ofNat 32 (rd (a + 4) 4))
    | _ => .g (lanes (a + 4)) } : QEnt)
  let step := fun (a : Bundle × Nat) q =>
    let n := rd (0x640 + 4 * q) 4
    let ents := (List.range n).map fun j => ent (a.2 + j * (4 + 4 * w))
    (a.1.setQueue q { ents := ents }, a.2 + n * (4 + 4 * w))
  ((List.range 16).foldl step (b, ks + 144)).1

/-! ## Contexts, tiles, the group header -/

/-- The state a code stands for (11 R268). -/
def ctxStateOf (n : Nat) : CtxState :=
  if n = 1 then .held else if n = 2 then .running else if n = 3 then .done else if n = 4 then .error else .closed

/-- The KIND of a context (15 R361). -/
def CtxKind.code : CtxKind → Nat
  | .none => 0
  | .stream => 1
  | .copy => 2
  | .sort => 3
  | .bin => 4
  | .coll => 5
def ctxKindOf (n : Nat) : CtxKind :=
  if n = 1 then .stream else if n = 2 then .copy else if n = 3 then .sort else if n = 4 then .bin else if n = 5 then .coll else .none

/-- Whether a context transfers slots. -/
def CtxKind.slots (k : CtxKind) : Bool := k = .stream || k = .copy

/-- STAT of a context (11 R268). -/
def Ctx.stat (x : Ctx) : Nat :=
  x.st.code * 2 ^ 29 + (if x.st = .error then x.cause % 32 else 0) * 2 ^ 24 + x.pend % 256 * 65536 +
    (if x.kind.slots then x.done % 65536 else 0)

/-- CURA of a context: the number of the slot in progress, or of the last one completed where none is; SORT's pass; BIN's phase, 0 while it
counts and writes counts, 1 while it patches; the state of a COLL (11 R266, R271, 15 R364; log 26). -/
def Ctx.cura (x : Ctx) : Nat :=
  match x.kind with
  | .coll => x.curA
  | .bin => if x.done = 2 then 1 else 0
  | .sort => x.done
  | _ => if x.begun || x.curA ≠ 0 then x.done + 1 else x.done

/-- CURB of a context: the byte within its slot at which a stream stands, the element of SORT, the index of BIN (11 R271, 15 R364). -/
def Ctx.curb (x : Ctx) : Nat :=
  match x.kind with
  | .coll => x.curB
  | .bin => if x.done = 2 then x.curB else x.curA
  | .sort => x.curA % sCount x.blk
  | _ => (slotPlace x.desc 0 x.curA).1

/-- A context with a recorded CURA: the slot in progress is one that STAT does not count as completed (11 R268, R272). -/
def Ctx.setCura (x : Ctx) (v : Nat) : Ctx :=
  match x.kind with
  | .coll => { x with curA := v }
  | .bin => { x with done := if v = 1 then 2 else 0 }
  | .sort => { x with done := v }
  | _ => if v % 65536 ≠ x.done % 65536 then { x with done := v - 1, begun := true } else { x with done := v }

/-- A context with a recorded CURB: a stream restarts its slot from its first byte, SORT its pass from element 0, BIN its counting from
key 0 and its patching from the first patch not yet applied (11 R272). -/
def Ctx.setCurb (x : Ctx) (v : Nat) : Ctx :=
  match x.kind with
  | .coll => { x with curB := v }
  | .bin => if x.done = 2 then { x with curB := v } else { x with curA := 0, work := [] }
  | .sort => { x with curA := 0, work := [] }
  | _ => { x with curA := 0 }

/-- A context record (15 R361, R364, 11 R272). -/
def ctxFlds : List (Fld Ctx) :=
  [{ off := 0, n := 4, get := Ctx.stat,
     set := fun v x => { x with st := ctxStateOf (nbits v 31 29), cause := nbits v 28 24,
                                done := if x.kind.slots then nbits v 15 0 else x.done } },
   { off := 4, n := 4, get := fun x => x.kind.code + x.bid * 2 ^ 8 + bitOf x.acc 12,
     set := fun v x => { x with kind := ctxKindOf (v % 8), bid := nbits v 11 8, acc := v.testBit 12 } },
   { off := 8, n := 4, get := (·.block), set := fun v x => { x with block := v } },
   { off := 12, n := 4, get := Ctx.cura, set := fun v x => x.setCura v },
   { off := 16, n := 4, get := Ctx.curb, set := fun v x => x.setCurb v },
   { off := 20, n := 4, get := (·.released), set := fun v x => { x with released := v } },
   { off := 64, n := 64, get := fun x => wordsNat (x.blk.take 16), set := fun v x => { x with blk := natWords 16 v ++ x.blk.drop 16 } }]

/-- The section's code (15 R361). -/
def Sect.code : Sect → Nat
  | .notyet => 0
  | .held => 1
  | .passed => 2
def sectOf (n : Nat) : Sect := if n = 1 then .held else if n = 2 then .passed else .notyet

/-- A binding: its address with BOUND in bit 0. -/
def boundVa (t : Tab (DWord × List Word)) (n : Nat) : Nat := match Tab.find? t n with
  | some b => b.1.toNat + 1
  | none => 0

/-- A binding loaded: the words come with the address they were read at; those of another address are read anew. -/
def loadBound (t : Tab (DWord × List Word)) (n v : Nat) : Tab (DWord × List Word) :=
  if v % 2 = 0 then Tab.del t n
  else if v = boundVa t n then t
  else Tab.put t n (BitVec.ofNat 64 (v - 1), [])

/-- The group header (15 R361); r is the node record, handle the node's. -/
def groupFlds (r : List Word) (reason size : Nat) : List (Fld Group) :=
  [fldOut 0x000 4 (fun _ => 1), fldOut 0x004 4 (fun _ => size), fldOut 0x008 4 (fun g => g.handle.toNat),
   fldOut 0x00C 4 (·.group),
   { off := 0x010, n := 4,
     get := fun g => codeOfWidth g.w + (g.nb - 1) * 2 ^ 4 + nTiles r * 2 ^ 8 + bitOf g.isFull 12 + bitOf g.committed 13 +
       g.sect.code * 2 ^ 14 + g.relaunches * 2 ^ 16 + reason * 2 ^ 18,
     set := fun v g => { g with isFull := v.testBit 12, committed := v.testBit 13, sect := sectOf (nbits v 15 14),
                                relaunches := nbits v 17 16 } },
   { off := 0x014, n := 4, get := (·.scrSize), set := fun v g => { g with scrSize := v } },
   fldOut 0x018 4 (fun g => g.records.length), fldOut 0x01C 4 (fun _ => nNB r)] ++
  ((List.range 64).map fun n =>
    { off := 0x040 + 8 * n, n := 8,
      get := fun g => let b : Bar := Tab.get ({} : Bar) g.bars n; b.e % 2 ^ 13 + b.cnt % 2 ^ 13 * 2 ^ 16 + b.gen % 2 ^ 16 * 2 ^ 32,
      set := fun v g => { g with bars := if v = 0 then Tab.del g.bars n
                                 else Tab.put g.bars n { e := nbits v 12 0, cnt := nbits v 28 16, gen := nbits v 47 32 } } }) ++
  ((List.range 16).map fun n =>
    { off := 0x240 + 8 * n, n := 8, get := fun g => boundVa g.regions n, set := fun v g => { g with regions := loadBound g.regions n v } }) ++
  [{ off := 0x2C0, n := 8, get := fun g => boundVa (g.camera.toList.map fun c => (0, c)) 0,
     set := fun v g => { g with camera := (loadBound (g.camera.toList.map fun c => (0, c)) 0 v).head?.map (·.2) } }] ++
  ((List.range 4).map fun n =>
    { off := 0x2C8 + 8 * n, n := 8, get := fun g => boundVa g.bvhs n, set := fun v g => { g with bvhs := loadBound g.bvhs n v } }) ++
  ((List.range 4).map fun n =>
    { off := 0x2E8 + 8 * n, n := 8, get := fun g => boundVa g.layers n, set := fun v g => { g with layers := loadBound g.layers n v } }) ++
  (List.range 16).flatMap fun n =>
    fldsIn (0x400 + 128 * n) (fun (g : Group) => g.ctx n) (fun x g => { g with ctxs := if x = {} then Tab.del g.ctxs n else Tab.put g.ctxs n x })
      ctxFlds

/-- Owner of a code (12 R276). -/
def ownerOf (n : Nat) : Owner := if n = 1 then .mxe else if n = 2 then .busy else .vec

/-- The completion flag that SETA of the clause of a matrix command names, 0xF where none (17 R374). -/
def Group.cmdFlag (g : Group) (c : MCmd) : Nat :=
  let b := g.bundle c.bid
  match (if c.acc then b.as else b.xs).out? c.clause with
  | some o => if o.seta < 12 then o.seta else 15
  | none => 15

/-- The header of tile t's record (15 R361, 17 R374). -/
def tileFlds (t : Nat) : List (Fld Group) :=
  let cmd := fun (g : Group) (f : MCmd → Nat) => match Tab.find? g.mcmds t with
    | some c => f c
    | none => 0
  let upd := fun (g : Group) (f : MCmd → MCmd) => match Tab.find? g.mcmds t with
    | some c => { g with mcmds := Tab.put g.mcmds t (f c) }
    | none => g
  [{ off := 0, n := 4, get := fun g => (g.tile t).owner.code + cmd g (fun c => (if c.drain then 2 else 1) * 4 + c.bid * 16 + g.cmdFlag c * 2 ^ 8),
     set := fun v g => { g with tiles := Tab.put g.tiles t { g.tile t with owner := ownerOf (v % 4) } } },
   { off := 4, n := 4, get := fun g => cmd g (·.block), set := fun v g => upd g fun c => { c with block := v } },
   { off := 8, n := 8, get := fun g => cmd g (fun c => c.s0.toNat), set := fun v g => upd g fun c => { c with s0 := BitVec.ofNat 64 v } },
   { off := 16, n := 4, get := fun g => cmd g (fun c => c.amax.toNat), set := fun v g => upd g fun c => { c with amax := BitVec.ofNat 32 v } }]

/-! ## The whole -/

/-- Offsets of a Husk's parts: tile t, the scratchpad image, the first bundle record (15 R360). -/
def huskTile (t : Nat) : Nat := 4096 + 65600 * t
def huskScr (r : List Word) : Nat := huskTile (nTiles r)
def huskBundles (r : List Word) (scr : Nat) : Nat := roundUp (huskScr r + scr) 256

/-- The bundles of a group that have not ended, in BUNDLE order, each with the offset of its record from the first. -/
def huskList (g : Group) : List (Nat × Bundle × Nat) :=
  (g.bundles.foldl (fun (a : List (Nat × Bundle × Nat) × Nat) b =>
    if b.2.done then a else (a.1 ++ [(b.1, b.2, a.2)], a.2 + bundleSize g.w b.2)) ([], 0)).1

/-- HSIZE (15 R363). -/
def huskSize (r : List Word) (g : Group) : Nat :=
  huskBundles r g.scrSize + (huskList g).foldl (fun a b => a + bundleSize g.w b.2.1) 0

/-- HUSK_WRITE: the whole Husk of a group, as offsets with bytes; every other byte is zero (15 R360). -/
def State.huskImage (s : State) (gid reason : Nat) : List (Nat × List Byte) :=
  let g := s.group gid
  let r := s.nodeRec g.node
  let shift := fun (k : Nat) (l : List (Nat × List Byte)) => l.map fun p => (k + p.1, p.2)
  let marks := fun bid acc => s.standing { gid := gid, bid := bid, acc := acc }
  fldsBytes (groupFlds r reason (huskSize r g)) g ++
    ((List.range (nTiles r)).flatMap fun t =>
      shift (huskTile t) (fldsBytes (tileFlds t) g ++ (g.tile t).elems.map fun e => (64 + 4 * e.1, leBytes 4 e.2.toNat))) ++
    [(huskScr r, Bytes.readList g.scr 0 g.scrSize)] ++
    (huskList g).flatMap fun b =>
      shift (huskBundles r g.scrSize + b.2.2)
        (fldsBytes (bundleFlds (marks b.1 false) (marks b.1 true) b.2.1.as.present) b.2.1 ++ [(0x800, bundleVar g.w b.2.1)])

/-- Where poisoned values stand in a bundle's record, as offsets with lengths: k and x registers, v registers in place, o and l registers,
and queue entries (15 R350, R362). -/
def bundleBad (w : Nat) (b : Bundle) : List (Nat × Nat) :=
  let regs := b.residents
  let vreg := fun (e : Nat × Nat) => match b.vreg e.1 with
    | .val (.g _) => (0x800 + 768 + 4 * w * (regs.takeWhile (· ≠ e.1)).length + 4 * e.2, 4)
    | _ => (0x800 + 8 * e.1, 8)
  let os := 0x800 + 768 + 4 * w * regs.length
  let ks := os + 40 * w
  let kreg := fun (e : Nat × Nat) => (ks + 8 * e.1, 8)
  let areg := fun (e : Nat × Nat) => if e.1 < 32 then (0x4C0, 2) else (0x440 + 4 * (e.1 - 32), 4)
  let ents := (List.range 16).flatMap fun q => (b.queue q).ents
  let qs := (List.range ents.length).flatMap fun j =>
    ((ents.getD j { val := .u 0 }).bad).map fun i => (ks + 144 + j * (4 + 4 * w) + 4 + 4 * i, 4)
  (b.poison.map fun e => if e.1 < 0x60 then vreg e else (os + 4 * w * (e.1 - 0x60) + 4 * e.2, 4)) ++ b.xs.bad.map kreg ++
    b.as.bad.map areg ++ qs

/-- Where poisoned values stand in a group's Husk (15 R350, R360). -/
def State.huskBad (s : State) (gid : Nat) : List (Nat × Nat) :=
  let g := s.group gid
  (huskList g).flatMap fun b =>
    (bundleBad g.w b.2.1).map fun p => (huskBundles (s.nodeRec g.node) g.scrSize + b.2.2 + p.1, p.2)

/-- A group loaded from its Husk; rd gives n bytes at an offset as a number. What a Husk does not hold stands as the Hull kept it
(15 R357, R358). -/
def huskLoad (r : List Word) (rd : Nat → Nat → Nat) (g : Group) : Group :=
  let offs := (huskList g).map fun b => (b.1, b.2.2)
  let base := huskBundles r g.scrSize
  let g := fldsLoad (groupFlds r 0 0) rd g
  let g := (List.range (nTiles r)).foldl (fun g t =>
    let rt := fun o n => rd (huskTile t + o) n
    let g := fldsLoad (tileFlds t) rt g
    let elems := (List.range 16384).filterMap fun k => let v := rt (64 + 4 * k) 4; if v = 0 then none else some (k, BitVec.ofNat 32 v)
    { g with tiles := Tab.put g.tiles t { g.tile t with elems := elems } }) g
  let g := { g with scr := Bytes.writeList [] 0 ((List.range g.scrSize).map fun i => BitVec.ofNat 8 (rd (huskScr r + i) 1)) }
  offs.foldl (fun g b =>
    let rb := fun o n => rd (base + b.2 + o) n
    let x := fldsLoad (bundleFlds {} {} (g.bundle b.1).as.present) rb (g.bundle b.1)
    let (x, at') := loadRegs g.w rb x
    g.setBundle b.1 (loadRest g.w rb at' x)) g

end Sys2Proof.Machine
end

