-- ==== Sys2Proof/Machine/Save.lean ====
section
/-!
DEFINITION. Pre-emption, saving and restoring (15 R351 to R358): requests and their timers, the save of a group at its save
points, its restore from the Husk, and the saves of R354.
-/
namespace Sys2Proof.Machine

/-! ## Requests -/

/-- A group under a new request: saved when its node has PERSIST, else it drains; its timer starts, and PREEMPT may be taken
once (15 R351, R355, R359). -/
def Group.request (g : Group) (r : List Word) (clock : Nat) : Group :=
  { g with
    saving := if nPersist r then some (g.saving.getD 0) else g.saving, drains := !nPersist r, named := true,
    deadline := some (min (g.deadline.getD (clock + nDeadline r)) (clock + nDeadline r)),
    bundles := g.bundles.map fun b => (b.1, { b.2 with xs := { b.2.xs with pnoted := false }, as := { b.2.as with pnoted := false } }) }

/-- The resident groups of named classes take a request; the saved ones are restored when it is withdrawn, before new groups of their
classes (15 R351). -/
def State.requestGroups (s : State) (names : Nat → Bool) : State :=
  { s with groups := s.groups.map fun e =>
      let r := s.nodeRec e.2.node
      if !names (nPrio r) then e
      else if e.2.st = .prologue ∨ e.2.st = .full then (e.1, e.2.request r s.clock)
      else if e.2.st = .saved then (e.1, { e.2 with named := true })
      else e }

/-- A pre-emption request for classes (15 R351, 18 R389). -/
def State.requestPreempt (s : State) (classes : Nat) : State :=
  let s := s.journal 8 0 (BitVec.ofNat 32 classes) 0
  let s := { s with preempt := { s.preempt with classes := s.preempt.classes ||| classes } }
  s.requestGroups fun p => classes / 2 ^ p % 2 = 1

/-- The timers of the groups of classes that no request names any more are cancelled, and these groups no longer drain and no longer
count as named; saves already begun complete, and what is saved is restored before new groups (15 R351). -/
def State.releaseGroups (s : State) : State :=
  { s with groups := s.groups.map fun e =>
      if s.preempt.names (nPrio (s.nodeRec e.2.node)) then e
      else
        let stays := e.2.named && (e.2.st = .saved || e.2.saving.isSome)
        (e.1, { e.2 with deadline := none, drains := false, named := stays }) }

/-- A request withdrawn for classes (15 R351). -/
def State.withdrawPreempt (s : State) (classes : Nat) : State :=
  let s := s.journal 8 0 (BitVec.ofNat 32 classes) 1
  { s with preempt := { s.preempt with classes := s.preempt.classes &&& (255 ^^^ (classes % 256)) } }.releaseGroups

/-! ## Save -/

/-- Whether a stream's issued clauses allow a save: only MXE and STE commands, and the clause it waits in (15 R353). -/
def Stream.quiet (x : Stream) : Bool := x.outst.all fun o => o.cls = .mxe || o.cls = .ste || o.id = x.clause.id

/-- Whether a bundle's work that a save waits for is done: results of SFI, TRACE, and list operations (15 R353, R364). -/
def Bundle.quiet (b : Bundle) : Bool := b.xs.quiet && b.as.quiet && !b.tokenBusy && b.traces.isEmpty && b.lists.isEmpty

/-- Whether a group's save can be made: every stream at a save point, its work done, its REFORM bins drawn as far as indexes are
free (15 R352, R353). -/
def State.canSave (s : State) (gid : Nat) : Bool :=
  let g := s.group gid
  (g.st = .prologue || g.st = .full) && g.saving.isSome && decide (0 < s.dev.hulls) &&
    (g.bundles.all fun b => b.2.xs.atSavePoint g.sect && b.2.as.atSavePoint g.sect && b.2.quiet) &&
    (g.rbins.isEmpty || (List.range g.nb).all fun i => (Tab.find? g.bundles i).isSome)

/-- The entry a stream is saved at: a parked stream goes back to its region entry; one at a wait makes an entry there, with the
word that waits (15 R352, R353). -/
def State.saveEntry (s : State) (w : Who) : State :=
  s.asWho w fun s =>
    let x := s.str
    let c := x.clause
    if !x.present ∨ x.ended then s
    else if x.wait = .parked then
      let x := if keepsRecord x { cause := cPAGE } (some 0) then (if c.id = 0 then x else x.setAside) else (x.complete c.id).dropHeld
      (s.setStr x).rollback
    else if !c.words.isEmpty then
      let s := s.regionEntry (c.idx + 1)
      s.setStr { s.str with resumeAt := c.idx + 1 }
    else if x.entryMade then s.setStr { x with wait := .nothing }
    else s.regionEntry 0

/-- A stream after its save: its wait is left and will be taken again; of BAR.SYNC, BAR.WAIT and GBAR what has been counted
stands, but for an arrival at a GBAR that is still open, which is withdrawn (15 R353; log 27). -/
def Stream.saved (x : Stream) (open_ : Bool) : Stream :=
  let y := if x.clause.words.isEmpty then x else x.setAside
  { y with wait := .nothing, clause := {}, entryMade := false, waiter := false, wakeTry := false,
           heldGen := if open_ then none else y.heldGen }

/-- Both streams of the bundles of a group, by name. -/
def Group.streams (g : Group) (gid : Nat) : List Who :=
  g.bundles.flatMap fun b => [{ gid := gid, bid := b.1, acc := false }, { gid := gid, bid := b.1, acc := true }]

/-- The matrix and stream commands of a group and its walks stop at their cursors, which stand; none is parked any more (11 R272,
12 R291, 16 R370). -/
def Group.stopWork (g : Group) : Group :=
  { g with ctxs := g.ctxs.map (fun c => (c.1, { c.2 with parked := false })),
           mcmds := g.mcmds.map (fun c => (c.1, { c.2 with parked := false })),
           bundles := g.bundles.map fun b => (b.1, { b.2 with walks := b.2.walks.map fun w => { w with parked := false } }) }

/-- Whether a parked access is a group's. -/
def Parker.ofGroup (p : Parker) (gid : Nat) : Bool :=
  match p with
  | .clause w | .fetch w => w.gid = gid
  | .walk g _ _ | .ctx g _ | .tile g _ | .trace g _ _ | .list g _ _ => g = gid
  | .peer _ _ => false

/-- Write a Husk: its bytes are zero but for the fields (15 R360); what carried poison carries it there (15 R350). -/
def State.writeHusk (s : State) (va size : Nat) (img : List (Nat × List Byte)) (bad : List (Nat × Nat) := []) : State :=
  let k := hullKey va
  let s := img.foldl (fun s p => s.homeWrite (k + p.1) p.2) (s.homeWrite k (List.replicate size 0))
  bad.foldl (fun s p => s.poisonHome (k + p.1) p.2) s

/-- The release at device scope on every path that a save makes, after the group's contributions have been drained (08 R213). -/
def State.saveRelease (s : State) (gid : Nat) : State :=
  let s := (s.drainContribs fun c => c.owner.gid = gid).releaseGroup gid 2
  enginePaths.foldl (fun s p => s.wbPath (s.group gid).core p) s

/-- GROUP_SAVE, steps 2 to 7 (15 R353, 08 R213). A group saved for a fault waits for a REPLAYALL of the cluster it stood in
(16 R370). -/
def State.saveGroup (s : State) (gid : Nat) : State :=
  let g := s.group gid
  let r := s.nodeRec g.node
  let reason := g.saving.getD 0
  let s := s.journal 5 g.node (BitVec.ofNat 32 g.serial) (BitVec.ofNat 32 (g.group * 512 + g.core))
  let s := (g.streams gid).foldl State.saveEntry s
  let s := (g.streams gid).foldl State.returnLost { s with parked := s.parked.filter fun p => !p.who.ofGroup gid }
  let s := s.saveRelease gid
  let s := s.setGroup gid (s.group gid).stopWork
  let size := huskSize r (s.group gid)
  let (va, s) := s.hullAlloc size
  let s := s.writeHusk va size (s.huskImage gid reason) (s.huskBad gid)
  let gen := match s.launch? g.serial with
    | some l => l.gbarGen
    | none => 0
  let end1 := fun (x : Stream) => x.saved (x.wait = .gbar && x.clause.gen = gen)
  let g := s.group gid
  let s := s.setGroup gid { g with
    st := .saved, husk := some va, savedAt := s.clock, saving := some reason,
    awaits := if reason = 1 ∧ !s.dev.coresOut.contains g.core then some g.cluster else none,
    acqReq := none, acqWho := {}, faultAt := none, deadline := none, drains := false, hits := [], scrOld := [], engOld := [],
    bundles := g.bundles.map fun b => (b.1, { b.2 with xs := end1 b.2.xs, as := end1 b.2.as }) }
  let s := s.mapGraph fun gr => { gr with pool := gr.pool.filter fun p => p.2.1.gid ≠ gid }
  match s.launch? g.serial with
  | some l => s.setLaunch g.serial { l with arrived := l.arrived.filter fun w => w.gid ≠ gid }
  | none => s

/-- GROUP_SAVE (15 R353). -/
def execGroupSave (g : Nat) (s : State) : Host.Outcome State Fault Refusal :=
  let s := s.tick
  .next (if s.canSave g then s.saveGroup g else s)

/-- FAULTSAVE_EXPIRY: groups that have stood parked for FAULTSAVE clocks without issuing are saved (15 R354). -/
def State.faultSaves (s : State) : State :=
  { s with groups := s.groups.map fun e =>
      let due := match e.2.faultAt with
        | some c => decide (c + s.dev.ctl.faultSave.toNat ≤ s.clock)
        | none => false
      if due && (e.2.st = .prologue || e.2.st = .full) && e.2.saving.isNone && !e.2.drains &&
          e.2.anyParked then (e.1, { e.2 with saving := some 1 })
      else e }

/-- FAULTSAVE_EXPIRY (15 R354). -/
def execFaultsaveExpiry (s : State) : Host.Outcome State Fault Refusal := .next s.tick.faultSaves

/-- DEADLINE_EXPIRY: where an affected group's timer has expired before it retired or was saved, the context is reset (15 R355). -/
def State.deadlineEnd (s : State) : State :=
  match List.find? (fun (e : Nat × Group) => (e.2.st = .prologue || e.2.st = .full) && (match e.2.deadline with
    | some d => decide (d ≤ s.clock)
    | none => false)) s.groups with
  | some e => s.contextReset e.2.handle (BitVec.ofNat 32 e.2.group)
  | none => s

/-- DEADLINE_EXPIRY (15 R355). -/
def execDeadlineExpiry (s : State) : Host.Outcome State Fault Refusal := .next s.tick.deadlineEnd

/-! ## Restore -/

/-- Whether what a saved group waits for has come: its class is not under a request, and of the groups whose classes a request has
named no other that was saved before it still waits; where it was saved for a fault, a REPLAYALL of its cluster; and resources are
free (15 R351, R354, 16 R370). -/
def State.canRestore (s : State) (gid core : Nat) : Bool :=
  let g := s.group gid
  let r := s.nodeRec g.node
  g.st = .saved && decide (0 < s.dev.hulls) && decide (s.dev.mode = 0) && !s.preempt.names (nPrio r) && s.coreIn core &&
    !s.acqPending core &&
    ((s.coreLoad core).add (groupLoad r g.w g.nb g.scrSize (s.budget g))).fits &&
    (!g.named || (Tab.vals s.groups).all fun h =>
      h.st ≠ .saved || !h.named || s.preempt.names (nPrio (s.nodeRec h.node)) || decide (g.savedAt ≤ h.savedAt)) &&
    g.awaits.isNone

/-- Words at a virtual address, read at home; none where it does not translate. -/
def State.rereadWords (s : State) (va : DWord) (n : Nat) : List Word :=
  match s.walk (va.toNat % 2 ^ 57) with
  | .ok x => s.homeWords x.key n
  | _ => []

/-- A binding of a Husk whose words stand no longer with it is read anew (15 R357). -/
def State.rebind (s : State) (n : Nat) (b : DWord × List Word) : DWord × List Word :=
  if b.2.isEmpty then (b.1, s.rereadWords b.1 n) else b

/-- A stopped matrix command issued again from its record: its block read from the restored scratchpad, at its cursor (12 R291). Its
tensor entries stay those it took at issue, whatever a later TIDSET did (11 R258). -/
def reissueCmd (g : Group) (c : MCmd) : MCmd :=
  let blk := g.scrWords c.block 16
  { c with blk := blk, cur := if c.drain then dCur blk else mKcur blk }

/-- Bundles take slots of the core, one after another. -/
def State.seat (s : State) (gid : Nat) : List Nat → State
  | [] => s
  | b :: bs =>
    let x := s.bundle gid b
    State.seat (s.setBundle gid b { x with slot := s.freeSlot (s.group gid).core, ready := s.clock, promoted := false, current := false })
      gid bs

/-- A restore that meets uncorrectable data: the group is lost, and started again under RELAUNCH (15 R358). -/
def State.restoreLost (s : State) (gid va : Nat) : State :=
  let g := s.group gid
  let n := s.nstat g.node
  let s := s.setNstat g.node { n with restore := satInc 16 n.restore }
  let s := s.postStatus 2 g.handle (BitVec.ofNat 32 g.group) (BitVec.ofNat 32 va)
  if nRelaunch (s.nodeRec g.node) then s.relaunch gid g.relaunches none else s.killGroup gid

/-- The acquire at device scope on every path that a restore makes (08 R213, 15 R357). -/
def State.restoreAcquire (s : State) (gid core : Nat) : State :=
  enginePaths.foldl (fun s p => s.dropPath core p) ((s.dropOld gid).acquireLsu core 2)

/-- GROUP_RESTORE (15 R357). -/
def State.restoreGroup (s : State) (gid core : Nat) : State :=
  let g := s.group gid
  let r := s.nodeRec g.node
  let va := g.husk.getD 0
  let k := hullKey va
  if s.poisonedIn k (huskSize r g) then s.restoreLost gid va
  else
    let s := (s.backInv k (huskSize r g)).journal 6 g.node (BitVec.ofNat 32 g.serial) (BitVec.ofNat 32 (g.group * 512 + core))
    let g := huskLoad r (fun o n => leNat (s.homeBytes (k + o) n)) g
    let g := { g with
      st := if g.isFull then .full else .prologue, core := core, saving := none, husk := none, named := false,
      regions := g.regions.map (fun b => (b.1, s.rebind 16 b.2)), camera := g.camera.map (s.rebind 32),
      bvhs := g.bvhs.map (fun b => (b.1, s.rebind 16 b.2)), layers := g.layers.map (fun b => (b.1, s.rebind 16 b.2)),
      mcmds := g.mcmds.map fun c => (c.1, reissueCmd g c.2),
      bundles := g.bundles.map fun b => (b.1, { b.2 with slot := 48 }) }
    ((s.setGroup gid g).seat gid (Tab.keys g.bundles)).restoreAcquire gid core

/-- GROUP_RESTORE (15 R357, R358). -/
def execGroupRestore (g core : Nat) (s : State) : Host.Outcome State Fault Refusal :=
  let s := s.tick
  .next (if s.canRestore g core then s.restoreGroup g core else s)

end Sys2Proof.Machine
end

