-- ==== Sys2Proof/Machine/Hang.lean ====
section
/-!
DEFINITION. The hang detector: when a clock counts, the edges of the snapshot, and the delivery of HANG (05 R154, 15 R365 to
R367, 18 R401).
-/
namespace Sys2Proof.Machine

/-! ## When a clock counts -/

/-- The resident streams of the context that have not ended. -/
def State.residents (s : State) : List (Who × Group × Bundle × Stream) :=
  s.groups.flatMap fun e =>
    if e.2.st = .prologue ∨ e.2.st = .full then
      e.2.bundles.flatMap fun b => [false, true].filterMap fun a =>
        let x := b.2.stream a
        if x.present && !x.ended then some ({ gid := e.1, bid := b.1, acc := a }, e.2, b.2, x) else none
    else []

/-- The COLL command of phase 1 that a clause issued, if it did (18 R401). -/
def collOf (g : Group) (w : Who) (clause : Nat) : Option Ctx :=
  (Tab.vals g.ctxs).find? fun c => c.kind = .coll && c.st = .running && c.curA = 1 && c.bid = w.bid && c.acc = w.acc &&
    c.clause = clause

/-- Whether a REFORM stalls on strands that only bundles still to come could take: all bins hold other keys, and no index is free for a
fresh bundle (04 R130). -/
def Group.binsFull (g : Group) : Bool :=
  decide (8 ≤ g.rbins.length) && (List.range g.nb).all fun i => (Tab.find? g.bundles i).isSome

/-- Whether a stream stands at a wait (15 R352); a wait for a queue counts, since the snapshot has an edge for it (15 R366), and so
does a REFORM on full bins (04 R130). -/
def waitsNow (g : Group) (x : Stream) : Bool :=
  match x.wait with
  | .flags _ | .barrier _ | .waita _ _ | .waitp _ _ _ | .tokens _ | .gbar | .acquire | .tile _ | .queue _ _ => x.pend.isNone
  | .sect => g.sect = .notyet && x.pend.isNone
  | .reform => g.binsFull && x.pend.isNone
  | _ => false

/-- Whether a stream has nothing outstanding but the clause it waits in and COLLs that wait for their members (15 R365, 18 R401). -/
def idleNow (g : Group) (w : Who) (x : Stream) : Bool :=
  x.outst.all fun o => o.id = x.clause.id || (collOf g w o.id).isSome

/-- Whether the engines of a group and its bundles stand idle but for those COLLs. -/
def Group.enginesIdle (g : Group) : Bool :=
  g.mcmds.isEmpty && (g.ctxs.all fun c => c.2.st ≠ .running || (c.2.kind = .coll && c.2.curA = 1)) &&
    g.bundles.all fun b => b.2.walks.isEmpty && b.2.traces.isEmpty && b.2.lists.isEmpty && !b.2.tokenBusy

/-- Whether the context stands still but for some streams: all others wait, no access or command is outstanding, nothing is parked,
no save is under way, and no handler runs (15 R365). -/
def State.hangStill (s : State) (but : Who → Bool) : Bool :=
  let rs := s.residents
  !rs.isEmpty && s.parked.isEmpty && s.contribs.isEmpty && s.uoq.isEmpty && s.sprouts.isEmpty &&
    (Tab.vals s.groups).all (fun g => g.st = .saved || (g.saving.isNone && g.enginesIdle)) &&
    rs.all fun r => !r.2.2.2.handler && (but r.1 || (waitsNow r.2.1 r.2.2.2 && idleNow r.2.1 r.1 r.2.2.2))

/-- Whether every resident stream waits (15 R365). -/
def State.hangIdle (s : State) : Bool := s.hangStill fun _ => false

/-- Whether a stream stands at a switch point of ORDERED: it has ended, it waits, or the last clause it issued had YLD set or
executed YIELD (05 R153; GBAR counts as a barrier, DEDUCED, log 28). -/
def Stream.atSwitch (x : Stream) : Bool :=
  !x.present || x.ended || (x.clause.words.isEmpty && x.yielded) ||
    (match x.wait with
     | .flags _ | .barrier _ | .queue _ _ | .tokens _ | .waita _ _ | .waitp _ _ _ | .sect | .tile _ | .acquire | .gbar => true
     | .nothing | .exit | .reform | .room | .parked => false)

/-- Whether both streams of a bundle stand at switch points of ORDERED (05 R153). -/
def Bundle.atSwitch (b : Bundle) : Bool := b.xs.atSwitch && b.as.atSwitch

/-- Whether the last bundle to issue may be one that spins: a bundle of an ORDERED node, every other stream waiting, with a
bundle ranked above it that could be the one to write (05 R154; DEDUCED, log 28). -/
def State.spins (s : State) : Bool :=
  let g := s.grp
  (g.st = .prologue || g.st = .full) && nOrdered (s.nodeRec g.node) && (Tab.find? g.bundles s.cur.bid).isSome &&
    s.hangStill (fun w => w.gid = s.cur.gid && w.bid = s.cur.bid) &&
    (g.bundles.any (fun b => s.cur.bid < b.1) || (Tab.vals s.groups).any (fun h => h.serial = g.serial && decide (g.group < h.group)) ||
      (match s.launch? g.serial with
       | some l => l.nextUp.isSome
       | none => false))

/-- HANG_COUNT: the counter after a step from s to t: a clock at which the context stands still counts, and so does each switch
at which a spinning bundle is taken again; any other clock returns it to 0 (05 R154, 15 R365). -/
def State.hangCount (s t : State) : Nat :=
  if t.hangIdle then s.hangCtr + 1
  else if t.spins && s.cur.gid = t.cur.gid && s.cur.bid = t.cur.bid then
    (if s.bun.atSwitch && !t.str.clause.words.isEmpty && s.str.clause.words.isEmpty then s.hangCtr + 1 else s.hangCtr)
  else 0

/-! ## The snapshot -/

/-- The identity of a stream (15 R366). -/
def streamId (g : Group) (b : Bundle) (acc : Bool) : Word :=
  BitVec.ofNat 32 (g.core + b.slot * 2 ^ 9 + bitOf acc 15 + b.bundle % 16 * 2 ^ 16 + g.group % 2 ^ 12 * 2 ^ 20)

/-- An edge: the waiter's word, KIND, OBJHI, OBJLO and HOLDER. -/
structure Edge where
  waiter : Word
  kind   : Nat
  hi     : Nat
  lo     : Nat
  holder : Word
  who    : Who
  deriving DecidableEq, Repr

/-- The unknown holder. -/
def noHolder : Word := 0xFFFFFFFF

/-- The lowest of some identities. -/
def lowestId (l : List Word) : Word := l.foldl (fun a x => if x.toNat < a.toNat then x else a) noHolder

/-- The holder of an ordered section: the lowest group of the launch that has not passed (15 R366). -/
def State.sectHolder (s : State) (g : Group) : Word :=
  let passed := match s.launch? g.serial with
    | some l => l.passed
    | none => []
  match (List.range g.group).find? fun h => !passed.contains h with
  | none => noHolder
  | some h =>
    match List.find? (fun (e : Who × Group × Bundle × Stream) => e.2.1.serial = g.serial && e.2.1.group = h) s.residents with
    | some e => lowestId ((e.2.1.bundles.map fun b => streamId e.2.1 b.2 false))
    | none => BitVec.ofNat 32 (2 ^ 31 + h)

/-- The holder of a barrier: the lowest stream of the group with no record of the current generation (15 R366). -/
def barHolder (g : Group) (b : Nat) : Word :=
  let gen := (Tab.get ({} : Bar) g.bars b).gen
  lowestId (g.bundles.flatMap fun e => [false, true].filterMap fun a =>
    let x := e.2.stream a
    if x.present && !x.ended && Tab.find? x.barRec b ≠ some gen then some (streamId g e.2 a) else none)

/-- The edge of a waiting stream (15 R366; KIND 12, 18 R401). A REFORM that stalls on full bins has KIND 0 and the node index, which
the manual gives no edge (DESIGN CHOICE, log 58). -/
def State.edgeOf (s : State) (r : Who × Group × Bundle × Stream) : Option Edge :=
  let (w, g, b, x) := r
  let mk := fun (k hi lo : Nat) (h : Word) =>
    some { waiter := streamId g b w.acc, kind := k, hi := hi % 2 ^ 27, lo := lo % 2 ^ 32, holder := h, who := w : Edge }
  let coll := fun (c : Ctx) => mk 12 (kId c.blk).toNat (kGroup c.blk) noHolder
  match x.wait with
  | .flags f =>
    (match x.outst.findSome? fun o => if o.seta = f ∨ o.setb = f then collOf g w o.id else none with
     | some c => coll c
     | none => mk 1 (x.flag f) f noHolder)
  | .barrier n => mk 2 (Tab.get ({} : Bar) g.bars n).gen n (barHolder g n)
  | .queue q room => mk 3 (if room then 1 else 0) q
      (if (b.stream (!w.acc)).present then streamId g b (!w.acc) else noHolder)
  | .tokens m => mk 4 0 m noHolder
  | .waita va _ => mk 5 (va / 2 ^ 32) va noHolder
  | .waitp off e _ =>
    (match List.find? (fun (c : Nat × Ctx) =>
        c.2.kind = .coll && c.2.st = .running && c.2.curA = 1 && kArrival c.2.blk = off) g.ctxs with
     | some c => coll c.2
     | none => mk 6 e.toNat off noHolder)
  | .sect => mk 7 0 g.node (s.sectHolder g)
  | .tile t => mk 8 (g.tile t).owner.code t (match Tab.find? g.mcmds t with
      | some c => streamId g (g.bundle c.bid) c.acc
      | none => noHolder)
  | .gbar => mk 9 0 g.node noHolder
  | .acquire => mk 10 0 g.node noHolder
  | .reform => mk 0 0 g.node noHolder
  | _ => none

/-- The edge of a stream that spins: its holder is the lowest-ranked ready bundle, itself (15 R366, R367). -/
def spinEdge (r : Who × Group × Bundle × Stream) : Edge :=
  let i := streamId r.2.1 r.2.2.1 r.1.acc
  { waiter := i, kind := 11, hi := 0, lo := r.2.1.node, holder := i, who := r.1 }

/-- Edges in ascending order of waiter identity. -/
def sortEdges : List Edge → List Edge
  | [] => []
  | e :: es =>
    let r := sortEdges es
    (r.filter fun f => f.waiter.toNat < e.waiter.toNat) ++ [e] ++ (r.filter fun f => !(f.waiter.toNat < e.waiter.toNat))

/-- The edges of the context as it stands. -/
def State.edges (s : State) : List Edge :=
  let spin := !s.hangIdle && s.spins
  sortEdges (s.residents.filterMap fun r =>
    if spin && r.1.gid = s.cur.gid && r.1.bid = s.cur.bid && (r.2.2.2.wait = .nothing || !waitsNow r.2.1 r.2.2.2) then some (spinEdge r)
    else s.edgeOf r)

/-- The words of a snapshot (15 R366). -/
def snapWords (clock : Nat) (es : List Edge) : List Word :=
  let n := min 256 es.length
  [BitVec.ofNat 32 n, BitVec.ofNat 32 es.length, if 256 < es.length then 1 else 0, 0, BitVec.ofNat 32 clock,
    BitVec.ofNat 32 (clock / 2 ^ 32)] ++ List.replicate 10 0 ++
  (es.take 256).flatMap fun e => [e.waiter, BitVec.ofNat 32 (e.hi + e.kind * 2 ^ 27), BitVec.ofNat 32 e.lo, e.holder]

/-- Words written to virtual memory 64 bytes at a time, on normal pages that may be written; a line that has no such page is left
out (DESIGN CHOICE, log 29). -/
def State.writeLines (s : State) (va : DWord) : Nat → List Word → State
  | 0, _ => s
  | n + 1, ws =>
    if ws.isEmpty then s
    else
      let s := match s.globAcc { core := 0, handler := true } va 2 [0] with
        | .ok (.mem x) => (s.touch 0 x 2).setHomeWords x.key (ws.take 16)
        | _ => s
      State.writeLines s (va + 64) n (ws.drop 16)

/-- HANG_DETECTION: the counter has reached HANGLIMIT. It returns to 0, the snapshot is written, and HANG is delivered to the
first X-stream among the edges, or reported; while a HANG is being handled, none is delivered (15 R365, R367). -/
def State.hangFire (s : State) : State :=
  let c := s.dev.ctl
  if s.hangCtr < c.hangLimit.toNat ∨ !(s.hangIdle || (s.spins && s.str.clause.words.isEmpty)) then s
  else
    let s := { s with hangCtr := 0 }
    if s.hangOut then s
    else
      let es := s.edges
      match es with
      | [] => s
      | e0 :: _ =>
        let s := if c.hangBuf = 0 then s else s.writeLines c.hangBuf 65 (snapWords s.clock es)
        match (if c.svec = 0xFFFFFFFF#32 then none else es.find? fun e => !e.who.acc) with
        | none => s.postErr [7, BitVec.ofNat 32 (min 256 es.length), e0.waiter, BitVec.ofNat 32 e0.kind]
        | some e =>
          { s with hangOut := true }.asWho e.who fun s =>
            let x := s.str
            let word := if x.clause.words.isEmpty then x.resumeAt else x.clause.idx + 1
            let n := if c.hangBuf = 0 then 0 else min 256 es.length
            let info := n + bitOf (256 < es.length) 9 + word * 2 ^ 10
            let k := if x.clause.words.isEmpty then s.countAt x.pc else x.countOf
            s.takeTrap { cause := cHANG, info := BitVec.ofNat 32 info, addr := c.hangBuf } k

/-- HANG_DETECTION (15 R365). -/
def execHangDetection (s : State) : Host.Outcome State Fault Refusal := .next s.tick.hangFire

end Sys2Proof.Machine
end

