-- ==== Sys2Proof/Machine/Load.lean ====
section
/-!
DEFINITION. Loading and swapping graphs: the checks of an image and of its LOAD message in their order, the swap, the freeze area,
and the new graph (02 R66; 05 R137 to R141, R417; 18 R392).
-/
namespace Sys2Proof.Machine

/-! ## Checks -/

/-- Key of a byte of local memory. -/
def localKey (pa : Nat) : Nat := memKey 0 pa

/-- Whether n bytes from a physical address lie within local memory: every region they touch holds memory (18 R379). -/
def State.localRange (s : State) (pa n : Nat) : Bool :=
  n = 0 || (decide (pa + n ≤ Config.localBytes) &&
    (List.range ((pa + n - 1) / 2 ^ 30 - pa / 2 ^ 30 + 1)).all fun i => s.localValid ((pa / 2 ^ 30 + i) * 2 ^ 30))

/-- Word at byte offset off of the image at a physical address. -/
def State.imageWord (s : State) (pa off : Nat) : Word := s.homeWord (localKey (pa + off))

/-- A load-error record: code, node, word, detail (05 R140). -/
abbrev LoadErr := List Word

/-- The record of a check of the header or the message, whose detail is the value found (log 59). -/
def loadErr (code word : Nat) (detail : Word) : LoadErr := [BitVec.ofNat 32 code, 0xFFFFFFFF, BitVec.ofNat 32 word, detail]

/-- The detail of the first check that fails, with its word. -/
def firstErr : List (Nat × Bool × Word) → Option (Nat × Word)
  | [] => none
  | (k, bad, d) :: t => if bad then some (k, d) else firstErr t

/-- The header's checks. A part of no bytes whose offset lies past the end of the image runs past it too (05 R137, R417; DESIGN CHOICE,
log 71). -/
def headerErr (h : List Word) (size : Word) : Option LoadErr :=
  let w := wordAt h
  let n := bits (w 0) 31 16
  let past := fun (a b : Nat) => decide (size.toNat < a + b)
  if size.toNat < 64 then some (loadErr 1 0 size)
  else
    (firstErr ([(0, bits (w 0) 15 0 ≠ 1 || n = 0 || decide (4096 < n), w 0),
      (1, (w 1).toNat % 4 ≠ 0, w 1), (1, past (w 1).toNat (w 2).toNat, size),
      (2, (w 2).toNat % 4 ≠ 0 || decide (2 ^ 31 < (w 2).toNat), w 2),
      (3, (w 3).toNat % 64 ≠ 0, w 3), (3, past (w 3).toNat (w 4).toNat, size),
      (4, decide (2 ^ 31 < (w 4).toNat), w 4),
      (5, (w 5).toNat % 256 ≠ 0, w 5), (5, past (w 5).toNat (256 * n), size),
      (6, bits (w 6) 31 6 ≠ 0, w 6)] ++ (List.range 9).map fun k => (7 + k, decide (w (7 + k) ≠ 0), w (7 + k)))).map
      fun e => loadErr 1 e.1 e.2

/-- Fields of a LOAD message (18 R392). -/
def mImage (m : List Word) : Nat := (pair64 (wordAt m 1) (wordAt m 2)).toNat
def mSize (m : List Word) : Word := wordAt m 3
def mSpill (m : List Word) : Nat := (pair64 (wordAt m 4) (wordAt m 5)).toNat
def mSpillSize (m : List Word) : Nat := (wordAt m 6).toNat
def mPool (m : List Word) : Nat := (pair64 (wordAt m 7) (wordAt m 8)).toNat
def mPoolSize (m : List Word) : Nat := (wordAt m 9).toNat
def mRetain (m : List Word) : Bool := bit (wordAt m 10) 0
def mResume (m : List Word) : Bool := bit (wordAt m 10) 1
def mFreeze (m : List Word) : Nat := (pair64 (wordAt m 11) (wordAt m 12)).toNat
def mFreezeSize (m : List Word) : Nat := (wordAt m 13).toNat
def mCodeWin (m : List Word) : DWord := pair64 (wordAt m 14) (wordAt m 15)

/-- The message's checks in ascending payload word order (18 R392). -/
def State.messageErr (s : State) (m : List Word) : Option LoadErr :=
  let w := wordAt m
  match firstErr [(1, mImage m % 64 ≠ 0 || !s.localRange (mImage m) (mSize m).toNat, w 1),
      (4, mSpill m % 65536 ≠ 0 || !s.localRange (mSpill m) (mSpillSize m), w 4),
      (6, mSpillSize m % 65536 ≠ 0 || decide (mSpillSize m < 256 * 65536), w 6),
      (7, decide (mPoolSize m ≠ 0) && (mPool m % 32 ≠ 0 || !s.localRange (mPool m) (32 * mPoolSize m)), w 7),
      (10, bits (w 10) 31 2 ≠ 0, w 10),
      (11, mRetain m && (mFreeze m % 65536 ≠ 0 || !s.localRange (mFreeze m) (mFreezeSize m)), w 11)] with
  | some e => some (loadErr 2 e.1 e.2)
  | none =>
    if mResume m then none
    else (firstErr [(14, decide (w 14 ≠ 0), w 14), (15, bit (w 15) 24, w 15)]).map fun e => loadErr 11 e.1 e.2

/-- The first byte, from an offset on, whose page of the code window does not serve: absent, not at TARGET 0, not normal, or
with the wrong EXEC or WRITE (02 R66). -/
def State.mapErr (s : State) (win : Nat) (code : Bool) : Nat → Nat → Nat → Option Nat
  | 0, _, _ => none
  | fuel + 1, off, stop =>
    if stop ≤ off then none
    else
      match s.walk (win + off) with
      | .ok x =>
        if keyTarget x.key ≠ 0 ∨ x.kind ≠ 0 ∨ x.leaf.getLsbD 11 ≠ code ∨ (code ∧ x.leaf.getLsbD 10) then some off
        else State.mapErr s win code fuel (off + (2 ^ x.size - (win + off) % 2 ^ x.size)) stop
      | _ => some off

/-- The code window's check (02 R66, 05 R140). -/
def State.windowErr (s : State) (win : DWord) (code const : Nat) : Option LoadErr :=
  let bad := fun (o : Nat) => some (loadErr 12 14 (BitVec.ofNat 32 o))
  if !canonical win then bad 0
  else
    match s.mapErr win.toNat true (code / 4096 + 2) 0 code with
    | some o => bad o
    | none =>
      match s.mapErr win.toNat false (const / 4096 + 2) (2 ^ 31) (2 ^ 31 + const) with
      | some o => bad o
      | none => none

/-- The least scope of a domain (04 R104). -/
def leastScope (d : Nat) : Nat := [0, 0, 0, 1, 2, 2, 3].getD d 0

/-- Most that the extents of a domain may multiply to; lane's is W, checked apart (04 R104). -/
def domainCap (d : Nat) : Nat := [0, 16, 8, 8, 16, 4, 4096].getD d 0

/-- The checks of a node record that one word decides, in ascending word order (05 R138, R140; 04 R100, R105, R131; 07 R167). The
detail of a HEADER or FIELD error, of LEVELS out of range and of WCODE is the word or field found, and of several bad fields of one
word FIELD goes before HIERARCHY and WIDTH (DESIGN CHOICE, log 59). -/
def nodeWordErr (r : List Word) (codeSize : Nat) : List (Nat × Nat × Bool × Word) :=
  let w := wordAt r
  let n := nLevels r
  let entry := fun (x : Word) => x.toNat % 4 ≠ 0 || decide (codeSize ≤ x.toNat)
  [(2, 0, entry (w 0), w 0), (2, 1, decide (w 1 ≠ 0xFFFFFFFF#32) && entry (w 1), w 1),
   (2, 2, bits (w 2) 31 25 ≠ 0 || decide (64 < nNB r) || bits (w 2) 6 3 ≠ 0, w 2),
   (3, 2, n = 0 || decide (8 < n), BitVec.ofNat 32 n), (6, 2, decide (4 < nWcode r), BitVec.ofNat 32 (nWcode r)),
   (2, 3, bits (w 3) 31 10 ≠ 0, w 3), (2, 4, bits (w 4) 15 10 ≠ 0, w 4),
   (2, 5, bit (w 5) 15 || decide (32 < nCarry r) || decide (8 < nTiles r) || decide (nGslots r < 8) || decide (96 < nGslots r), w 5),
   (2, 6, nProscr r % 256 ≠ 0, w 6),
   (2, 7, nScratch r % 256 ≠ 0 || decide (nScratch r < nProscr r) || decide (Config.scratchBytes < nScratch r), w 7),
   (2, 8, nSpillsz r % 256 ≠ 0 || decide (nSpillsz r < 512), w 8), (2, 10, bits (w 10) 31 24 ≠ 0, w 10),
   (2, 11, decide (w 11 ≠ 0), w 11), (2, 14, decide (w 14 ≠ 0), w 14), (2, 15, decide (w 15 ≠ 0), w 15)] ++
  ((List.range 8).flatMap fun k =>
    let x := w (16 + k)
    let d := bits x 18 16
    [(2, 16 + k, (decide (n ≤ k) && decide (x ≠ 0)) || bits x 31 21 ≠ 0, x),
     (3, 16 + k, decide (k < n) && (bits x 15 0 = 0 || d = 7 || decide (bits x 20 19 < leastScope d)), BitVec.ofNat 32 k)]) ++
  (List.range 24).map fun k => (2, 40 + k, decide (w (40 + k) ≠ 0), w (40 + k))

/-- The first level of a list that satisfies p. -/
def firstLevel (r : List Word) (p : Nat → Bool) : Option Nat := (List.range (nLevels r)).find? p

/-- What a word of a CTL clause does to the flow of control at a code offset: its C-format target, and whether the next clause is
reached (02 R67 to R71). -/
def flowOf (pc off : Nat) (w : Word) : Option Nat × Option Nat × Bool :=
  let t := fun (o : BitVec 21) => some (((pc : Int) + 4 * o.toInt) % 2 ^ 32).toNat
  match decode w with
  | some (.bra o) => (none, t o, false)
  | some (.brany _ o) | some (.brall _ o) | some (.brnone _ o) | some (.call o) => (none, t o, true)
  | some (.reform _ o) => (some off, t o, true)
  | some .ret | some (.jmpr _) | some .exit | some .rte | some .rteSkip => (none, none, false)
  | _ => (none, none, true)

/-- REFORM words reachable from code offsets by fall-through and C-format targets: the lowest offset found (05 R140). -/
def reformFrom (word : Nat → Word) (size : Nat) : Nat → List Nat → List Nat → Option Nat → Option Nat
  | 0, _, _, best => best
  | _, [], _, best => best
  | fuel + 1, pc :: todo, seen, best =>
    let h := word pc
    let n := hCount h
    if size ≤ pc ∨ seen.contains pc ∨ hTag h ≠ 3 ∨ n = 0 ∨ size ≤ pc + 4 * n then reformFrom word size fuel todo seen best
    else
      let fs := if hClass h = .ctl then (List.range n).map fun i => flowOf pc (pc + 4 * (i + 1)) (word (pc + 4 * (i + 1))) else []
      let next := if fs.all (·.2.2) then [pc + 4 * (n + 1)] else []
      let best := fs.foldl (fun (b : Option Nat) f => match f.1, b with
        | some o, some p => some (min o p)
        | some o, none => some o
        | none, b => b) best
      reformFrom word size fuel (fs.filterMap (·.2.1) ++ next ++ todo) (pc :: seen) best

/-- The checks of a node that concern several words, in the order of R140's table; word gives the code. -/
def nodeErr (r : List Word) (word : Nat → Word) (codeSize : Nat) : List (Nat × Nat × Bool × Word) :=
  let n := nLevels r
  let dom := nDomain r
  let lane := firstLevel r fun k => dom k = 0
  let level := fun (o : Option Nat) => (3, 16 + o.getD 0, o.isSome, BitVec.ofNat 32 (o.getD 0))
  let laneIf := fun (b : Bool) => if b then lane else none
  let lanes := nProd r fun d => d = 0
  let area := nCoal r * nRecw r * 4
  let upper := firstLevel r fun k => decide (2 ≤ dom k)
  let ref := if nHasA r then reformFrom word codeSize (17 * (codeSize / 4 + 1)) [(wordAt r 0).toNat] [] none else none
  [level ((List.range n).find? fun k => decide (0 < k) && decide (dom k < dom (k - 1))),
   (3, 2, lane.isNone, 0xFFFFFFFF),
   level (firstLevel r fun k => decide (1 ≤ dom k) && decide (domainCap (dom k) < nProd r fun d => d = dom k)),
   level (laneIf (match widthOf (nWcode r) with
     | some w => decide (lanes ≠ w)
     | none => nT r % 64 ≠ 0 || decide (1024 < nT r))),
   (2, 4, nCamera r && decide (nCoal r ≠ 1), BitVec.ofNat 32 (nCoal r - 1)),
   (2, 2, nCamera r && decide (nRecw r < 4), BitVec.ofNat 32 (nRecw r - 1)),
   (3, 16 + upper.getD 0, nCamera r && upper.isSome, BitVec.ofNat 32 (upper.getD 0)),
   (7, 6, decide (nProscr r < area), BitVec.ofNat 32 area),
   (5, 1, ref.isSome, BitVec.ofNat 32 (ref.getD 0)),
   (8, 2, nCap r = 0, 0),
   (4, 3, nCohort r && (decide (Config.cores * nCap r < nGL r) || decide (nCap r < nGcore r)), BitVec.ofNat 32 (nGL r))]

/-- The first failing check of a list, as the record of a node. -/
def nodeRecord (node : Nat) : List (Nat × Nat × Bool × Word) → Option LoadErr
  | [] => none
  | (code, word, bad, d) :: t => if bad then some [BitVec.ofNat 32 code, BitVec.ofNat 32 node, BitVec.ofNat 32 word, d] else nodeRecord node t

/-- The nodes' checks in ascending index (05 R140). -/
def nodesErr (nodes : List (List Word)) (word : Nat → Word) (codeSize : Nat) : Option LoadErr :=
  (List.range nodes.length).findSome? fun i =>
    let r := nodes.getD i []
    match nodeRecord i (nodeWordErr r codeSize) with
    | some e => some e
    | none => nodeRecord i (nodeErr r word codeSize)

/-- The header and node records of the image a message names. -/
def State.imageHeader (s : State) (m : List Word) : List Word := (List.range 16).map fun k => s.imageWord (mImage m) (4 * k)
def State.imageNodes (s : State) (m : List Word) : List (List Word) :=
  let h := s.imageHeader m
  (List.range (bits (wordAt h 0) 31 16)).map fun i =>
    (List.range 64).map fun k => s.imageWord (mImage m) ((wordAt h 5).toNat + 256 * i + 4 * k)

/-- The graph in the freeze area a message names, where the area still holds it (18 R392). -/
def State.frozenAt (s : State) (m : List Word) : Option Frozen :=
  s.frozen.find? fun f => f.pa = mImage m && s.homeBytes (localKey f.pa) f.img.length = f.img && !s.poisonedIn (localKey f.pa) f.img.length

/-- The checks of a LOAD, in the order of R140; under RESUME the image is a freeze area, whose own check stands for the header's
and the nodes' (DESIGN CHOICE, log 30). -/
def State.loadCheck (s : State) (m : List Word) : Option LoadErr :=
  let root := if s.dev.ctl.ptRoot = 0 then some (loadErr 10 0 0) else none
  if mResume m then
    match s.frozenAt m with
    | none => some (loadErr 1 0 (s.imageWord (mImage m) 0))
    | some f => ((s.messageErr m).or root).or (s.windowErr f.graph.codeWin f.graph.codeSize f.graph.constSize)
  else
    let h := s.imageHeader m
    match ((headerErr h (mSize m)).or (s.messageErr m)).or root with
    | some e => some e
    | none =>
      let code := (wordAt h 2).toNat
      match s.windowErr (mCodeWin m) code (wordAt h 4).toNat with
      | some e => some e
      | none => nodesErr (s.imageNodes m) (fun o => s.imageWord (mImage m) ((wordAt h 1).toNat + o)) code

/-! ## Replies -/

/-- A class 1 reply: code and detail words (18 R382, R383). A mailbox without a ring drops it, and is not held by it. -/
def State.reply (s : State) (m seq code : Nat) (detail : List Word) : State :=
  let s := s.post m 1 seq (BitVec.ofNat 32 code :: detail)
  let x := s.mbox m
  if x.ring.isNone then s.setMbox m { x with busy := false } else s

/-! ## LOAD -/

/-- A LOAD whose checks pass makes a request for all classes, and waits for every group (18 R392, steps 1 and 2). -/
def State.startLoad (s : State) (m seq : Nat) (words : List Word) : State :=
  let s := (s.setMbox m { s.mbox m with busy := true }).backInv (localKey (mImage words)) (mSize words).toNat
  match s.loadCheck words with
  | some e => s.reply m seq 7 e
  | none =>
    let s := s.journal 8 0 255 0
    let s := { s with dev := { s.dev with swap := true }, preempt := { s.preempt with swap := true },
                      loading := some { mbox := m, seq := seq, words := words } }
    s.requestGroups fun _ => true

/-- The swap's request is withdrawn (18 R392, step 5). -/
def State.endSwap (s : State) : State :=
  let s := s.journal 8 0 255 1
  { s with dev := { s.dev with swap := false }, preempt := { s.preempt with swap := false }, loading := none }.releaseGroups

/-- Bytes placed in virtual memory by the device itself, page by page (02 R66). -/
def State.place (s : State) (va : Nat) : Nat → Nat → Nat → State
  | 0, _, _ => s
  | fuel + 1, src, n =>
    if n = 0 then s
    else
      match s.walk va with
      | .ok x =>
        let k := min n (4096 - va % 4096)
        let t := s.homeWrite x.key (s.homeBytes src k)
        let bad := ((List.range (k / 8 + 1)).filter fun i => s.poisonedAt (src + 8 * i) && decide (8 * i < k)).map fun i => (x.key + 8 * i) / 8
        State.place { t with poisoned := bad ++ t.poisoned.filter fun u => !bad.contains u } (va + k) fuel (src + k) (n - k)
      | _ => s

/-- The generation a load takes: the counter's next value that neither the graph being replaced nor a frozen one holds (05 R141). -/
def nextGen (used : List Nat) : Nat → Nat → Nat
  | 0, g => g % 65535 + 1
  | fuel + 1, g => let h := g % 65535 + 1; if used.contains h then nextGen used fuel h else h

/-- Groups and records a swap discards (18 R392, step 3). -/
def State.swapCounts (s : State) : Nat × Nat :=
  match s.graph with
  | none => (0, 0)
  | some g => ((s.groups.filter fun e => e.2.st = .saved).length + s.pendingGroups, g.bins.foldl (fun a b => a + b.2.length) 0)

/-- The old graph leaves: discarded and reported, or kept in the freeze area; none where the area is too small (18 R392, steps 3
and 4). -/
def State.leaveGraph (s : State) (m : List Word) : Option State :=
  match s.graph with
  | none => some s
  | some g =>
    let gone := fun (s : State) => { s with graph := none, groups := [], dev := { s.dev with nstats := [], kicks := [] } }
    if mRetain m then
      let img := Config.freezeImage s.freeCtr
      let s := { s with freeCtr := s.freeCtr + 1 }
      if mFreezeSize m < img.length then none
      else
        let c := s.dev.ctl
        let f : Frozen := { pa := mFreeze m, img := img, graph := g, groups := s.groups, nstats := s.dev.nstats,
                            vecs := (c.tvecx, c.tveca, c.svec) }
        let s := s.homeWrite (localKey (mFreeze m)) img
        some (gone { s with frozen := f :: s.frozen.filter fun h => h.pa ≠ f.pa })
    else
      let (ng, nr) := s.swapCounts
      some ((gone (s.groups.foldl (fun s e => s.dropColls e.1) s)).postStatus 5 (BitVec.ofNat 32 ng) (BitVec.ofNat 32 nr) 0)

/-- The new graph of an image, with its code and constants placed (02 R66, 05 R137, 18 R392 step 5). -/
def State.enterGraph (s : State) (m : List Word) (gen : Nat) : State :=
  let h := s.imageHeader m
  let win := (mCodeWin m).toNat
  let code := (wordAt h 2).toNat
  let const := (wordAt h 4).toNat
  let src := fun (w : Word) => localKey (mImage m + w.toNat)
  let g : Graph := {
    header := h, nodes := s.imageNodes m, codeWin := mCodeWin m, gen := gen, codeSize := code, constSize := const,
    errBox := bits (wordAt h 6) 5 0, spill := mSpill m, spillSize := mSpillSize m, poolVa := mPool m, poolSize := mPoolSize m,
    image := s.homeBytes (localKey (mImage m)) (mSize m).toNat }
  let s := s.place win (code / 4096 + 2) (src (wordAt h 1)) code
  let s := s.place (win + 2 ^ 31) (const / 4096 + 2) (src (wordAt h 3)) const
  let c := s.dev.ctl
  { s with graph := some g, loads := gen,
           dev := { s.dev with ctl := { c with tvecx := 0xFFFFFFFF, tveca := 0xFFFFFFFF, svec := 0xFFFFFFFF } } }

/-- A frozen graph reinstated with its generation, bins, groups, status, CODEWIN and vectors; its Pod spill area and waiter pool
are the message's (18 R392). -/
def State.resumeGraph (s : State) (m : List Word) (f : Frozen) : State :=
  let c := s.dev.ctl
  let g := { f.graph with spill := mSpill m, spillSize := mSpillSize m, poolVa := mPool m, poolSize := mPoolSize m, pool := [] }
  let kicks := (g.launches.filter fun l => l.2.nextUp.isSome).map fun l => l.2.node
  { s with graph := some g, groups := f.groups,
           dev := { s.dev with nstats := f.nstats, kicks := kicks,
                               ctl := { c with tvecx := f.vecs.1, tveca := f.vecs.2.1, svec := f.vecs.2.2 } } }

/-- Whether every group has retired or stands saved (18 R392, step 2). -/
def State.swapReady (s : State) : Bool := s.loading.isSome && (Tab.vals s.groups).all fun g => g.st = .saved

/-- LOAD_INSTALL, steps 3 to 5: the old graph leaves, the new one enters, the request is withdrawn, and DONE is replied (18 R392). -/
def State.installLoad (s : State) : State :=
  match s.loading with
  | none => s
  | some q =>
    if !s.swapReady then s
    else
      let m := q.words
      let old := s.graph.toList.map (·.gen)
      let back := s.frozen.find? fun f => f.pa = mImage m
      match s.leaveGraph m with
      | none => (s.endSwap).reply q.mbox q.seq 7 (loadErr 9 13 (wordAt m 13))
      | some s =>
        let used := old ++ (s.frozen.filter (·.live)).map (·.graph.gen)
        let s := match (if mResume m then back else none) with
          | some f => s.resumeGraph m f
          | none => s.enterGraph m (nextGen used 65535 s.loads)
        let gen := match s.graph with
          | some g => g.gen
          | none => 0
        (s.endSwap).reply q.mbox q.seq 0 [BitVec.ofNat 32 gen]

/-- LOAD_INSTALL (18 R392). -/
def execLoadInstall (s : State) : Host.Outcome State Fault Refusal := .next s.tick.installLoad

end Sys2Proof.Machine
end

