-- ==== Sys2Proof/Machine/Start.lean ====
section
/-!
DEFINITION. Reliability, repair and start-up: lost cores (19 R402), corrected errors and spares (R403), bank substitution (R404),
the start sequence, minimal mode and device reset (R405, R408, R418), and the two Hull controllers (18 R390).
-/
namespace Sys2Proof.Machine

/-- The device replaced. -/
def State.mapDev (s : State) (f : Device → Device) : State := { s with dev := f s.dev }

/-! ## Timing detectors -/

/-- The lanes, of registers with given names, that held a result of the lost cycle, joined with those poisoned before. -/
def lostLanes (tag gid b : Nat) (names : List Nat) (w : Nat) (f : Nat → Nat) (old : List (Nat × Nat)) : List (Nat × Nat) :=
  let all := names.flatMap fun r => (List.range w).filterMap fun i => if Config.lostLane tag gid b (f r) i then some (r, i) else none
  all ++ old.filter fun p => !all.contains p

/-- Poison in the entries and held pushes of queue q that held a result of the lost cycle (01 R21, 11 R253, 19 R402). -/
def lostQueue (tag gid b w : Nat) (q : Nat × Queue) : Nat × Queue :=
  let lost := fun (place : Nat) => (List.range w).filter fun i => Config.lostLane tag gid b (0x200 + 16 * q.1 + place) i
  let held := fun (acc : Bool) (vs : List Val) => (List.range vs.length).flatMap fun j =>
    (lost ((if acc then 8 else 4) + j)).map fun i => (acc, j, i)
  let x := q.2
  (q.1, { x with
    ents := (List.range x.ents.length).map fun j =>
      let e := x.ents.getD j { val := .u 0 }
      { e with bad := e.bad ++ (lost j).filter fun i => !e.bad.contains i },
    heldBad := x.heldBad ++ (held false x.heldX ++ held true x.heldA).filter fun h => !x.heldBad.contains h })

/-- Poison in the registers of a bundle that held a result of the cycle a core lost: v, o and l registers, queues, k registers of both
streams, x registers. Which they are the manual does not fix (19 R402, 15 R350; log 31). -/
def lostPoison (tag gid w : Nat) (b : Nat × Bundle) : Bundle :=
  let x := b.2.xs
  let a := b.2.as
  { b.2 with poison := lostLanes tag gid b.1 (List.range 0x6A) w id b.2.poison,
             queues := b.2.queues.map (lostQueue tag gid b.1 w),
             xs := { x with bad := lostLanes tag gid b.1 (List.range 16) w (0x100 + ·) x.bad },
             as := { a with bad := lostLanes tag gid b.1 (List.range 16 ++ (List.range 32).map (32 + ·)) 1 (0x120 + ·) a.bad } }

/-- Poison in the 8-byte units of memory that held a result of the lost cycle, whichever they are; the core's copies of them leave its L1
(19 R402, 15 R350; log 31). -/
def State.lostMem (s : State) (core tag : Nat) : State :=
  let units := (Config.lostUnits tag).eraseDups
  { s with l1 := Tab.put s.l1 core ((s.l1Of core).filter fun c => !units.contains (c.1 / 8)),
           poisoned := units ++ s.poisoned.filter fun u => !units.contains u }

/-- A core is lost: its results of the cycle are poisoned, it admits nothing more, its groups are saved to be restored elsewhere,
and CORELOST is posted (19 R402). Cores run in normal mode alone (19 R405, R408). -/
def State.loseCore (s : State) (core : Nat) : State :=
  if s.dev.coresOut.contains core ∨ Config.cores ≤ core ∨ s.dev.mode ≠ 0 then s
  else
    let (tag, s) := s.drawFree
    let lose := fun (e : Nat × Group) =>
      if e.2.core = core ∧ (e.2.st = .prologue ∨ e.2.st = .full) then
        (e.1, { e.2 with saving := some (e.2.saving.getD 1), bundles := e.2.bundles.map fun b => (b.1, lostPoison tag e.1 e.2.w b) })
      else e
    let s := { s with groups := s.groups.map lose }.lostMem core tag
    let s := s.mapDev fun d => { d with coresOut := core :: d.coresOut }
    s.postStatus 8 (BitVec.ofNat 32 core) 0 0

/-- TIMING_DETECTOR_FIRE: the n-th firing of one cycle. The cycle is replayed after the first and the second; the third loses the
core (19 R402). -/
def execTimingDetectorFire (core n : Nat) (s : State) : Host.Outcome State Fault Refusal :=
  let s := s.tick
  .next (if 3 ≤ n then s.loseCore core else s)

/-! ## Corrected errors -/

/-- Distinct members of a list. -/
def distinct (l : List Nat) : List Nat := l.foldl (fun a x => if a.contains x then a else a ++ [x]) []

/-- The class of a bank's entries, as (row, column) from the oldest on, and the row, column or row of the cell that its pattern lies
in: 3 bank, 1 row, 2 column, 0 cell. The oldest entry that shows a pattern names it (19 R403; log 32). -/
def errorClass (es : List (Nat × Nat)) : Option (Nat × Nat) :=
  let rows := es.map (·.1)
  let cols := es.map (·.2)
  if 8 ≤ (distinct rows).length ∧ 8 ≤ (distinct cols).length then some (3, 0)
  else
    match rows.find? fun r => 3 ≤ (distinct ((es.filter fun e => e.1 = r).map (·.2))).length with
    | some r => some (1, r)
    | none =>
      match cols.find? fun c => 3 ≤ (distinct ((es.filter fun e => e.2 = c).map (·.1))).length with
      | some c => some (2, c)
      | none => (es.find? fun e => 2 ≤ es.count e).map fun e => (0, e.1)

/-- Spares of a kind a bank has used. -/
def State.sparesUsed (s : State) (stack bank kind : Nat) : Nat :=
  ((Tab.get [] s.dev.spares stack).filter fun p => p = (bank, kind)).length

/-- REPAIR of a stack, posted (19 R403). -/
def State.postRepair (s : State) (stack cls n : Nat) : State :=
  s.postStatus 9 (BitVec.ofNat 32 stack) (BitVec.ofNat 32 (cls * 2 ^ 24 + n % 2 ^ 24)) 0

/-- A bank classified Bank: a spare bank takes its place, or none is left. A spare bank itself has none: REPAIR names banks 0 to 63
(19 R403, R404; log 32). -/
def State.substBank (s : State) (stack bank : Nat) : State :=
  let used := Tab.get [] s.dev.banksUsed stack
  if used.any fun u => u.1 = bank then s
  else if 2 ≤ used.length ∨ 64 ≤ bank then s.postStatus 10 (BitVec.ofNat 32 stack) (BitVec.ofNat 32 bank) 0
  else
    let new := 64 + used.length
    let s := s.mapDev fun d => { d with
      banksUsed := Tab.put d.banksUsed stack (used ++ [(bank, new)]),
      bankMig := Tab.put d.bankMig stack (Tab.get [] d.bankMig stack ++ [(bank, new, 0)]) }
    s.postRepair stack 3 bank

/-- A row or column spare: used where one is left, the classified entries leaving the table; else the bank is replaced (19 R403). -/
def State.spareLine (s : State) (stack bank kind n : Nat) : State :=
  if Config.spareCount kind ≤ s.sparesUsed stack bank kind then s.substBank stack bank
  else
    let gone := fun (e : Nat × Nat × Nat) => e.1 = bank && (if kind = 1 then e.2.1 = n else e.2.2 = n)
    let s := s.mapDev fun d => { d with
      spares := Tab.put d.spares stack ((bank, kind) :: Tab.get [] d.spares stack),
      cetab := Tab.put d.cetab stack ((Tab.get [] d.cetab stack).filter fun e => !gone e) }
    s.postRepair stack kind n

/-- CORRECTED_ERROR: the entry is written, the oldest leaving a full table, and the table of the bank it lies in is classified, on
which the Hull acts while a controller works (19 R403, 18 R390; DEDUCED, log 32). -/
def State.corrected (s : State) (stack bank row col : Nat) : State :=
  if s.dev.mode ≠ 0 ∨ 12 ≤ stack then s
  else
    let t := (Tab.get [] s.dev.cetab stack ++ [(bank, row, col)])
    let t := t.drop (t.length - 64)
    let s := s.mapDev fun d => { d with cetab := Tab.put d.cetab stack t }
    match if s.dev.hulls = 0 then none else errorClass ((t.filter fun e => e.1 = bank).map (·.2)) with
    | some (3, _) => s.substBank stack bank
    | some (1, row) => s.spareLine stack bank 1 row
    | some (2, col) => s.spareLine stack bank 2 col
    | some (_, row) => s.postRepair stack 0 row
    | none => s

/-- CORRECTED_ERROR (19 R403). -/
def execCorrectedError (stack bank row col : Nat) (s : State) : Host.Outcome State Fault Refusal := .next (s.tick.corrected stack bank row col)

/-- REPAIR word 10 (19 R404). -/
def repairWord (mig subst : Bool) (new old : Nat) : Word :=
  BitVec.ofNat 32 ((if mig then 2 ^ 31 else 0) + (if subst then 2 ^ 30 else 0) + new * 2 ^ 8 + old)

/-- The hash descriptor of a region. -/
def State.hashOf (s : State) (r : Nat) : HashD := Tab.get {} s.dev.hash r

/-- BANK_MIGRATION_CHUNK: one more chunk of the migration under way in a stack: the region's REPAIR names the banks under MIG, the
chunk's DONE bit is set, and after its 128th chunk SUBST stands and MIG is clear; regions follow in ascending order. The Hull does
it (19 R404). -/
def State.migrate (s : State) (stack : Nat) : State :=
  match if s.dev.hulls = 0 then [] else Tab.get [] s.dev.bankMig stack with
  | [] => s
  | (old, new, k) :: rest =>
    let r := 48 * stack + k / 128
    let c := k % 128
    let d := s.hashOf r
    let done := if c = 0 then 1 else d.done + 2 ^ c
    let last := decide (c = 127)
    let d := { d with repair := repairWord (!last) last new old, done := done }
    let q := if k + 1 = 48 * 128 then rest else (old, new, k + 1) :: rest
    s.mapDev fun v => { v with hash := Tab.put v.hash r d, bankMig := Tab.put v.bankMig stack q }

/-- BANK_MIGRATION_CHUNK (19 R404). -/
def execBankMigrationChunk (stack : Nat) (s : State) : Host.Outcome State Fault Refusal := .next (s.tick.migrate stack)

/-! ## Hull controllers -/

/-- The journal entries after the last CHECKPOINT. -/
def journalTail (j : List (List Word)) : List (List Word) := j.takeWhile fun e => bits (wordAt e 1) 31 24 ≠ 1

/-- Acknowledge the n oldest completions. -/
def State.ackMany (s : State) : Nat → State
  | 0 => s
  | n + 1 => State.ackMany s.ackCompletion n

/-- A decision of the Hull: its entry is written, and it is performed where it still can be: 0 a completion acknowledged, 1 a group of a
launch admitted, 2 a group saved, 3 one restored, 4 a bin's timer (18 R389). -/
def State.decide1 (s : State) (d : Nat × Nat × Nat) : State :=
  match d.1 with
  | 0 => s.ackCompletion
  | 1 => s.admission d.2.1 d.2.2
  | 2 => if s.canSave d.2.1 then s.saveGroup d.2.1 else s
  | 3 => if s.canRestore d.2.1 d.2.2 then s.restoreGroup d.2.1 d.2.2 else s
  | _ => s.binTimer d.2.1

/-- HULL_TAKEOVER: the standby takes over. The replay finds the entries after the last CHECKPOINT performed, but for those the primary
had written last, which it performs; these are free here, and each is one of the decisions the Hull could make (log 64). Then kicks are
rescanned, the completions acknowledged, and TAKEOVER posted (18 R390). -/
def State.takeover (s : State) : State :=
  if s.dev.hulls ≠ 2 then s
  else
    let n := s.dev.fifo.length
    let (tag, s) := s.drawFree
    let s := (Config.unperformed tag).foldl State.decide1 s
    let last := match journalTail s.dev.journal with
      | e :: _ => wordAt e 0
      | [] => s.dev.serial
    let s := s.mapDev fun d => { d with hulls := 1 }
    let s := (List.range 4096).foldl (fun s k => if (s.bin k).isEmpty then s else s.binTimer k) s
    let s := s.ackMany n
    let s := s.postStatus 3 last (BitVec.ofNat 32 n) 0
    s.mapDev fun d => { d with standby := false }

/-- HULL_TAKEOVER (18 R390). -/
def execHullTakeover (s : State) : Host.Outcome State Fault Refusal := .next s.tick.takeover

/-- HULL_FAILURE: the sole controller fails; the context is reset, HULLFAIL is posted, and only a device reset is accepted
(18 R390). -/
def State.hullFail (s : State) : State :=
  if s.dev.hulls ≠ 1 then s
  else
    let serial := s.dev.serial
    let s := (s.contextReset 0 0).postStatus 4 serial 0 0
    s.mapDev fun d => { d with hulls := 0 }

/-- HULL_FAILURE (18 R390). -/
def execHullFailure (s : State) : Host.Outcome State Fault Refusal := .next s.tick.hullFail

/-! ## Device reset and the start sequence -/

/-- Memory after a device reset: every local byte is unknown and may carry poison; the host's and the peers' memory stands (19 R418; log
1). -/
def State.forgetMem (s : State) : State :=
  let (tag, s) := s.drawFree
  let isLocal := fun (k : Nat) => keyTarget k = 0
  let kept : Bytes := s.mem.filter fun (c : Nat × Byte) => !isLocal c.1
  let now := (Config.resetMem tag).filter fun (c : Nat × Byte) => isLocal c.1
  { s with mem := now.foldl (fun m c => Bytes.write m c.1 c.2) kept,
           poisoned := (((Config.resetPoison tag).filter fun u => isLocal (8 * u)).eraseDups) ++ s.poisoned.filter fun u => !isLocal (8 * u) }

/-- The stored substitutions applied to region descriptors at their reset values, as stage 4 does (18 R379, 19 R404, R405, R418). -/
def repairedHash (used : Tab (List (Nat × Nat))) : Tab HashD :=
  used.flatMap fun e =>
    match e.2.getLast? with
    | none => []
    | some (old, new) => (List.range 48).map fun i => (48 * e.1 + i, ({ repair := repairWord false true new old, done := 2 ^ 128 - 1 } : HashD))

/-- DEVICE_RESET: everything returns to its reset value but always-on storage, host memory and the peers'; the start sequence is
to run (19 R405, R418). -/
def State.resetDevice (s : State) : State :=
  let s := s.forgetMem
  let d := s.dev
  { State.reset with
    mem := s.mem, poisoned := s.poisoned, overlay := s.overlay.filter (fun l => decide (keyTarget (64 * l.1) ≠ 0)), frozen := s.frozen.map fun f => { f with live := false },
    freeCtr := s.freeCtr, nextGid := s.nextGid, agenda := s.agenda,
    dev := { mode := 2, standby := false, hulls := 0, failCount := d.failCount, bootStage := d.bootStage, bootCode := d.bootCode,
             spares := d.spares, banksUsed := d.banksUsed, fuses := d.fuses, store := d.store } }

/-- The code of the first check that a copy of the firmware store fails, 0 where it passes: 0 names copy A, 1 copy B (19 R406). -/
def Device.fwCode (d : Device) (k : Nat) : Nat := Machine.fwCode d.fuses (if k = 0 then d.store.1 else d.store.2)

/-- The failure of one run of the start sequence: its stage and code (19 R405, R406); none where it reaches stage 6 or, with the
counter at 3, minimal mode. -/
def Device.startFailure (d : Device) (r : StartRun) : Option (Nat × Nat) :=
  if !r.romOk then some (1, 1)
  else if !r.fusesOk then some (2, 1)
  else if d.failCount = 3 then none
  else if d.fwCode 0 ≠ 0 ∧ d.fwCode 1 ≠ 0 then some (3, d.fwCode 1)
  else
    match r.stack with
    | some k => some (4, 16 + k)
    | none => if !r.primaryOk then some (5, 1) else if !r.standbyOk then some (5, 2) else none

/-- Runs of the start sequence, one after another, until one succeeds or enters minimal mode; a failure adds 1 to the counter,
which stays at 3 (19 R405). With no run left the device is still starting. A run that passes stage 4 applies the stored repairs; one
that enters minimal mode trains no memory (19 R408). -/
def State.startRuns (s : State) : List StartRun → State
  | [] => s
  | r :: rs =>
    let d := s.dev
    match d.startFailure r with
    | some (stage, code) =>
      State.startRuns (s.mapDev fun d => { d with failCount := min 3 (d.failCount + 1), bootStage := stage, bootCode := code }) rs
    | none =>
      if d.failCount = 3 then s.mapDev fun d => { d with mode := 1, hulls := 1 }
      else s.mapDev fun d => { d with mode := 0, failCount := 0, hulls := 2, standby := true, hash := repairedHash d.banksUsed,
                                       fw := if d.fwCode 0 = 0 then 0 else 1 }

/-- DEVICE_RESET, with what the runs of the start sequence find (19 R405). -/
def execDeviceReset (runs : List StartRun) (s : State) : Host.Outcome State Fault Refusal := .next (s.resetDevice.startRuns runs)

end Sys2Proof.Machine
end

