-- ==== Sys2Proof/Machine/Attest.lean ====
section
/-!
DEFINITION. DEVSTAT (18 R380) and the attestation report (19 R407).
-/
namespace Sys2Proof.Machine

/-! ## The report -/

/-- DEVSTAT (18 R380). -/
def State.devstat (s : State) : Word :=
  let d := s.dev
  BitVec.ofNat 32 (d.mode + bitOf s.graph.isSome 2 + bitOf d.standby 3 + bitOf d.swap 4)

/-- The firmware copy that runs (19 R406). -/
def Device.running (d : Device) : List Byte := if d.fw = 0 then d.store.1 else d.store.2

/-- The part of a report that is signed: bytes 0x000 to 0x147 (19 R407); in minimal mode the recovery firmware answers, with a hash of
zero (R408). -/
def State.reportBody (s : State) (nonce : List Word) : List Byte :=
  let d := s.dev
  leBytes 4 1 ++ leBytes 4 s.devstat.toNat ++ (List.range 16).map (d.fuses.serial.getD · 0) ++
    leBytes 4 (if d.mode = 1 then Config.recoverySvn else fwSvn d.running) ++ leBytes 4 0 ++
    (nonce.flatMap fun w => leBytes 4 w.toNat) ++
    (if d.mode = 1 then List.replicate 64 0 else sha512 (fwBody d.running)) ++
    (match s.graph with
     | some g => sha512 g.image
     | none => List.replicate 64 0) ++
    keyBytes (ecPublic d.fuses.idKey) ++ leBytes 4 0

/-- The report of 512 bytes for a nonce, signed under the identity key with k as the secret number of the signature (19 R407). -/
def State.report (s : State) (nonce : List Word) (k : Nat) : List Byte :=
  let body := s.reportBody nonce
  let (r, t) := ecdsaSign s.dev.fuses.idKey k body
  body ++ beBytes 66 r ++ beBytes 66 t ++ List.replicate 52 0

end Sys2Proof.Machine
end

