-- ==== Sys2Proof/Machine/Host.lean ====
section
/-!
DEFINITION. Mailboxes and reply rings (18 R381 to R384): submission, the eight messages, and the writing of reply entries; minimal
mode's limits (19 R408).
-/
namespace Sys2Proof.Machine

/-! ## Reply rings -/

/-- Whether a mailbox's ring is full: REPLYPUT - REPLYGET is its length (18 R383). -/
def Mbox.full (x : Mbox) : Bool :=
  match x.ring with
  | some (_, logn) => decide ((x.put - x.get).toNat = 2 ^ logn)
  | none => false

/-- Whether a reply waits for room in the ring. -/
def Mbox.stuck (x : Mbox) : Bool := x.full && x.waiting.any fun e => wordAt e 0 = 1

/-- BUSY: a LOAD under way, a message waiting for bin space, or a reply waiting for room (18 R381, R383). -/
def Mbox.isBusy (x : Mbox) : Bool := x.busy || !x.held.isEmpty || x.stuck

/-- A vector's message is raised, or stands pending while its table entry is masked (18 R393). -/
def Vector.raise (v : Vector) : Vector := if v.masked then { v with pending := true } else { v with raised := v.raised + 1 }

/-- REPLY_ENTRY_WRITE: the oldest entry waiting is written, words 1 to 15 before word 0, REPLYPUT rises, and the mailbox's vector is
raised (18 R383, R393). Mailbox 0 is BUSY until the reply of its LOAD is written, the last of the replies that wait, since it accepts
no message meanwhile (18 R381, R392). -/
def State.writeReply (s : State) (m : Nat) : State :=
  let x := s.mbox m
  match x.ring, x.waiting with
  | some (base, logn), e :: rest =>
    if x.full then s
    else
      let n := 2 ^ logn
      let p := x.put.toNat
      let at' := memKey 1 (base + 64 * (p % n))
      let body := (List.range 15).map fun i => wordAt e (i + 2)
      let phase := 1 - p / n % 2
      let cls := (wordAt e 0).toNat
      let w0 : Word := BitVec.ofNat 32 (phase * 2 ^ 31 + cls * 2 ^ 16 + (wordAt e 1).toNat % 2 ^ 16)
      let s := (s.setHomeWords (at' + 4) body).setHomeWord at' w0
      let own := cls = 1 && s.loading.isNone && rest.all fun r => wordAt r 0 ≠ 1
      let s := s.setMbox m { x with waiting := rest, put := x.put + 1, busy := x.busy && !own }
      s.mapDev fun d => { d with msix := Tab.put d.msix m (Tab.get {} d.msix m).raise }
  | _, _ => s

/-- REPLY_ENTRY_WRITE (18 R383). -/
def execReplyEntryWrite (m : Nat) (s : State) : Host.Outcome State Fault Refusal := .next (s.tick.writeReply m)

/-- Every entry waiting that has room is written. -/
def State.flushReplies (s : State) (m : Nat) : Nat → State
  | 0 => s
  | n + 1 => State.flushReplies (s.writeReply m) m n

/-! ## Messages -/

/-- Records of a message, each of k words, appended in order; none where one finds no room (18 R384, R386). -/
def State.fileRecords (s : State) (n k : Nat) : Nat → List Word → Option State
  | 0, _ => some s
  | j + 1, ws =>
    if !nCamera (s.nodeRec n) && !s.binRoom n then none
    else State.fileRecords (s.appendRecord n (ws.take k)) n k j (ws.drop k)

/-- RECORD: its failures in order; else its records enter the bin of the bound node, or the message waits for space (18 R382,
R386). -/
def State.recordMsg (s : State) (m : Nat) (hdr : DWord) (ws : List Word) : State :=
  let seq := dbits hdr 15 0
  let x := s.mbox m
  let free := s.setMbox m { x with held := [] }
  match x.bound with
  | none => free.reply m seq 4 []
  | some h =>
    match s.liveNode h with
    | none => free.reply m seq 5 []
    | some n =>
      let k := nRecw (s.nodeRec n)
      let nrec := bits (wordAt ws 0) 7 0
      if nrec = 0 ∨ dbits hdr 23 16 - 1 < nrec * k then free.reply m seq 6 []
      else
        match free.fileRecords n k nrec (ws.drop 1) with
        | some t => t
        | none => s.setMbox m { x with held := [(1, hdr, ws)] }

/-- BIND (18 R382). -/
def State.bindMsg (s : State) (m seq : Nat) (ws : List Word) : State :=
  let x := (wordAt ws 1).toNat
  let h := wordAt ws 2
  if x = 0 ∨ 63 < x ∨ bits h 31 16 = 0 ∨ 4096 ≤ bits h 15 0 then s.reply m seq 2 []
  else (s.setMbox x { s.mbox x with bound := some h }).reply m seq 0 []

/-- REPLYCFG; in minimal mode the first one of mailbox 0 posts MINIMAL (18 R382, 19 R408). -/
def State.replycfgMsg (s : State) (m seq : Nat) (ws : List Word) : State :=
  let x := (wordAt ws 1).toNat
  let pa := (pair64 (wordAt ws 2) (wordAt ws 3)).toNat
  let logn := (wordAt ws 4).toNat
  if 63 < x ∨ pa % 64 ≠ 0 ∨ logn < 4 ∨ 12 < logn then s.reply m seq 2 []
  else
    let s := s.setMbox x { s.mbox x with ring := some (pa, logn), get := 0, put := 0 }
    let d := s.dev
    let s :=
      if d.mode = 1 ∧ x = 0 ∧ !d.told then
        (s.mapDev fun d => { d with told := true }).postStatus 11 (BitVec.ofNat 32 d.bootStage) (BitVec.ofNat 32 d.bootCode)
          (BitVec.ofNat 32 d.failCount)
      else s
    s.reply m seq 0 []

/-- ATTEST (19 R407). -/
def State.attestMsg (s : State) (m seq : Nat) (ws : List Word) : State :=
  let pa := (pair64 (wordAt ws 9) (wordAt ws 10)).toNat
  if pa % 64 ≠ 0 then s.reply m seq 2 []
  else
    let (tag, s) := s.drawFree
    let s := s.homeWrite (memKey 1 pa) (s.report ((ws.drop 1).take 8) (Config.signSecret tag))
    s.reply m seq 0 [460]

/-- RESTART, once its reply is on its way: the entries waiting are written, and the device resets; while the ring has no room the
message waits (18 R382, R383, 19 R408). -/
def State.restartEnd (s : State) (m : Nat) (hdr : DWord) (ws : List Word) : State :=
  let s := s.flushReplies m (s.mbox m).waiting.length
  if (s.mbox m).waiting.isEmpty then s.resetDevice else s.setMbox m { s.mbox m with held := [(8, hdr, ws)] }

/-- RESTART: the counter is cleared where CLEAR asks for it, in normal mode the context is reset, DONE is replied, and the device
resets (18 R382, 19 R408). -/
def State.restartMsg (s : State) (m : Nat) (hdr : DWord) (ws : List Word) : State :=
  let s := if bit (wordAt ws 1) 0 then s.mapDev fun d => { d with failCount := 0 } else s
  let s := if s.dev.mode = 0 then s.contextReset 0 0 else s
  (s.reply m (dbits hdr 15 0) 0 []).restartEnd m hdr ws

/-- A message taken as its type says; words beyond its length read as zero. Bits of a word outside its named fields are ignored where
the manual does not call them res0 (18 R382, 19 R408; DESIGN CHOICE, log 60). -/
def State.message (s : State) (m : Nat) (hdr : DWord) (ws : List Word) : State :=
  let seq := dbits hdr 15 0
  let ty := bits (wordAt ws 0) 31 24
  if s.dev.mode = 1 ∧ ty ≠ 3 ∧ ty ≠ 7 ∧ ty ≠ 8 then s.reply m seq 3 []
  else if ty = 0 ∨ 8 < ty then s.reply m seq 2 []
  else if 2 ≤ ty ∧ m ≠ 0 then s.reply m seq 3 []
  else if ty = 1 then s.recordMsg m hdr ws
  else if ty = 2 then s.bindMsg m seq ws
  else if ty = 3 then s.replycfgMsg m seq ws
  else if ty = 4 then s.startLoad m seq ws
  else if ty = 5 then (s.requestPreempt (bits (wordAt ws 1) 7 0)).reply m seq 0 []
  else if ty = 6 then (s.withdrawPreempt (bits (wordAt ws 1) 7 0)).reply m seq 0 []
  else if ty = 7 then s.attestMsg m seq ws
  else s.restartMsg m hdr ws

/-- Whether the mailboxes are open: the device has started, and a controller works; in minimal mode mailbox 0 alone (18 R390,
19 R405, R408). -/
def State.mboxOpen (s : State) (m : Nat) : Bool :=
  decide (m < 64) && decide (0 < s.dev.hulls) && (s.dev.mode = 0 || (s.dev.mode = 1 && m = 0))

/-- A seal is written: BADSEQ, or the SEQ is accepted and the message judged by its seal and its type (18 R381). -/
def State.submit (s : State) (m : Nat) (hdr : DWord) (ws : List Word) : State :=
  let x := s.mbox m
  if !s.mboxOpen m ∨ x.isBusy then s
  else
    let seq := dbits hdr 15 0
    let len := dbits hdr 23 16
    let x := { x with hdr := hdr, words := (List.range 62).map fun i => wordAt ws i }
    if seq ≠ (x.seq + 1) % 65536 then (s.setMbox m x).reply m seq 1 []
    else
      let s := s.setMbox m { x with seq := seq }
      if dbits hdr 63 24 ≠ 0 ∨ len = 0 ∨ 62 < len then s.reply m seq 2 []
      else s.message m hdr ((List.range 62).map fun i => if i < len then wordAt ws i else 0)

/-- The message that keeps a mailbox BUSY is taken up again (18 R381, R383). -/
def State.takeHeld (s : State) (m : Nat) : State :=
  match (s.mbox m).held with
  | (1, hdr, ws) :: _ => s.recordMsg m hdr ws
  | (_, hdr, ws) :: _ => s.restartEnd m hdr ws
  | [] => s

/-- A message of a type is submitted, or taken up again where it is the one that waits. Messages of the unassigned types come as
RECORDs do: the table has no row for them (18 R382). -/
def State.named (s : State) (ty m : Nat) (hdr : DWord) (ws : List Word) : State :=
  let t := bits (wordAt ws 0) 31 24
  if (s.mbox m).held = [(ty, hdr, ws)] then s.takeHeld m
  else if t = ty ∨ (ty = 1 ∧ (t = 0 ∨ 8 < t)) then s.submit m hdr ws
  else s

/-- RECORD (18 R382). -/
def execRecord (m : Nat) (hdr : DWord) (ws : List Word) (s : State) : Host.Outcome State Fault Refusal := .next (s.tick.named 1 m hdr ws)

/-- BIND (18 R382). -/
def execBind (m : Nat) (hdr : DWord) (ws : List Word) (s : State) : Host.Outcome State Fault Refusal := .next (s.tick.named 2 m hdr ws)

/-- REPLYCFG (18 R382). -/
def execReplycfg (m : Nat) (hdr : DWord) (ws : List Word) (s : State) : Host.Outcome State Fault Refusal := .next (s.tick.named 3 m hdr ws)

/-- LOAD (18 R392). -/
def execLoad (m : Nat) (hdr : DWord) (ws : List Word) (s : State) : Host.Outcome State Fault Refusal := .next (s.tick.named 4 m hdr ws)

/-- PREEMPT (15 R351). -/
def execPreempt (m : Nat) (hdr : DWord) (ws : List Word) (s : State) : Host.Outcome State Fault Refusal := .next (s.tick.named 5 m hdr ws)

/-- WITHDRAW (15 R351). -/
def execWithdraw (m : Nat) (hdr : DWord) (ws : List Word) (s : State) : Host.Outcome State Fault Refusal := .next (s.tick.named 6 m hdr ws)

/-- ATTEST (19 R407). -/
def execAttest (m : Nat) (hdr : DWord) (ws : List Word) (s : State) : Host.Outcome State Fault Refusal := .next (s.tick.named 7 m hdr ws)

/-- RESTART (19 R408). -/
def execRestart (m : Nat) (hdr : DWord) (ws : List Word) (s : State) : Host.Outcome State Fault Refusal := .next (s.tick.named 8 m hdr ws)

end Sys2Proof.Machine
end

