-- ==== Sys2Proof/Machine/Link.lean ====
section
/-!
DEFINITION. The outside world's accesses: requests over Pertal links (18 R395 to R397, 08 R214), the state of the links, and the
host's window into local memory (18 R394).
-/
namespace Sys2Proof.Machine

/-- A link port. -/
def State.port (s : State) (p : Nat) : Port := Tab.get {} s.dev.ports p

/-- The state with a port replaced. -/
def State.setPort (s : State) (p : Nat) (x : Port) : State := s.mapDev fun d => { d with ports := Tab.put d.ports p x }

/-- Bytes an atomic reads and writes, and the value it leaves; op is the OP5 of its instruction (07 R181). -/
def atomSize (op : Nat) : Nat := if op = 0x11 ∨ op = 0x1B then 8 else 4
def atomApply (op old : Nat) (x y : DWord) : Nat :=
  let a : Word := BitVec.ofNat 32 old
  let b : Word := x.setWidth 32
  match op with
  | 0x10 => (a + b).toNat
  | 0x11 => (BitVec.ofNat 64 old + x).toNat
  | 0x12 => (if a.toInt ≤ b.toInt then a else b).toNat
  | 0x13 => (if a.toInt ≤ b.toInt then b else a).toNat
  | 0x14 => (if a.toNat ≤ b.toNat then a else b).toNat
  | 0x15 => (if a.toNat ≤ b.toNat then b else a).toNat
  | 0x16 => (a &&& b).toNat
  | 0x17 => (a ||| b).toNat
  | 0x18 => (a ^^^ b).toNat
  | 0x19 => b.toNat
  | 0x1A => if a = b then (y.setWidth 32 : Word).toNat else old
  | 0x1B => x.toNat
  | _ => old

/-- Whether n bytes from a physical address lie in one region that holds memory. -/
def State.peerValid (s : State) (pa n : Nat) : Bool := s.localValid pa && s.localValid (pa + n - 1)

/-- PEER_REQUEST: a request of a peer performs at the home slice of the local frame. A read leaves memory as it is; an address at
which there is no memory takes nothing (18 R379, R396; DEDUCED, log 25). -/
def State.peerOp (s : State) (p : Nat) (op : PeerOp) : State :=
  match op with
  | .read pa n => s.backInv (localKey pa) n
  | .write pa bs => if s.peerValid pa bs.length then s.homeWrite (localKey pa) bs else s
  | .atomic pa a x y =>
    let n := atomSize a
    if !s.peerValid pa n ∨ s.poisonedIn (localKey pa) n then s
    else s.homeWrite (localKey pa) (leBytes n (atomApply a (leNat (s.homeBytes (localKey pa) n)) x y))
  | .xload .. | .xstore .. | .xadd .. => s.peerWord p op

/-- PEER_REQUEST, the sequence tags discarding duplicates (08 R214, 18 R395). -/
def execPeerRequest (p : Nat) (req : PeerReq) (s : State) : Host.Outcome State Fault Refusal :=
  let s := s.tick
  let x := s.port p
  .next (if !x.up || x.tags.contains req.tag || s.dev.mode ≠ 0 || !s.accepts then s
    else (s.setPort p { x with tags := req.tag :: x.tags }).peerOp p req.op)

/-- FLIT_REPLAY (18 R395). -/
def execFlitReplay (p : Nat) (s : State) : Host.Outcome State Fault Refusal :=
  let s := s.tick
  let x := s.port p
  .next (if x.up then s.setPort p { x with retries := satInc 32 x.retries } else s)

/-- The writes outstanding to a port, contributions and UO stores that have not performed, are dropped and counted; a UO load that waits
keeps what it read at its word (18 R397; log 52). -/
def State.dropOut (s : State) (p : Nat) : State :=
  let mine := fun (k : Nat) => keyTarget k % 16 = 2 + p
  let c := fun (c : Contrib) => mine (c.keys.headD 0)
  let u := fun (u : UoStore) => mine u.key
  let n := (s.contribs.filter c).length + (s.uoq.filter fun x => u x && x.load.isNone).length
  let x := s.port p
  { s with contribs := s.contribs.filter (!c ·), uoq := s.uoq.filter (!u ·) }.setPort p
    { x with dropwr := min (x.dropwr + n) (2 ^ 32 - 1) }

/-- LINK_DOWN: UP clears, requests outstanding to the port complete, and LINKDOWN is posted; from then on reads over the port return
poison and writes are dropped and counted (18 R397). -/
def State.linkLost (s : State) (p : Nat) : State :=
  if !(s.port p).up then s
  else
    let s := s.dropOut p
    let x := s.port p
    (s.setPort p { x with up := false }).postStatus 6 (BitVec.ofNat 32 p) (BitVec.ofNat 32 x.dropwr) 0

/-- LINK_DOWN (18 R397). -/
def execLinkDown (p : Nat) (s : State) : Host.Outcome State Fault Refusal := .next (s.tick.linkLost p)

/-- LINK_UP: UP sets, PEER names the peer, and LINKUP is posted (18 R397). -/
def State.linkFound (s : State) (p : Nat) (peer : BitVec 12) : State :=
  let x := s.port p
  if x.up ∨ 12 ≤ p ∨ s.dev.mode ≠ 0 then s
  else (s.setPort p { x with up := true, peer := peer }).postStatus 7 (BitVec.ofNat 32 p) 0 0

/-- LINK_UP (18 R397). -/
def execLinkUp (p : Nat) (peer : BitVec 12) (s : State) : Host.Outcome State Fault Refusal := .next (s.tick.request (·.linkFound p peer))

/-! ## The host's window -/

/-- HDM_DECODER_WRITE: taken while no graph is resident, for a base that is a multiple of 1 GiB and a length of 1 to 576 GiB within
local memory; other values are ignored (18 R394; DEDUCED, log 33). -/
def State.setHdm (s : State) (base len : DWord) : State :=
  if s.graph.isSome ∨ base.toNat % 2 ^ 30 ≠ 0 ∨ len.toNat % 2 ^ 30 ≠ 0 ∨ len = 0 ∨ Config.localBytes < base.toNat + len.toNat then s
  else s.mapDev fun d => { d with hdmBase := base, hdmLen := len }

/-- HDM_DECODER_WRITE (18 R394). -/
def execHdmDecoderWrite (base len : BitVec 64) (s : State) : Host.Outcome State Fault Refusal := .next (s.tick.request (·.setHdm base len))

/-- Whether n bytes at a device address lie in the window. In minimal mode there is none (19 R408). -/
def State.inHdm (s : State) (a n : Nat) : Bool :=
  s.dev.mode = 0 && decide (s.dev.hdmBase.toNat ≤ a) && decide (a + n ≤ s.dev.hdmBase.toNat + s.dev.hdmLen.toNat)

/-- HOST_HDM_ACCESS: a host access performs at the home slice; the host may hold the lines from then on (18 R394). -/
def State.hostAccess (s : State) (write : Bool) (a : Nat) (bs : List Byte) : State :=
  if bs.isEmpty ∨ !s.inHdm a bs.length then s
  else
    let s := if write then s.homeWrite (localKey a) bs else s
    let lines := (List.range ((a + bs.length - 1) / 64 - a / 64 + 1)).map fun i => localKey a / 64 + i
    s.mapDev fun d => { d with hostHeld := lines ++ d.hostHeld.filter fun l => !lines.contains l }

/-- HOST_HDM_ACCESS (18 R394). -/
def execHostHdmAccess (write : Bool) (a : Nat) (bs : List (BitVec 8)) (s : State) : Host.Outcome State Fault Refusal :=
  .next (s.tick.request (·.hostAccess write a bs))

end Sys2Proof.Machine
end

