-- ==== Sys2Proof/Machine/Window.lean ====
section
/-!
DEFINITION. The control window: what a read of each field gives and what a write does (15 R336, R344, R347; 18 R379 to R381, R385,
R395, R399; 19 R404, R408).
-/
namespace Sys2Proof.Machine

/-! ## Clears -/

/-- REPLYGET_WRITE (18 R381). -/
def State.setReplyget (s : State) (m : Nat) (v : Word) : State := if m < 64 then s.setMbox m { s.mbox m with get := v } else s
def execReplygetWrite (m : Nat) (v : BitVec 32) (s : State) : Host.Outcome State Fault Refusal := .next (s.tick.request (·.setReplyget m v))

/-- RDROP_CLEAR (18 R381). -/
def State.clearRdrop (s : State) (m : Nat) : State := if m < 64 then s.setMbox m { s.mbox m with rdrop := 0 } else s
def execRdropClear (m : Nat) (s : State) : Host.Outcome State Fault Refusal := .next (s.tick.request (·.clearRdrop m))

/-- STALECNT_CLEAR (18 R385). -/
def State.clearStale (s : State) (n : Nat) : State := if n < 4096 then s.setNstat n { s.nstat n with stale := 0 } else s
def execStalecntClear (n : Nat) (s : State) : Host.Outcome State Fault Refusal := .next (s.tick.request (·.clearStale n))

/-- ORDERR_CLEAR (18 R385). -/
def State.clearOrderr (s : State) (n : Nat) : State := if n < 4096 then s.setNstat n { s.nstat n with orderr := false } else s
def execOrderrClear (n : Nat) (s : State) : Host.Outcome State Fault Refusal := .next (s.tick.request (·.clearOrderr n))

/-- LOSSES_CLEAR (18 R385). -/
def State.clearLosses (s : State) (n : Nat) : State := if n < 4096 then s.setNstat n { s.nstat n with ckill := 0, restore := 0 } else s
def execLossesClear (n : Nat) (s : State) : Host.Outcome State Fault Refusal := .next (s.tick.request (·.clearLosses n))

/-- DROPWR_CLEAR (18 R395). -/
def State.clearDropwr (s : State) (p : Nat) : State := if p < 12 then s.setPort p { s.port p with dropwr := 0 } else s
def execDropwrClear (p : Nat) (s : State) : Host.Outcome State Fault Refusal := .next (s.tick.request (·.clearDropwr p))

/-- RETRIES_CLEAR (18 R395). -/
def State.clearRetries (s : State) (p : Nat) : State := if p < 12 then s.setPort p { s.port p with retries := 0 } else s
def execRetriesClear (p : Nat) (s : State) : Host.Outcome State Fault Refusal := .next (s.tick.request (·.clearRetries p))

/-! ## Region descriptors -/

/-- A descriptor with one of its words written; SLICES and VALID alone may be written (18 R379, 19 R404). -/
def HashD.setWord (d : HashD) (k : Nat) (v : Word) : HashD :=
  if k < 8 then { d with slices := d.slices.set k v } else if k = 8 then { d with valid := bit v 0 } else d

/-- HASH_DESCRIPTOR_WRITE at a byte offset of the descriptors: ignored while a graph is resident, and where it would leave SLICES
empty (18 R379). -/
def State.writeHash (s : State) (off size : Nat) (v : DWord) : State :=
  let r := off / 64
  if s.graph.isSome ∨ 576 ≤ r ∨ (size ≠ 4 ∧ size ≠ 8) ∨ off % size ≠ 0 then s
  else
    let k := off % 64 / 4
    let d := (s.hashOf r).setWord k (half false v)
    let d := if size = 8 then d.setWord (k + 1) (half true v) else d
    if d.slices.all (· = 0) then s else s.mapDev fun x => { x with hash := Tab.put x.hash r d }

/-- HASH_DESCRIPTOR_WRITE (18 R379). -/
def execHashDescriptorWrite (off size : Nat) (v : DWord) (s : State) : Host.Outcome State Fault Refusal :=
  .next (s.tick.request (·.writeHash off size v))

/-! ## The control block -/

/-- A code offset a vector may hold (15 R336). -/
def vectorOk (v : Word) : Bool := v.toNat % 4 = 0 || v = 0xFFFFFFFF

/-- A field of the control block of 4 bytes written; a value outside its values leaves it unchanged (15 R336). -/
def State.setCtl4 (s : State) (off : Nat) (v : Word) : State :=
  let c := s.dev.ctl
  let lo := fun (d : DWord) => half true d ++ v
  let hi := fun (d : DWord) => v ++ half false d
  let root := fun (d : DWord) => d &&& 0x000FFFFFFFFFF000
  let mul := fun (n : Nat) (d old : DWord) => if d.toNat % n = 0 then d else old
  match off with
  | 0x00 => if vectorOk v then s.setCtl { c with tvecx := v } else s
  | 0x04 => if vectorOk v then s.setCtl { c with tveca := v } else s
  | 0x08 => if vectorOk v then s.setCtl { c with svec := v } else s
  | 0x0C => if 2 ^ 12 ≤ v.toNat ∧ v.toNat ≤ 2 ^ 31 then s.setCtl { c with hangLimit := v } else s
  | 0x10 => s.setCtl { c with ptRoot := root (lo c.ptRoot) }
  | 0x14 => s.setCtl { c with ptRoot := root (hi c.ptRoot) }
  | 0x18 => s.setCtl { c with hangBuf := mul 64 (lo c.hangBuf) c.hangBuf }
  | 0x1C => s.setCtl { c with hangBuf := mul 64 (hi c.hangBuf) c.hangBuf }
  | 0x20 => s.setCtl { c with tlbInvVa := mul 4096 (lo c.tlbInvVa) c.tlbInvVa }
  | 0x24 => s.setCtl { c with tlbInvVa := mul 4096 (hi c.tlbInvVa) c.tlbInvVa }
  | 0x28 => if 12 ≤ v.toNat ∧ v.toNat ≤ 57 then s.setCtl { c with tlbInvSz := v } else s
  | 0x2C =>
    if v = 1 then s.tlbInv (c.tlbInvVa.toNat % 2 ^ 57) c.tlbInvSz.toNat else if v = 2 then s.tlbInv 0 64 else s
  | 0x30 => if 256 ≤ v.toNat ∧ v.toNat ≤ 2 ^ 20 then s.setCtl { c with faultSave := v } else s
  | 0x38 => s.setCtl { c with xaccWin := mul 4 (lo c.xaccWin) c.xaccWin }
  | 0x3C => s.setCtl { c with xaccWin := mul 4 (hi c.xaccWin) c.xaccWin }
  | 0x40 => s.setCtl { c with xaccBack := mul 4 (lo c.xaccBack) c.xaccBack }
  | 0x44 => s.setCtl { c with xaccBack := mul 4 (hi c.xaccBack) c.xaccBack }
  | _ => s

/-- A field of the control block as a 4-byte read gives it (15 R336). -/
def CtlBlock.word (c : CtlBlock) (off : Nat) : Word :=
  match off with
  | 0x00 => c.tvecx
  | 0x04 => c.tveca
  | 0x08 => c.svec
  | 0x0C => c.hangLimit
  | 0x10 => half false c.ptRoot
  | 0x14 => half true c.ptRoot
  | 0x18 => half false c.hangBuf
  | 0x1C => half true c.hangBuf
  | 0x20 => half false c.tlbInvVa
  | 0x24 => half true c.tlbInvVa
  | 0x28 => c.tlbInvSz
  | 0x2C => if c.tlbBusy then 1 else 0
  | 0x30 => c.faultSave
  | 0x38 => half false c.xaccWin
  | 0x3C => half true c.xaccWin
  | 0x40 => half false c.xaccBack
  | 0x44 => half true c.xaccBack
  | _ => 0

/-! ## Fault windows -/

/-- A fault window's field written (15 R347). -/
def State.writeFwin (s : State) (c off : Nat) (v : Word) : State :=
  let x := s.fwin c
  let keep := fun (d : DWord) => d &&& 0x01FFFFFFFFFFF000
  match off with
  | 0x84 => s.setFbget c v
  | 0x88 => if bit v 0 then s.clearFbstat c else s
  | 0x8C => if v = 1 then s.replayAll c else if v = 2 then s.failAll c else s
  | 0x90 => s.setFwin c { x with failVa := keep (half true x.failVa ++ v) }
  | 0x94 => s.setFwin c { x with failVa := keep (v ++ half false x.failVa) }
  | _ => s

/-- A fault window's field read (15 R347). -/
def FWin.word (x : FWin) (off : Nat) : Word :=
  if off < 0x80 then BitVec.ofNat 32 (Tab.get 0 x.ents (off / 16) / 2 ^ (8 * (off % 16)))
  else
    match off with
    | 0x80 => BitVec.ofNat 32 x.put
    | 0x84 => BitVec.ofNat 32 x.get
    | 0x88 => BitVec.ofNat 32 (x.dropCount % 2 ^ 16 * 2 ^ 16 + bitOf x.drop 0)
    | 0x90 => half false x.failVa
    | 0x94 => half true x.failVa
    | 0x98 => BitVec.ofNat 32 x.keys.length
    | _ => 0

/-! ## Mailbox slots, collective groups -/

/-- A word of a mailbox slot written; the words of the seal are kept, and the write of its low word submits the message, with the
high word as it stands (18 R381). -/
def State.writeSlot (s : State) (m off : Nat) (v : Word) : State :=
  let x := s.mbox m
  if x.isBusy then s
  else if off < 248 then
    s.setMbox m { x with words := ((List.range 62).map fun i => wordAt x.words i).set (off / 4) v }
  else if off = 248 then s.submit m (half true x.hdr ++ v) x.words
  else s.setMbox m { x with hdr := v ++ half false x.hdr }

/-- A word of a collective group's entry written, while no COLL of the group is in progress; res0 is left zero (18 R399). -/
def State.writeColl (s : State) (g k : Nat) (v : Word) : State :=
  let busy := s.groups.any fun e => e.2.ctxs.any fun c => c.2.st = .running && c.2.kind = .coll && kGroup c.2.blk = g
  if busy ∨ 2 ≤ k then s
  else
    let v := if k = 0 then v &&& 0x8FFF0FFF else v &&& 0xF0FFFFFF
    let e := Tab.get [] s.dev.coll g
    s.mapDev fun d => { d with coll := Tab.put d.coll g (((List.range 2).map fun i => wordAt e i).set k v) }

/-! ## The window -/

/-- A 4-byte write at an aligned offset of the window (18 R380). Space that is res0 or read-only ignores it. -/
def State.write4 (s : State) (off : Nat) (v : Word) : State :=
  if off < 0x100 then (if off = 4 then s.mapDev fun d => { d with sysIdx := v.setWidth 12 } else s)
  else if off < 0x200 then s.setCtl4 (off - 0x100) v
  else if off < 0x2C0 then
    let p := (off - 0x200) / 16
    if v ≠ 0 then s else if off % 16 = 4 then s.clearDropwr p else if off % 16 = 8 then s.clearRetries p else s
  else if off < 0x1000 then s
  else if off < 0x5000 then s.writeSlot ((off - 0x1000) / 256) (off % 256) v
  else if off < 0x5400 then
    let m := (off - 0x5000) / 16
    if off % 16 = 4 then s.setReplyget m v else if off % 16 = 12 ∧ v = 0 then s.clearRdrop m else s
  else if off < 0x8000 then s
  else if off < 0xC000 then s.writeFwin ((off - 0x8000) / 256) (off % 256) v
  else if off < 0x10000 then s
  else if off < 0x20000 then
    let n := (off - 0x10000) / 16
    if off % 16 = 0 ∧ v = 0 then s.clearStale n
    else if off % 16 = 4 ∧ bit v 0 then s.clearOrderr n
    else if off % 16 = 12 ∧ v = 0 then s.clearLosses n
    else s
  else if off < 0x29000 then s.writeHash (off - 0x20000) 4 (v.setWidth 64)
  else if off < 0x30000 then s
  else if off < 0x31000 then s.writeColl ((off - 0x30000) / 64) (off % 64 / 4) v
  else s

/-- REGISTER_WRITE: a write of 4 or 8 naturally aligned bytes; any other completes without effect (18 R380). An 8-byte write acts
as its two halves, the seal's high word first so that it submits with the whole seal, and a descriptor's as one. After a Hull failure
nothing is accepted but a device reset (18 R390). -/
def State.writeWindow (s : State) (off size : Nat) (v : DWord) : State :=
  if (size ≠ 4 ∧ size ≠ 8) ∨ off % size ≠ 0 ∨ 2 ^ 20 < off + size ∨ !s.accepts then s
  else if size = 4 then s.write4 off (half false v)
  else if 0x20000 ≤ off ∧ off < 0x29000 then s.writeHash (off - 0x20000) 8 v
  else if 0x1000 ≤ off ∧ off < 0x5000 ∧ off % 256 = 248 then (s.write4 (off + 4) (half true v)).write4 off (half false v)
  else if 0x110 ≤ off ∧ off < 0x148 ∧ off ≠ 0x128 ∧ off ≠ 0x130 then
    let c := s.dev.ctl
    let ok := fun (n : Nat) => decide (v.toNat % n = 0)
    match off with
    | 0x110 => s.setCtl { c with ptRoot := v &&& 0x000FFFFFFFFFF000 }
    | 0x118 => if ok 64 then s.setCtl { c with hangBuf := v } else s
    | 0x120 => if ok 4096 then s.setCtl { c with tlbInvVa := v } else s
    | 0x138 => if ok 4 then s.setCtl { c with xaccWin := v } else s
    | 0x140 => if ok 4 then s.setCtl { c with xaccBack := v } else s
    | _ => s
  else (s.write4 off (half false v)).write4 (off + 4) (half true v)

/-- REGISTER_WRITE (18 R380). -/
def execRegisterWrite (off size : Nat) (v : DWord) (s : State) : Host.Outcome State Fault Refusal := .next (s.tick.writeWindow off size v)

/-- A 4-byte read at an aligned offset of the window (18 R379 to R381, R385, R395, R399; 15 R336, R347; 19 R404, R408). -/
def State.read4 (s : State) (off : Nat) : Word :=
  let d := s.dev
  if off < 0x100 then
    match off with
    | 0x00 => s.devstat
    | 0x04 => d.sysIdx.setWidth 32
    | 0x08 => d.serial
    | 0x0C => BitVec.ofNat 32 (d.bootStage * 2 ^ 24 + d.bootCode * 2 ^ 8 + d.failCount)
    | _ => 0
  else if off < 0x200 then d.ctl.word (off - 0x100)
  else if off < 0x2C0 then
    let x := s.port ((off - 0x200) / 16)
    match off % 16 with
    | 0 => BitVec.ofNat 32 (x.peer.toNat * 2 ^ 16 + bitOf x.up 0)
    | 4 => BitVec.ofNat 32 x.dropwr
    | 8 => BitVec.ofNat 32 x.retries
    | _ => 0
  else if off < 0x1000 then 0
  else if off < 0x5000 then
    let x := s.mbox ((off - 0x1000) / 256)
    if off % 256 < 248 then wordAt x.words (off % 256 / 4) else half (off % 256 = 252) x.hdr
  else if off < 0x5400 then
    let x := s.mbox ((off - 0x5000) / 16)
    match off % 16 with
    | 0 => BitVec.ofNat 32 (x.seq * 2 ^ 16 + bitOf x.isBusy 0)
    | 4 => x.get
    | 8 => x.put
    | _ => BitVec.ofNat 32 x.rdrop
  else if off < 0x8000 then 0
  else if off < 0xC000 then (s.fwin ((off - 0x8000) / 256)).word (off % 256)
  else if off < 0x10000 then 0
  else if off < 0x20000 then
    let n := (off - 0x10000) / 16
    let x := s.nstat n
    match off % 16 with
    | 0 => BitVec.ofNat 32 x.stale
    | 4 => BitVec.ofNat 32 (x.groups * 2 ^ 16 + bitOf (match s.graph with
        | some g => decide (n < g.nodes.length)
        | none => false) 1 + bitOf x.orderr 0)
    | 8 => BitVec.ofNat 32 (s.bin n).length
    | _ => BitVec.ofNat 32 (x.ckill * 2 ^ 16 + x.restore)
  else if off < 0x29000 then
    let x := s.hashOf ((off - 0x20000) / 64)
    let k := off % 64 / 4
    if k < 8 then wordAt x.slices k
    else if k = 8 then (if x.valid then 1 else 0)
    else if k = 10 then x.repair
    else if 12 ≤ k then BitVec.ofNat 32 (x.done / 2 ^ (32 * (k - 12)))
    else 0
  else if off < 0x30000 then 0
  else if off < 0x31000 then wordAt (Tab.get [] d.coll ((off - 0x30000) / 64)) (off % 64 / 4)
  else 0

/-- A read of the window: of 4 or 8 naturally aligned bytes; any other returns 0xFFFFFFFF (18 R380). -/
def State.readWindow (s : State) (off size : Nat) : DWord :=
  if (size ≠ 4 ∧ size ≠ 8) ∨ off % size ≠ 0 ∨ 2 ^ 20 < off + size then 0xFFFFFFFF
  else if size = 4 then (s.read4 off).setWidth 64
  else pair64 (s.read4 off) (s.read4 (off + 4))

end Sys2Proof.Machine
end

