-- ==== Sys2Proof/Machine/Dispatch.lean ====
section
/-!
DEFINITION. The meaning of every instruction and event: one arm for each constructor of Instr.
-/
namespace Sys2Proof.Machine

def exec (i : Instr) (s : State) : Host.Outcome State Fault Refusal :=
  match i with
  | .clauseIssue a0 a1 a2 => Sys2Proof.Machine.execClauseIssue a0 a1 a2 s
  | .clauseCompletion a0 a1 a2 a3 => Sys2Proof.Machine.execClauseCompletion a0 a1 a2 a3 s
  | .sourcesRead a0 a1 a2 a3 => Sys2Proof.Machine.execSourcesRead a0 a1 a2 a3 s
  | .estContributionApply a0 => Sys2Proof.Machine.execEstContributionApply a0 s
  | .overlayEviction a0 => Sys2Proof.Machine.execOverlayEviction a0 s
  | .sfiResult a0 a1 a2 => Sys2Proof.Machine.execSfiResult a0 a1 a2 s
  | .slotFill a0 a1 => Sys2Proof.Machine.execSlotFill a0 a1 s
  | .slotDrain a0 a1 => Sys2Proof.Machine.execSlotDrain a0 a1 s
  | .walkPoint a0 a1 a2 => Sys2Proof.Machine.execWalkPoint a0 a1 a2 s
  | .sortPass a0 a1 => Sys2Proof.Machine.execSortPass a0 a1 s
  | .binCompletion a0 a1 => Sys2Proof.Machine.execBinCompletion a0 a1 s
  | .mmaChunk a0 a1 => Sys2Proof.Machine.execMmaChunk a0 a1 s
  | .mdrainRow a0 a1 => Sys2Proof.Machine.execMdrainRow a0 a1 s
  | .traceCompletion a0 a1 a2 => Sys2Proof.Machine.execTraceCompletion a0 a1 a2 s
  | .freshBundleDraw a0 => Sys2Proof.Machine.execFreshBundleDraw a0 s
  | .reformageExpiry a0 a1 => Sys2Proof.Machine.execReformageExpiry a0 a1 s
  | .starvationPromotion a0 a1 => Sys2Proof.Machine.execStarvationPromotion a0 a1 s
  | .waitaPoll a0 a1 a2 => Sys2Proof.Machine.execWaitaPoll a0 a1 a2 s
  | .acquireGrant a0 => Sys2Proof.Machine.execAcquireGrant a0 s
  | .groupAdmission a0 a1 => Sys2Proof.Machine.execGroupAdmission a0 a1 s
  | .binTimerExpiry a0 => Sys2Proof.Machine.execBinTimerExpiry a0 s
  | .groupSave a0 => Sys2Proof.Machine.execGroupSave a0 s
  | .groupRestore a0 a1 => Sys2Proof.Machine.execGroupRestore a0 a1 s
  | .replyEntryWrite a0 => Sys2Proof.Machine.execReplyEntryWrite a0 s
  | .record a0 a1 a2 => Sys2Proof.Machine.execRecord a0 a1 a2 s
  | .bind a0 a1 a2 => Sys2Proof.Machine.execBind a0 a1 a2 s
  | .replycfg a0 a1 a2 => Sys2Proof.Machine.execReplycfg a0 a1 a2 s
  | .load a0 a1 a2 => Sys2Proof.Machine.execLoad a0 a1 a2 s
  | .preempt a0 a1 a2 => Sys2Proof.Machine.execPreempt a0 a1 a2 s
  | .withdraw a0 a1 a2 => Sys2Proof.Machine.execWithdraw a0 a1 a2 s
  | .attest a0 a1 a2 => Sys2Proof.Machine.execAttest a0 a1 a2 s
  | .restart a0 a1 a2 => Sys2Proof.Machine.execRestart a0 a1 a2 s
  | .replayall a0 => Sys2Proof.Machine.execReplayall a0 s
  | .fail a0 => Sys2Proof.Machine.execFail a0 s
  | .fbgetWrite a0 a1 => Sys2Proof.Machine.execFbgetWrite a0 a1 s
  | .fbstatClear a0 => Sys2Proof.Machine.execFbstatClear a0 s
  | .replygetWrite a0 a1 => Sys2Proof.Machine.execReplygetWrite a0 a1 s
  | .rdropClear a0 => Sys2Proof.Machine.execRdropClear a0 s
  | .stalecntClear a0 => Sys2Proof.Machine.execStalecntClear a0 s
  | .orderrClear a0 => Sys2Proof.Machine.execOrderrClear a0 s
  | .lossesClear a0 => Sys2Proof.Machine.execLossesClear a0 s
  | .dropwrClear a0 => Sys2Proof.Machine.execDropwrClear a0 s
  | .retriesClear a0 => Sys2Proof.Machine.execRetriesClear a0 s
  | .hashDescriptorWrite a0 a1 a2 => Sys2Proof.Machine.execHashDescriptorWrite a0 a1 a2 s
  | .registerWrite a0 a1 a2 => Sys2Proof.Machine.execRegisterWrite a0 a1 a2 s
  | .peerRequest a0 a1 => Sys2Proof.Machine.execPeerRequest a0 a1 s
  | .flitReplay a0 => Sys2Proof.Machine.execFlitReplay a0 s
  | .linkDown a0 => Sys2Proof.Machine.execLinkDown a0 s
  | .linkUp a0 a1 => Sys2Proof.Machine.execLinkUp a0 a1 s
  | .hostHdmAccess a0 a1 a2 => Sys2Proof.Machine.execHostHdmAccess a0 a1 a2 s
  | .collTransfer a0 a1 => Sys2Proof.Machine.execCollTransfer a0 a1 s
  | .timingDetectorFire a0 a1 => Sys2Proof.Machine.execTimingDetectorFire a0 a1 s
  | .correctedError a0 a1 a2 a3 => Sys2Proof.Machine.execCorrectedError a0 a1 a2 a3 s
  | .bankMigrationChunk a0 => Sys2Proof.Machine.execBankMigrationChunk a0 s
  | .deviceReset a0 => Sys2Proof.Machine.execDeviceReset a0 s
  | .iadd a0 a1 a2 a3 a4 => Sys2Proof.Machine.execIadd a0 a1 a2 a3 a4 s
  | .isub a0 a1 a2 a3 a4 => Sys2Proof.Machine.execIsub a0 a1 a2 a3 a4 s
  | .imul a0 a1 a2 a3 => Sys2Proof.Machine.execImul a0 a1 a2 a3 s
  | .imulh a0 a1 a2 a3 a4 => Sys2Proof.Machine.execImulh a0 a1 a2 a3 a4 s
  | .imac a0 a1 a2 a3 => Sys2Proof.Machine.execImac a0 a1 a2 a3 s
  | .imin a0 a1 a2 a3 a4 => Sys2Proof.Machine.execImin a0 a1 a2 a3 a4 s
  | .imax a0 a1 a2 a3 a4 => Sys2Proof.Machine.execImax a0 a1 a2 a3 a4 s
  | .iadd64 a0 a1 a2 a3 => Sys2Proof.Machine.execIadd64 a0 a1 a2 a3 s
  | .isub64 a0 a1 a2 a3 => Sys2Proof.Machine.execIsub64 a0 a1 a2 a3 s
  | .and a0 a1 a2 a3 => Sys2Proof.Machine.execAnd a0 a1 a2 a3 s
  | .or a0 a1 a2 a3 => Sys2Proof.Machine.execOr a0 a1 a2 a3 s
  | .xor a0 a1 a2 a3 => Sys2Proof.Machine.execXor a0 a1 a2 a3 s
  | .andn a0 a1 a2 a3 => Sys2Proof.Machine.execAndn a0 a1 a2 a3 s
  | .shl a0 a1 a2 a3 => Sys2Proof.Machine.execShl a0 a1 a2 a3 s
  | .shr a0 a1 a2 a3 => Sys2Proof.Machine.execShr a0 a1 a2 a3 s
  | .sar a0 a1 a2 a3 => Sys2Proof.Machine.execSar a0 a1 a2 a3 s
  | .rotl a0 a1 a2 a3 => Sys2Proof.Machine.execRotl a0 a1 a2 a3 s
  | .bfx a0 a1 a2 a3 a4 => Sys2Proof.Machine.execBfx a0 a1 a2 a3 a4 s
  | .bfi a0 a1 a2 a3 => Sys2Proof.Machine.execBfi a0 a1 a2 a3 s
  | .popc a0 a1 a2 => Sys2Proof.Machine.execPopc a0 a1 a2 s
  | .clz a0 a1 a2 => Sys2Proof.Machine.execClz a0 a1 a2 s
  | .brev a0 a1 a2 => Sys2Proof.Machine.execBrev a0 a1 a2 s
  | .sel a0 a1 a2 a3 a4 => Sys2Proof.Machine.execSel a0 a1 a2 a3 a4 s
  | .mov a0 a1 a2 => Sys2Proof.Machine.execMov a0 a1 a2 s
  | .fadd a0 a1 a2 a3 a4 => Sys2Proof.Machine.execFadd a0 a1 a2 a3 a4 s
  | .fsub a0 a1 a2 a3 a4 => Sys2Proof.Machine.execFsub a0 a1 a2 a3 a4 s
  | .fmul a0 a1 a2 a3 a4 => Sys2Proof.Machine.execFmul a0 a1 a2 a3 a4 s
  | .ffma a0 a1 a2 a3 a4 => Sys2Proof.Machine.execFfma a0 a1 a2 a3 a4 s
  | .ffms a0 a1 a2 a3 a4 => Sys2Proof.Machine.execFfms a0 a1 a2 a3 a4 s
  | .fnma a0 a1 a2 a3 a4 => Sys2Proof.Machine.execFnma a0 a1 a2 a3 a4 s
  | .fmin a0 a1 a2 a3 a4 => Sys2Proof.Machine.execFmin a0 a1 a2 a3 a4 s
  | .fmax a0 a1 a2 a3 a4 => Sys2Proof.Machine.execFmax a0 a1 a2 a3 a4 s
  | .icmpEq a0 a1 a2 a3 a4 => Sys2Proof.Machine.execIcmpEq a0 a1 a2 a3 a4 s
  | .icmpNe a0 a1 a2 a3 a4 => Sys2Proof.Machine.execIcmpNe a0 a1 a2 a3 a4 s
  | .icmpLt a0 a1 a2 a3 a4 => Sys2Proof.Machine.execIcmpLt a0 a1 a2 a3 a4 s
  | .icmpLe a0 a1 a2 a3 a4 => Sys2Proof.Machine.execIcmpLe a0 a1 a2 a3 a4 s
  | .icmpLtn a0 a1 a2 a3 a4 => Sys2Proof.Machine.execIcmpLtn a0 a1 a2 a3 a4 s
  | .icmpLen a0 a1 a2 a3 a4 => Sys2Proof.Machine.execIcmpLen a0 a1 a2 a3 a4 s
  | .fcmpEq a0 a1 a2 a3 a4 => Sys2Proof.Machine.execFcmpEq a0 a1 a2 a3 a4 s
  | .fcmpNe a0 a1 a2 a3 a4 => Sys2Proof.Machine.execFcmpNe a0 a1 a2 a3 a4 s
  | .fcmpLt a0 a1 a2 a3 a4 => Sys2Proof.Machine.execFcmpLt a0 a1 a2 a3 a4 s
  | .fcmpLe a0 a1 a2 a3 a4 => Sys2Proof.Machine.execFcmpLe a0 a1 a2 a3 a4 s
  | .fcmpUn a0 a1 a2 a3 a4 => Sys2Proof.Machine.execFcmpUn a0 a1 a2 a3 a4 s
  | .dcmpLt a0 a1 a2 a3 a4 => Sys2Proof.Machine.execDcmpLt a0 a1 a2 a3 a4 s
  | .dcmpEq a0 a1 a2 a3 a4 => Sys2Proof.Machine.execDcmpEq a0 a1 a2 a3 a4 s
  | .fabs a0 a1 a2 a3 => Sys2Proof.Machine.execFabs a0 a1 a2 a3 s
  | .fneg a0 a1 a2 a3 => Sys2Proof.Machine.execFneg a0 a1 a2 a3 s
  | .fclass a0 a1 a2 => Sys2Proof.Machine.execFclass a0 a1 a2 s
  | .shflIdx a0 a1 a2 a3 => Sys2Proof.Machine.execShflIdx a0 a1 a2 a3 s
  | .shflXor a0 a1 a2 a3 => Sys2Proof.Machine.execShflXor a0 a1 a2 a3 s
  | .shflUp a0 a1 a2 a3 => Sys2Proof.Machine.execShflUp a0 a1 a2 a3 s
  | .shflDn a0 a1 a2 a3 => Sys2Proof.Machine.execShflDn a0 a1 a2 a3 s
  | .ballot a0 a1 a2 => Sys2Proof.Machine.execBallot a0 a1 a2 s
  | .redadd a0 a1 a2 a3 a4 => Sys2Proof.Machine.execRedadd a0 a1 a2 a3 a4 s
  | .redmm a0 a1 a2 a3 a4 => Sys2Proof.Machine.execRedmm a0 a1 a2 a3 a4 s
  | .scan a0 a1 a2 a3 a4 => Sys2Proof.Machine.execScan a0 a1 a2 a3 a4 s
  | .readlane a0 a1 a2 a3 => Sys2Proof.Machine.execReadlane a0 a1 a2 a3 s
  | .shapeof a0 a1 a2 => Sys2Proof.Machine.execShapeof a0 a1 a2 s
  | .shapegen a0 a1 a2 => Sys2Proof.Machine.execShapegen a0 a1 a2 s
  | .movk a0 a1 a2 => Sys2Proof.Machine.execMovk a0 a1 a2 s
  | .mov64 a0 a1 a2 => Sys2Proof.Machine.execMov64 a0 a1 a2 s
  | .iaddi a0 a1 a2 => Sys2Proof.Machine.execIaddi a0 a1 a2 s
  | .andi a0 a1 a2 => Sys2Proof.Machine.execAndi a0 a1 a2 s
  | .ori a0 a1 a2 => Sys2Proof.Machine.execOri a0 a1 a2 s
  | .xori a0 a1 a2 => Sys2Proof.Machine.execXori a0 a1 a2 s
  | .shli a0 a1 a2 => Sys2Proof.Machine.execShli a0 a1 a2 s
  | .shri a0 a1 a2 => Sys2Proof.Machine.execShri a0 a1 a2 s
  | .sari a0 a1 a2 => Sys2Proof.Machine.execSari a0 a1 a2 s
  | .imuli a0 a1 a2 => Sys2Proof.Machine.execImuli a0 a1 a2 s
  | .icmpiEq a0 a1 a2 => Sys2Proof.Machine.execIcmpiEq a0 a1 a2 s
  | .icmpiLt a0 a1 a2 => Sys2Proof.Machine.execIcmpiLt a0 a1 a2 s
  | .icmpiLtn a0 a1 a2 => Sys2Proof.Machine.execIcmpiLtn a0 a1 a2 s
  | .iaddi64 a0 a1 a2 => Sys2Proof.Machine.execIaddi64 a0 a1 a2 s
  | .gets a0 a1 => Sys2Proof.Machine.execGets a0 a1 s
  | .sets a0 a1 => Sys2Proof.Machine.execSets a0 a1 s
  | .affine a0 a1 a2 => Sys2Proof.Machine.execAffine a0 a1 a2 s
  | .ldiLo a0 a1 => Sys2Proof.Machine.execLdiLo a0 a1 s
  | .ldiHi a0 a1 => Sys2Proof.Machine.execLdiHi a0 a1 s
  | .ldiS a0 a1 => Sys2Proof.Machine.execLdiS a0 a1 s
  | .ldif a0 a1 => Sys2Proof.Machine.execLdif a0 a1 s
  | .cvt a0 a1 a2 a3 a4 => Sys2Proof.Machine.execCvt a0 a1 a2 a3 a4 s
  | .kopAnd a0 a1 a2 => Sys2Proof.Machine.execKopAnd a0 a1 a2 s
  | .kopOr a0 a1 a2 => Sys2Proof.Machine.execKopOr a0 a1 a2 s
  | .kopXor a0 a1 a2 => Sys2Proof.Machine.execKopXor a0 a1 a2 s
  | .kopAndn a0 a1 a2 => Sys2Proof.Machine.execKopAndn a0 a1 a2 s
  | .kopNot a0 a1 => Sys2Proof.Machine.execKopNot a0 a1 s
  | .kopMov a0 a1 => Sys2Proof.Machine.execKopMov a0 a1 s
  | .kopSetall a0 => Sys2Proof.Machine.execKopSetall a0 s
  | .kopClear a0 => Sys2Proof.Machine.execKopClear a0 s
  | .kexecSave a0 => Sys2Proof.Machine.execKexecSave a0 s
  | .kexecSet a0 => Sys2Proof.Machine.execKexecSet a0 s
  | .kexecAnd a0 => Sys2Proof.Machine.execKexecAnd a0 s
  | .kexecAndn a0 => Sys2Proof.Machine.execKexecAndn a0 s
  | .kexecOr a0 => Sys2Proof.Machine.execKexecOr a0 s
  | .bra a0 => Sys2Proof.Machine.execBra a0 s
  | .brany a0 a1 => Sys2Proof.Machine.execBrany a0 a1 s
  | .brall a0 a1 => Sys2Proof.Machine.execBrall a0 a1 s
  | .brnone a0 a1 => Sys2Proof.Machine.execBrnone a0 a1 s
  | .call a0 => Sys2Proof.Machine.execCall a0 s
  | .reform a0 a1 => Sys2Proof.Machine.execReform a0 a1 s
  | .barInit a0 a1 => Sys2Proof.Machine.execBarInit a0 a1 s
  | .barArrive a0 => Sys2Proof.Machine.execBarArrive a0 s
  | .barWait a0 => Sys2Proof.Machine.execBarWait a0 s
  | .barSync a0 => Sys2Proof.Machine.execBarSync a0 s
  | .jmpr a0 => Sys2Proof.Machine.execJmpr a0 s
  | .trap a0 => Sys2Proof.Machine.execTrap a0 s
  | .ldN8 a0 a1 a2 a3 => Sys2Proof.Machine.execLdN8 a0 a1 a2 a3 s
  | .ldI8 a0 a1 a2 a3 => Sys2Proof.Machine.execLdI8 a0 a1 a2 a3 s
  | .ldN16 a0 a1 a2 a3 => Sys2Proof.Machine.execLdN16 a0 a1 a2 a3 s
  | .ldI16 a0 a1 a2 a3 => Sys2Proof.Machine.execLdI16 a0 a1 a2 a3 s
  | .ld32 a0 a1 a2 a3 => Sys2Proof.Machine.execLd32 a0 a1 a2 a3 s
  | .ld64 a0 a1 a2 a3 => Sys2Proof.Machine.execLd64 a0 a1 a2 a3 s
  | .ld128 a0 a1 a2 a3 => Sys2Proof.Machine.execLd128 a0 a1 a2 a3 s
  | .st8 a0 a1 a2 a3 => Sys2Proof.Machine.execSt8 a0 a1 a2 a3 s
  | .st16 a0 a1 a2 a3 => Sys2Proof.Machine.execSt16 a0 a1 a2 a3 s
  | .st32 a0 a1 a2 a3 => Sys2Proof.Machine.execSt32 a0 a1 a2 a3 s
  | .st64 a0 a1 a2 a3 => Sys2Proof.Machine.execSt64 a0 a1 a2 a3 s
  | .st128 a0 a1 a2 a3 => Sys2Proof.Machine.execSt128 a0 a1 a2 a3 s
  | .ldp32 a0 a1 a2 => Sys2Proof.Machine.execLdp32 a0 a1 a2 s
  | .ldp128 a0 a1 a2 => Sys2Proof.Machine.execLdp128 a0 a1 a2 s
  | .stp32 a0 a1 a2 => Sys2Proof.Machine.execStp32 a0 a1 a2 s
  | .stp128 a0 a1 a2 => Sys2Proof.Machine.execStp128 a0 a1 a2 s
  | .atomAddI32 a0 a1 a2 a3 a4 => Sys2Proof.Machine.execAtomAddI32 a0 a1 a2 a3 a4 s
  | .atomAddI64 a0 a1 a2 a3 a4 => Sys2Proof.Machine.execAtomAddI64 a0 a1 a2 a3 a4 s
  | .atomMinI32 a0 a1 a2 a3 a4 => Sys2Proof.Machine.execAtomMinI32 a0 a1 a2 a3 a4 s
  | .atomMaxI32 a0 a1 a2 a3 a4 => Sys2Proof.Machine.execAtomMaxI32 a0 a1 a2 a3 a4 s
  | .atomMinN32 a0 a1 a2 a3 a4 => Sys2Proof.Machine.execAtomMinN32 a0 a1 a2 a3 a4 s
  | .atomMaxN32 a0 a1 a2 a3 a4 => Sys2Proof.Machine.execAtomMaxN32 a0 a1 a2 a3 a4 s
  | .atomAnd a0 a1 a2 a3 a4 => Sys2Proof.Machine.execAtomAnd a0 a1 a2 a3 a4 s
  | .atomOr a0 a1 a2 a3 a4 => Sys2Proof.Machine.execAtomOr a0 a1 a2 a3 a4 s
  | .atomXor a0 a1 a2 a3 a4 => Sys2Proof.Machine.execAtomXor a0 a1 a2 a3 a4 s
  | .atomXchg a0 a1 a2 a3 a4 => Sys2Proof.Machine.execAtomXchg a0 a1 a2 a3 a4 s
  | .atomCas a0 a1 a2 a3 a4 => Sys2Proof.Machine.execAtomCas a0 a1 a2 a3 a4 s
  | .atomXchg64 a0 a1 a2 a3 a4 => Sys2Proof.Machine.execAtomXchg64 a0 a1 a2 a3 a4 s
  | .fenceAcq a0 => Sys2Proof.Machine.execFenceAcq a0 s
  | .fenceRel a0 => Sys2Proof.Machine.execFenceRel a0 s
  | .fenceFull a0 => Sys2Proof.Machine.execFenceFull a0 s
  | .xfence a0 a1 a2 => Sys2Proof.Machine.execXfence a0 a1 a2 s
  | .spill a0 a1 => Sys2Proof.Machine.execSpill a0 a1 s
  | .fill a0 a1 => Sys2Proof.Machine.execFill a0 a1 s
  | .waita a0 a1 => Sys2Proof.Machine.execWaita a0 a1 s
  | .wake a0 a1 => Sys2Proof.Machine.execWake a0 a1 s
  | .waitp a0 a1 a2 => Sys2Proof.Machine.execWaitp a0 a1 a2 s
  | .xadd a0 a1 a2 => Sys2Proof.Machine.execXadd a0 a1 a2 s
  | .esample a0 a1 a2 => Sys2Proof.Machine.execEsample a0 a1 a2 s
  | .eload a0 a1 a2 => Sys2Proof.Machine.execEload a0 a1 a2 s
  | .edecay a0 a1 => Sys2Proof.Machine.execEdecay a0 a1 s
  | .esweep a0 => Sys2Proof.Machine.execEsweep a0 s
  | .eregion a0 a1 => Sys2Proof.Machine.execEregion a0 a1 s
  | .prefetch a0 => Sys2Proof.Machine.execPrefetch a0 s
  | .mma a0 => Sys2Proof.Machine.execMma a0 s
  | .mdrain a0 => Sys2Proof.Machine.execMdrain a0 s
  | .mzero a0 => Sys2Proof.Machine.execMzero a0 s
  | .tkgive a0 => Sys2Proof.Machine.execTkgive a0 s
  | .tktake a0 => Sys2Proof.Machine.execTktake a0 s
  | .accrd a0 a1 a2 a3 => Sys2Proof.Machine.execAccrd a0 a1 a2 a3 s
  | .accwr a0 a1 a2 a3 => Sys2Proof.Machine.execAccwr a0 a1 a2 a3 s
  | .mstat a0 => Sys2Proof.Machine.execMstat a0 s
  | .sfi a0 a1 a2 a3 => Sys2Proof.Machine.execSfi a0 a1 a2 a3 s
  | .sfwait a0 => Sys2Proof.Machine.execSfwait a0 s
  | .sfpoll a0 a1 => Sys2Proof.Machine.execSfpoll a0 a1 s
  | .tidset a0 a1 => Sys2Proof.Machine.execTidset a0 a1 s
  | .sopen a0 a1 => Sys2Proof.Machine.execSopen a0 a1 s
  | .sgo a0 => Sys2Proof.Machine.execSgo a0 s
  | .sslot a0 a1 => Sys2Proof.Machine.execSslot a0 a1 s
  | .sstat a0 a1 => Sys2Proof.Machine.execSstat a0 a1 s
  | .sclose a0 => Sys2Proof.Machine.execSclose a0 s
  | .copy a0 a1 => Sys2Proof.Machine.execCopy a0 a1 s
  | .sort a0 a1 => Sys2Proof.Machine.execSort a0 a1 s
  | .bin a0 a1 => Sys2Proof.Machine.execBin a0 a1 s
  | .agdim a0 a1 a2 => Sys2Proof.Machine.execAgdim a0 a1 a2 s
  | .agbase a0 a1 => Sys2Proof.Machine.execAgbase a0 a1 s
  | .agld a0 a1 a2 => Sys2Proof.Machine.execAgld a0 a1 a2 s
  | .agst a0 a1 a2 => Sys2Proof.Machine.execAgst a0 a1 a2 s
  | .qstat a0 a1 => Sys2Proof.Machine.execQstat a0 a1 s
  | .coll a0 a1 => Sys2Proof.Machine.execColl a0 a1 s
  | .camset a0 => Sys2Proof.Machine.execCamset a0 s
  | .camgen a0 a1 => Sys2Proof.Machine.execCamgen a0 a1 s
  | .bvhset a0 a1 => Sys2Proof.Machine.execBvhset a0 a1 s
  | .trace a0 a1 a2 a3 => Sys2Proof.Machine.execTrace a0 a1 a2 a3 s
  | .mltset a0 a1 => Sys2Proof.Machine.execMltset a0 a1 s
  | .fragins a0 a1 => Sys2Proof.Machine.execFragins a0 a1 s
  | .lpop a0 a1 a2 => Sys2Proof.Machine.execLpop a0 a1 a2 s
  | .lresolve a0 a1 a2 => Sys2Proof.Machine.execLresolve a0 a1 a2 s
  | .lclear a0 a1 => Sys2Proof.Machine.execLclear a0 a1 s
  | .emit a0 a1 a2 => Sys2Proof.Machine.execEmit a0 a1 a2 s
  | .cycles a0 => Sys2Proof.Machine.execCycles a0 s
  | .lineEviction a0 a1 a2 => Sys2Proof.Machine.execLineEviction a0 a1 a2 s
  | .uncorrectableError a0 => Sys2Proof.Machine.execUncorrectableError a0 s
  | .hdmDecoderWrite a0 a1 => Sys2Proof.Machine.execHdmDecoderWrite a0 a1 s
  | .staggerExpiry => Sys2Proof.Machine.execStaggerExpiry s
  | .completionAck => Sys2Proof.Machine.execCompletionAck s
  | .faultsaveExpiry => Sys2Proof.Machine.execFaultsaveExpiry s
  | .deadlineExpiry => Sys2Proof.Machine.execDeadlineExpiry s
  | .hangDetection => Sys2Proof.Machine.execHangDetection s
  | .loadInstall => Sys2Proof.Machine.execLoadInstall s
  | .tlbInvalidateRange => Sys2Proof.Machine.execTlbInvalidateRange s
  | .tlbInvalidateAll => Sys2Proof.Machine.execTlbInvalidateAll s
  | .hullTakeover => Sys2Proof.Machine.execHullTakeover s
  | .hullFailure => Sys2Proof.Machine.execHullFailure s
  | .kexecAll => Sys2Proof.Machine.execKexecAll s
  | .ret => Sys2Proof.Machine.execRet s
  | .nop => Sys2Proof.Machine.execNop s
  | .gbar => Sys2Proof.Machine.execGbar s
  | .yield => Sys2Proof.Machine.execYield s
  | .exit => Sys2Proof.Machine.execExit s
  | .acquire => Sys2Proof.Machine.execAcquire s
  | .rte => Sys2Proof.Machine.execRte s
  | .rteSkip => Sys2Proof.Machine.execRteSkip s
  | .brk => Sys2Proof.Machine.execBrk s
  | .ordenter => Sys2Proof.Machine.execOrdenter s
  | .ordexit => Sys2Proof.Machine.execOrdexit s
  | .fenceLocal => Sys2Proof.Machine.execFenceLocal s
  | .commit => Sys2Proof.Machine.execCommit s
  | .tlbInvalidationComplete => Sys2Proof.Machine.execTlbInvalidationComplete s

end Sys2Proof.Machine
end

