-- ==== Sys2Proof/Machine/Pick.lean ====
section
/-!
DEFINITION. What a step runs (log 3): the next word of the clause the current stream is in; else the event that stands first in
the agenda; else, by a fixed order that the manual allows, an event that can happen, or a stream that can issue (05 R152 to
R155). Bookkeeping of the hang detector stands around it (15 R365).
-/
namespace Sys2Proof.Machine

/-! ## The current word -/

/-- Whether the clauses of a group run. -/
def Group.runs (g : Group) : Bool := g.st = .prologue || g.st = .full

/-- The word of the clause in progress that the current stream performs next, where it performs one. -/
def State.wordNow (s : State) : Option Word :=
  let x := s.str
  if s.grp.runs && x.wait = .nothing then x.clause.words[x.clause.idx]? else none

/-- Perform a word of the current stream's clause: the instruction it decodes to; a word that decodes to none traps with the
cause CLAUSE_ISSUE finds (01 R46). -/
def State.runWordNow (s : State) (w : Word) : Host.Outcome State Fault Refusal :=
  match decode w with
  | some i => exec i s
  | none =>
    let c := s.str.clause
    match s.wordOf (hClass c.header) (decide (c.words.length ≤ c.idx + 1)) w with
    | .error cause => .next (s.tick.takeTrap ({ cause := cause : Trap }.atWord (c.idx + 1)) s.str.countOf)
    | .ok i => exec i s

/-! ## Streams -/

/-- A choice of the scheduler: an event, what is held back settling, a piece of a collective's work, or a stream that issues or goes on. -/
inductive Choice where
  | event (i : Instr)
  | settle
  | coll (gid n : Nat)
  | run (w : Who)
  deriving DecidableEq, Repr

/-- Whether a stream stands inside a clause at a wait that may have ended. -/
def State.canGoOn (s : State) (w : Who) : Bool :=
  let g := s.group w.gid
  let x := s.stream w
  g.runs && x.present && !x.ended && !x.clause.words.isEmpty && x.wait ≠ .parked && !s.stopped w

/-- A stream takes its turn: it goes on at its wait inside a clause, where an engine trap that is due is taken at once at a WAITP
(11 R271); or it takes up its next clause. -/
def State.turnOf (s : State) (w : Who) : Host.Outcome State Fault Refusal :=
  let s := { s with cur := w }
  let x := s.str
  match x.clause.words[x.clause.idx]?, x.wait, firstDue x.due, x.handler with
  | some _, .waitp _ _ _, some t, false => .next ((s.tick.setStr { x with due := dropTrap t x.due }).takeTrap t x.countOf)
  | some v, _, _, _ => s.runWordNow v
  | none, _, _, _ => execClauseIssue w.gid w.bid w.acc s

/-- Whether a stream's turn would change it, or its group's life. -/
def State.readyStream (s : State) (w : Who) : Bool :=
  (s.canIssue w || s.canGoOn w) &&
    match s.turnOf w with
    | .next t => t.stream w ≠ s.stream w || (t.group w.gid).st ≠ (s.group w.gid).st
    | _ => true

/-- A bundle that has started, by name. -/
structure Slot where
  gid : Nat
  bid : Nat
  g   : Group
  b   : Bundle

/-- The started bundles of the groups that run. -/
def State.slots (s : State) : List Slot :=
  s.groups.flatMap fun e =>
    if e.2.runs then (e.2.bundles.filter fun b => b.2.started).map fun b => { gid := e.1, bid := b.1, g := e.2, b := b.2 } else []

/-- The streams of a bundle that are ready. -/
def State.readyOf (s : State) (k : Slot) : List Bool :=
  [false, true].filter fun a => s.readyStream { gid := k.gid, bid := k.bid, acc := a }

/-- PRIO of a bundle, 7 where it is promoted (05 R152). -/
def State.prioOf (s : State) (k : Slot) : Nat := if k.b.promoted then 7 else nPrio (s.nodeRec k.g.node)

/-- Whether one of two bundles goes first by R152: higher PRIO, then longer ready. -/
def State.goesFirst (s : State) (a b : Slot) : Bool :=
  decide (s.prioOf b < s.prioOf a) || (s.prioOf a = s.prioOf b && decide (a.b.ready < b.b.ready))

/-- The first of some bundles by an order; of equals, the one that stands first. -/
def firstBy (before : Slot → Slot → Bool) : List Slot → Option Slot
  | [] => none
  | k :: ks =>
    match firstBy before ks with
    | none => some k
    | some m => if before m k then some m else some k

/-- Whether one of two bundles of an ORDERED node ranks lower (05 R153). -/
def ranksBelow (a b : Slot) : Bool :=
  decide (a.g.group < b.g.group) || (a.g.group = b.g.group && decide (a.bid < b.bid))

/-- The candidates of a core for issue: every ready bundle of a default node; of an ORDERED node the current bundle until it stands
at a switch point, else its lowest-ranked ready bundle (05 R152, R153). all are the core's bundles, ready the ready ones. -/
def State.candidates (s : State) (all ready : List Slot) : List Slot :=
  ready.filter fun k =>
    if nOrdered (s.nodeRec k.g.node) then
      let mine := fun (m : Slot) => m.g.node = k.g.node
      match all.find? fun m => mine m && m.b.current && !m.b.atSwitch with
      | some m => m.gid = k.gid && m.bid = k.bid
      | none => !ready.any fun m => mine m && ranksBelow m k
    else true

/-- The bundle that issues: the first of each core's candidates by R152, and of these the one that has been ready longest. -/
def State.pickSlot (s : State) (all ready : List Slot) : Option Slot :=
  let cores := ready.foldl (fun (l : List Nat) k => if l.contains k.g.core then l else l ++ [k.g.core]) []
  let firsts := cores.filterMap fun c =>
    let here := fun (l : List Slot) => l.filter fun k => k.g.core = c
    firstBy s.goesFirst (s.candidates (here all) (here ready))
  firstBy (fun a b => decide (a.b.ready < b.b.ready)) firsts

/-- The stream of a bundle that issues: where both are ready, the one that did not issue last (05 R153 allows any order). -/
def pickStream (k : Slot) (l : List Bool) : Bool := if l.contains (!k.b.lastAcc) then !k.b.lastAcc else k.b.lastAcc

/-- The bundles that are ready. -/
def State.readySlots (s : State) : List Slot := s.slots.filter fun k => !(s.readyOf k).isEmpty

/-- Which bundles are ready is noted; those that are not count as ready from now on at the earliest (05 R152). -/
def State.noteReady (s : State) : State :=
  let ready := s.readySlots
  { s with groups := s.groups.map fun e =>
      (e.1, { e.2 with bundles := e.2.bundles.map fun b =>
        if (ready.any fun k => k.gid = e.1 && k.bid = b.1) then (b.1, { b.2 with isReady := true })
        else (b.1, { b.2 with isReady := false, ready := s.clock }) }) }

/-- A stream is chosen: its bundle becomes the current one of its ORDERED node on its core (05 R153). -/
def State.choose (s : State) (k : Slot) (acc : Bool) : State :=
  { s with groups := s.groups.map fun e =>
      (e.1, { e.2 with bundles := e.2.bundles.map fun b =>
        if e.1 = k.gid ∧ b.1 = k.bid then (b.1, { b.2 with lastAcc := acc, current := true })
        else if e.2.node = k.g.node ∧ e.2.core = k.g.core then (b.1, { b.2 with current := false })
        else b }) }

/-- The stream that takes a turn, and the state that records the choice. -/
def State.pickRun (s : State) : Option Who × State :=
  match s.pickSlot s.slots s.readySlots with
  | none => (none, s)
  | some k =>
    let a := pickStream k (s.readyOf k)
    (some { gid := k.gid, bid := k.bid, acc := a }, s.choose k a)

/-! ## Events -/

/-- Whether an event changes the state beside its clock. -/
def State.fires (s : State) (i : Instr) : Bool :=
  match exec i s with
  | .next t => { t with clock := s.clock } ≠ s
  | _ => true

/-- The completions of clauses that have nothing left to do (01 R13, R15). -/
def State.completions (s : State) : List Instr :=
  s.groups.flatMap fun e => if s.resident e.1 then
      e.2.bundles.flatMap fun b => [false, true].flatMap fun a =>
        (b.2.stream a).outst.flatMap fun o =>
          if o.id = (b.2.stream a).clause.id then []
          else (if o.srcsRead then [] else [.sourcesRead e.1 b.1 a o.id]) ++
            (if s.clauseWorks { gid := e.1, bid := b.1, acc := a } o.id then [] else [.clauseCompletion e.1 b.1 a o.id])
    else []

/-- The work of a context as an event; a collective's is none of the table's. -/
def ctxWork (gid n : Nat) (c : Ctx) : List Choice :=
  if c.st ≠ .running ∨ c.parked then []
  else
    match c.kind with
    | .none => []
    | .stream | .copy => [.event (if lDrain c.blk then .slotDrain gid n else .slotFill gid n)]
    | .sort => [.event (.sortPass gid n)]
    | .bin => [.event (.binCompletion gid n)]
    | .coll => [.coll gid n]

/-- The work of the engines of a group (11, 12, 13). -/
def Group.work (g : Group) (gid : Nat) : List Choice :=
  (g.ctxs.flatMap fun c => ctxWork gid c.1 c.2) ++
  (g.mcmds.map fun m => .event (if m.2.drain then .mdrainRow gid m.1 else .mmaChunk gid m.1)) ++
  g.bundles.flatMap fun b =>
    ((b.2.toks.filter fun t => t.2.pending && !t.2.written).map fun t => .event (.sfiResult gid b.1 t.1)) ++
    ((List.range b.2.walks.length).map fun k => .event (.walkPoint gid b.1 k)) ++
    ((List.range b.2.traces.length).map fun k => .event (.traceCompletion gid b.1 k))

/-- The events that wait on time or on room, of the groups and cores (04 R130, 05 R150, R152, 07 R185, 15 R353). -/
def State.groupEvents (s : State) : List Instr :=
  s.groups.flatMap fun e =>
    (if s.resident e.1 then
      (e.2.rbins.map fun b => .reformageExpiry e.1 b.1.toNat) ++ [.freshBundleDraw e.1, .acquireGrant e.2.core] ++
        (e.2.bundles.flatMap fun b => [.waitaPoll e.1 b.1 false, .waitaPoll e.1 b.1 true, .starvationPromotion e.1 b.1]) ++
        (if e.2.saving.isSome then [.groupSave e.1] else [])
    else [])

/-- A core a saved group can be restored to, and one that can take the next group of a launch. -/
def State.moves (s : State) : List Instr :=
  (s.groups.filterMap fun e => if e.2.st = .saved then
      ((List.range Config.cores).find? fun c => s.canRestore e.1 c).map fun c => .groupRestore e.1 c else none) ++
  (match s.graph with
   | none => []
   | some g => g.launches.filterMap fun l =>
      if nCohort (s.nodeRec l.2.node) ∧ l.2.again = [] ∧ l.2.next = 0 then some (.groupAdmission l.1 0)
      else ((List.range Config.cores).find? fun c => s.canAdmit l.2 c).map fun c => .groupAdmission l.1 c)

/-- The message a mailbox holds, as the instruction that takes it up again. -/
def heldInstr (m : Nat) : Nat × DWord × List Word → Instr
  | (1, h, ws) => .record m h ws
  | (2, h, ws) => .bind m h ws
  | (3, h, ws) => .replycfg m h ws
  | (4, h, ws) => .load m h ws
  | (5, h, ws) => .preempt m h ws
  | (6, h, ws) => .withdraw m h ws
  | (7, h, ws) => .attest m h ws
  | (_, h, ws) => .restart m h ws

/-- The events of the device (05 R146, R149, 15 R344, R354, R355, R365, 18 R383, R391, R392, 19 R404). -/
def State.deviceEvents (s : State) : List Instr :=
  [.staggerExpiry, .faultsaveExpiry, .deadlineExpiry, .completionAck, .loadInstall] ++
  (match s.graph with
   | none => []
   | some g => g.bins.map fun b => .binTimerExpiry b.1) ++
  (s.dev.mboxes.flatMap fun m => .replyEntryWrite m.1 :: (m.2.held.map (heldInstr m.1))) ++
  (s.dev.bankMig.map fun b => .bankMigrationChunk b.1)

/-- The events that go before everything else: an invalidation's end, the hang detector, completions, and contributions. -/
def State.urgent (s : State) : List Choice :=
  let first : List Instr := [.tlbInvalidationComplete, .hangDetection]
  let adds : List Instr := if s.contribs.isEmpty then [] else [.estContributionApply 0]
  (first ++ s.completions ++ adds).map .event

/-- The other events, in the order the model takes them. -/
def State.events (s : State) : List Choice :=
  s.groupEvents.map .event ++ [.settle] ++
  (s.groups.flatMap fun e => if s.resident e.1 then e.2.work e.1 else []) ++
  (s.deviceEvents ++ s.moves).map .event

/-- Whether a choice happens. -/
def State.happens (s : State) (c : Choice) : Bool :=
  match c with
  | .event i => s.fires i
  | .settle => s.settle ≠ s
  | .coll gid n => s.collStep gid n ≠ s
  | .run _ => false

/-! ## The step -/

/-- The agenda's first event, and the state without it. A word of a clause is no event, and is passed over. -/
def State.agendaHead (s : State) : Option (Instr × State) :=
  match s.agenda with
  | [] => none
  | i :: is => some (i, { s with agenda := is })

/-- An event of the agenda happens. -/
def State.runAgenda (s : State) (i : Instr) : Host.Outcome State Fault Refusal :=
  if (classOf i).isSome then .next s.tick else exec i s

/-- A choice is carried out. -/
def State.carry (s : State) (c : Choice) : Host.Outcome State Fault Refusal :=
  match c with
  | .event i => exec i s
  | .settle => .next s.tick.settle
  | .coll gid n => .next (s.tick.collStep gid n)
  | .run w => s.turnOf w

/-- A stream takes its turn, where one can. -/
def State.runStream (s : State) : Option (Host.Outcome State Fault Refusal) :=
  match s.pickRun with
  | (some w, t) => some (t.turnOf w)
  | (none, _) => none

/-- The first event of a list that happens is carried out. -/
def State.runEvent (s : State) (l : List Choice) : Option (Host.Outcome State Fault Refusal) := (l.find? s.happens).map s.carry

/-- By turns another event or a stream goes first; where neither can, a clock passes. -/
def State.runTurn (s : State) : Host.Outcome State Fault Refusal :=
  let s := { s with turn := !s.turn }
  if s.turn then (s.runStream.or (s.runEvent s.events)).getD (.next s.pickRun.2.tick)
  else ((s.runEvent s.events).or s.runStream).getD (.next s.pickRun.2.tick)

/-- What happens where the current stream performs no word and the agenda is empty (log 3). -/
def State.runDefault (s : State) : Host.Outcome State Fault Refusal := (s.runEvent s.urgent).getD s.runTurn

/-- The hang counter after a step: where the step itself has put it back to 0 it stays there (15 R365). -/
def State.account (s t : State) : State :=
  if t.hangCtr = 0 ∧ s.hangCtr ≠ 0 then t else { t with hangCtr := s.hangCount t }

/-- The outcome of a step from s with its bookkeeping. -/
def State.accounted (s : State) : Host.Outcome State Fault Refusal → Host.Outcome State Fault Refusal
  | .next t => .next (s.account t)
  | .fault r => .fault r
  | .refused r => .refused r

/-- What a step does. -/
def State.stepRaw (s : State) : Host.Outcome State Fault Refusal :=
  match s.wordNow with
  | some w => s.runWordNow w
  | none =>
    let s := s.noteReady
    match s.agendaHead with
    | some (i, t) => t.runAgenda i
    | none => s.runDefault

/-! ## Placing a word -/

/-- The bits a header gives to a class (01 R9). -/
def classBits (c : Class) : Nat :=
  match c with
  | .alu => 0
  | .mem => 1
  | .mxe => 2
  | .sfq => 3
  | .ste => 4
  | .trv => 5
  | .ctl => 6
  | .sys => 7

/-- The header of a clause of one word: no flag is set or waited for (01 R9, R10). -/
def placedHeader (acc : Bool) (c : Class) : Word :=
  BitVec.ofNat 32 (3 * 2 ^ 30 + bitOf acc 29 + 15 * 2 ^ 23 + 15 * 2 ^ 19 + classBits c * 2 ^ 4 + 1)

/-- Whether a word stands in the A-stream: an instruction that only that stream may execute (11 R250). -/
def placedAcc (w : Word) : Bool :=
  match decode w with
  | some i => !streamLegal false i
  | none => false

/-- The class of clause a word stands in. -/
def placedClass (w : Word) : Class :=
  match decode w with
  | some i => (classOf i).getD .alu
  | none => .alu

/-- A graph of one node for a word to run in, where none is resident: width 8, one bundle, all barriers, tiles and G slots that one
group can have. -/
def placedGraph : Graph :=
  { gen := 1, nodes := [[0, 0, BitVec.ofNat 32 (64 * 2 ^ 18 + 2 ^ 7 + 1), 0, 0, BitVec.ofNat 32 (8 * 2 ^ 7 + 96), 917504, 917504, 0, 0, 0, 0, 0,
      0, 0, 0, 8]] }

/-- A group of one bundle for a word to run in. -/
def placedGroup (acc : Bool) : Group :=
  let b : Bundle := {
    started := true, live := 0xFF, orig := List.range 8, pat := { l := 8 },
    xs := { present := true, exec := 0xFF, entryExec := 0xFF },
    as := if acc then { present := true, exec := 1, entryExec := 1 } else {} }
  { st := .full, isFull := true, handle := 0x10000, nb := 1, scrSize := 917504, bundles := [(0, b)] }

/-- The state in which the current stream's next word is w: w stands as the only word of the clause in progress. Where no group
runs, a graph of one node and a group of one bundle are loaded for it (log 8). -/
def State.placeWord (s : State) (w : Word) : State :=
  let acc := placedAcc w
  let s :=
    if s.grp.runs && (s.stream { s.cur with acc := acc }).present && s.graph.isSome then { s with cur := { s.cur with acc := acc } }
    else
      let cur : Who := { gid := s.nextGid, bid := 0, acc := acc }
      { s with graph := some (s.graph.getD placedGraph), groups := Tab.put s.groups s.nextGid (placedGroup acc), cur := cur,
               nextGid := s.nextGid + 1 }
  let x := s.str
  s.setStr { x with
    ended := false, wait := .nothing, pend := none,
    clause := { header := placedHeader acc (placedClass w), words := [w], idx := 0, exec0 := x.exec, execP := x.exec } }

end Sys2Proof.Machine
end

