-- ==== Sys2Proof/Machine/Step.lean ====
section
/-!
DEFINITION. One step of the machine, and the state whose next step runs a given word.
-/
namespace Sys2Proof.Machine

/-- One step: the next word of the current stream, or an event, with the hang detector's count (log 3). -/
def step (s : State) : Host.Outcome State Fault Refusal := s.accounted s.stepRaw

/-- The state in which the next step fetches and runs the word whose low nbits bits are those of w (log 8). Every instruction is one
word, so the bits above are 0. -/
def State.withFetchWord (s : State) (nbits w : Nat) : State := s.placeWord (BitVec.ofNat 32 (w % 2 ^ nbits))

end Sys2Proof.Machine
end

