-- ==== Sys2Proof/Safety.lean ====
section
/-!
DEFINITION. What a safe run is: every step answers a next state; and what holds of the states a run passes through (07 R162, 15 R365).
-/
namespace Sys2Proof.Machine

/-- A state from which a step answers a next state. -/
def State.goesOn (s : State) : Prop := ∃ t, step s = .next t

/-- A run of k steps that answers a state: none of its steps faults or refuses. -/
def runs : Nat → State → State → Prop
  | 0, s, t => s = t
  | k + 1, s, t => ∃ u, step s = .next u ∧ runs k u t

/-- The hang detector has counted only where the context stands still, or where a bundle of an ORDERED node spins (05 R154, 15 R365). -/
def State.hangInv (s : State) : Prop := s.hangIdle = false → s.spins = false → s.hangCtr = 0

/-! ## A word that runs -/

/-- Whether v register r stands in place, not in an automatic slot (04 R115). -/
def State.inPlace (s : State) (r : Nat) : Bool :=
  match s.bun.vreg r with
  | .val _ => true
  | .spilled _ => false

/-- Whether designator d names a v, o or x register that reads in place. -/
def State.plainDes (s : State) (d : Nat) : Bool :=
  if s.cur.acc then decide (d < 0x20) else decide (d < 0x60) && s.inPlace d || decide (0x60 ≤ d) && decide (d < 0x68)

/-- Nothing stands against word i of the clause in progress: it passes the checks of R46, its queues have the entries and the room it
needs (11 R253), none of its operands is poisoned (15 R350), no walk is left that a release waits for (08 R204), its sources stand in
place (04 R116), and what its destinations keep can be read (04 R114). -/
def State.clear (s : State) (i : Instr) : Bool :=
  (s.checkWord (hClass s.str.clause.header) (decide (s.str.clause.words.length ≤ s.str.clause.idx + 1)) i).isNone &&
    decide (s.queueAns i = .ok) && (s.poisonOpnd i).isNone && !s.walksHold i && (s.destErr i).isNone &&
    (s.cur.acc || ((regsOf (usesOf i).rs).filter fun r => decide (r < 0x60)).all s.inPlace)

/-- The G slots hold what the bundle holds and waits for after a word (04 R115); the A-stream needs none. -/
def State.fits (t : State) : Bool := t.cur.acc || !t.bun.started || decide (t.slotsHeld ≤ t.budget t.grp)

/-- Words of v registers an instruction writes. -/
def vWords (i : Instr) : Nat := (((usesOf i).ws.filter fun u => decide (u.des < 0x60)).map (·.n)).sum

/-- The G slots hold what the bundle holds and waits for and every v register word i writes, so that no register is spilled for it
(04 R115). -/
def State.room (s : State) (i : Instr) : Bool :=
  s.cur.acc || !s.bun.started || decide (s.slotsHeld + vWords i ≤ s.budget s.grp)

/-- What stands around a word's own effect t, from the state s before it: the automatic slots of registers written are freed, its
pops are held, NB writes k15, and the stream goes on to the next word or the next header (01 R20, R29; 04 R116; 11 R254). -/
def State.close (t s : State) (i : Instr) : State :=
  (((if t.cur.acc || !t.bun.started then t else t.freeSlots s.bun).doPops i).writeNb i true).advance

/-- A word takes a trap: the clause has no effect, and TRAPINFO carries the word index where R341 gives it (15 R332, R341). -/
def State.trapWord (s : State) (e : Trap) : State := s.tick.takeTrap (e.atWord (s.str.clause.idx + 1)) s.str.countOf

/-- Word i runs to its end with own effect t, wherever nothing stands against it and the G slots suffice. -/
def completes (s : State) (i : Instr) (t : State) : Prop := s.clear i = true → s.room i = true → exec i s = .next (t.close s.tick i)

/-- Word i stands at a wait, its own effect so far being t, wherever nothing stands against it. -/
def waits (s : State) (i : Instr) (w : WaitOn) (t : State) : Prop :=
  s.clear i = true → exec i s = .next (t.setStr { t.str with wait := w })

/-- Word i takes trap e, wherever nothing stands against it: none of its clause's effects stands. Where the trap is the POISON that a
group of a CONTAIN node consumes, the group ends or starts again instead (07 R191). -/
def traps (s : State) (i : Instr) (e : Trap) : Prop :=
  s.clear i = true → exec i s = .next (s.tick.wordTrap i (e.atWord (s.str.clause.idx + 1)) s.str.countOf)

/-- What accesses to memory may change in s, taken from t: home bytes and poison, the copies and buffers, the current group's read buffer
among them, translations and their marks, ports. -/
def State.memOf (s t : State) : State :=
  let s := if t.grp.scrOld = s.grp.scrOld then s else s.setGrp { s.grp with scrOld := t.grp.scrOld }
  { s with mem := t.mem, poisoned := t.poisoned, l1 := t.l1, cl := t.cl, tlb := t.tlb, overlay := t.overlay, freeCtr := t.freeCtr,
           uoq := t.uoq, pbuf := t.pbuf, found := t.found,
           dev := { s.dev with ports := t.dev.ports, hostHeld := t.dev.hostHeld } }

/-- The state with the current bundle blanked, and with the current group blanked: two states agree outside the bundle, or the group,
where these are equal. -/
def State.outside (s : State) : State := s.setBun {}
def State.beyond (s : State) : State := s.setGrp {}

end Sys2Proof.Machine
end

