-- ==== Sys2Proof/Rules.lean ====
section
/-!
DEFINITION. What the numbered rules give as the result of an instruction, lane by lane, written apart from the meanings that exec
runs: the statements hold the one against the other.
-/
namespace Sys2Proof.Rules
open Machine

/-! ## Integers (02 R54 to R60) -/

/-- An exact integer saturated to a range and reduced to a word (02 R54). -/
def sat (lo hi x : Int) : Word := BitVec.ofInt 32 (max lo (min hi x))

/-- Position and cut length of a bit field (02 R55). -/
def fieldPos (b : Word) : Nat := b.toNat % 32
def fieldCut (b : Word) : Nat := min (b.toNat / 256 % 32) (32 - fieldPos b)

/-- A lane's result of a one-word integer instruction from its a, b and old d, with the operands named (02 R54, R55): a and b are
read as numbers, sx or zx as the table of R54 says. -/
def intResult (i : Instr) : Option (BitVec 7 × BitVec 7 × BitVec 7 × (Word → Word → Word → Word)) :=
  match i with
  | .iadd _ m d a b => some (d, a, b, fun x y _ =>
      if m = 0#2 then BitVec.ofNat 32 (x.toNat + y.toNat)
      else if m = 1#2 then sat (-2 ^ 31) (2 ^ 31 - 1) (x.toInt + y.toInt) else sat 0 (2 ^ 32 - 1) (x.toNat + y.toNat))
  | .isub _ m d a b => some (d, a, b, fun x y _ =>
      if m = 0#2 then BitVec.ofInt 32 ((x.toNat : Int) - y.toNat)
      else if m = 1#2 then sat (-2 ^ 31) (2 ^ 31 - 1) (x.toInt - y.toInt) else sat 0 (2 ^ 32 - 1) ((x.toNat : Int) - y.toNat))
  | .imul _ d a b => some (d, a, b, fun x y _ => BitVec.ofNat 32 (x.toNat * y.toNat))
  | .imulh _ m d a b => some (d, a, b, fun x y _ =>
      if m = 0#2 then BitVec.ofInt 32 (x.toInt * y.toInt / 2 ^ 32)
      else if m = 1#2 then BitVec.ofNat 32 (x.toNat * y.toNat / 2 ^ 32) else BitVec.ofInt 32 (x.toInt * y.toNat / 2 ^ 32))
  | .imac _ d a b => some (d, a, b, fun x y z => BitVec.ofNat 32 (z.toNat + x.toNat * y.toNat))
  | .imin _ m d a b => some (d, a, b, fun x y _ =>
      if m = 0#2 then BitVec.ofInt 32 (min x.toInt y.toInt) else BitVec.ofNat 32 (min x.toNat y.toNat))
  | .imax _ m d a b => some (d, a, b, fun x y _ =>
      if m = 0#2 then BitVec.ofInt 32 (max x.toInt y.toInt) else BitVec.ofNat 32 (max x.toNat y.toNat))
  | .and _ d a b => some (d, a, b, fun x y _ => x &&& y)
  | .or _ d a b => some (d, a, b, fun x y _ => x ||| y)
  | .xor _ d a b => some (d, a, b, fun x y _ => x ^^^ y)
  | .andn _ d a b => some (d, a, b, fun x y _ => x &&& ~~~ y)
  | .shl _ d a b => some (d, a, b, fun x y _ => BitVec.ofNat 32 (x.toNat * 2 ^ (y.toNat % 32)))
  | .shr _ d a b => some (d, a, b, fun x y _ => BitVec.ofNat 32 (x.toNat / 2 ^ (y.toNat % 32)))
  | .sar _ d a b => some (d, a, b, fun x y _ => BitVec.ofInt 32 (x.toInt / 2 ^ (y.toNat % 32)))
  | .rotl _ d a b => some (d, a, b, fun x y _ =>
      let t := x.toNat * 2 ^ (y.toNat % 32)
      BitVec.ofNat 32 (t % 2 ^ 32 + t / 2 ^ 32))
  | .bfx _ m d a b => some (d, a, b, fun x y _ =>
      let n := fieldCut y
      let f := x.toNat / 2 ^ fieldPos y % 2 ^ n
      BitVec.ofInt 32 (if m = 1#2 ∧ 0 < n ∧ 2 ^ n ≤ 2 * f then (f : Int) - 2 ^ n else f))
  | .bfi _ d a b => some (d, a, b, fun x y z =>
      let p := fieldPos y
      let n := fieldCut y
      BitVec.ofNat 32 (z.toNat % 2 ^ p + x.toNat % 2 ^ n * 2 ^ p + z.toNat / 2 ^ (p + n) * 2 ^ (p + n)))
  | .popc _ d a => some (d, a, a, fun x _ _ => BitVec.ofNat 32 ((List.range 32).countP fun j => x.getLsbD j))
  | .clz _ d a => some (d, a, a, fun x _ _ => BitVec.ofNat 32 ((List.range 32).countP fun j => decide (x.toNat < 2 ^ j)))
  | .brev _ d a => some (d, a, a, fun x _ _ => x.reverse)
  | .mov _ d a => some (d, a, a, fun x _ _ => x)
  | _ => none

/-- The tag of a result of intResult under full EXEC, from the tags of a, b and d: 0 U, 1 A, 2 G (02 R57, 04 R112). -/
def intShape (i : Instr) (x y z : Nat) : Nat :=
  match i with
  | .iadd _ m .. | .isub _ m .. => if x = 0 ∧ y = 0 then 0 else if m = 0#2 ∧ x ≤ 1 ∧ y ≤ 1 then 1 else 2
  | .imul .. | .shl .. => if x = 0 ∧ y = 0 then 0 else if x = 1 ∧ y = 0 then 1 else 2
  | .imac .. | .bfi .. => if x = 0 ∧ y = 0 ∧ z = 0 then 0 else 2
  | .mov .. => x
  | _ => if x = 0 ∧ y = 0 then 0 else 2

/-- A lane's result of a 64-bit integer instruction from its pairs (02 R54, R58). -/
def pairResult (i : Instr) : Option (BitVec 7 × BitVec 7 × BitVec 7 × (DWord → DWord → DWord)) :=
  match i with
  | .iadd64 _ d a b => some (d, a, b, fun x y => BitVec.ofNat 64 (x.toNat + y.toNat))
  | .isub64 _ d a b => some (d, a, b, fun x y => BitVec.ofInt 64 ((x.toNat : Int) - y.toNat))
  | .mov64 _ d a => some (d, a, a, fun x _ => x)
  | .iaddi64 d a n => some (d, a, a, fun x _ => BitVec.ofInt 64 ((x.toNat : Int) + n.toInt))
  | _ => none

/-- The tag of word k of a result of pairResult under full EXEC, from those of its sources' words: MOV64 passes each register's own, the
others are U where every source is, else G (02 R57). -/
def pairShape (i : Instr) (x y : Nat → Nat) (k : Nat) : Nat :=
  match i with
  | .mov64 .. => x k
  | _ => if x 0 = 0 ∧ x 1 = 0 ∧ y 0 = 0 ∧ y 1 = 0 then 0 else 2

/-- A lane's result of an instruction with an immediate, from lane j's a and old d (02 R58, 04 R128). -/
def immResult (i : Instr) : Option (BitVec 7 × BitVec 7 × (Nat → Word → Word → Word)) :=
  match i with
  | .iaddi d a n => some (d, a, fun _ x _ => BitVec.ofInt 32 ((x.toNat : Int) + n.toInt))
  | .andi d a n => some (d, a, fun _ x _ => x &&& BitVec.ofNat 32 n.toNat)
  | .ori d a n => some (d, a, fun _ x _ => x ||| BitVec.ofNat 32 n.toNat)
  | .xori d a n => some (d, a, fun _ x _ => x ^^^ BitVec.ofNat 32 n.toNat)
  | .shli d a n => some (d, a, fun _ x _ => BitVec.ofNat 32 (x.toNat * 2 ^ n.toNat))
  | .shri d a n => some (d, a, fun _ x _ => BitVec.ofNat 32 (x.toNat / 2 ^ n.toNat))
  | .sari d a n => some (d, a, fun _ x _ => BitVec.ofInt 32 (x.toInt / 2 ^ n.toNat))
  | .imuli d a n => some (d, a, fun _ x _ => BitVec.ofInt 32 (x.toInt * n.toInt))
  | .ldiLo d n => some (d, d, fun _ _ _ => BitVec.ofNat 32 n.toNat)
  | .ldiHi d n => some (d, d, fun _ _ z => BitVec.ofNat 32 (n.toNat * 2 ^ 18 + z.toNat % 2 ^ 18))
  | .ldiS d n => some (d, d, fun _ _ _ => BitVec.ofInt 32 n.toInt)
  | .ldif d n => some (d, d, fun _ _ _ => BitVec.ofNat 32 (n.toNat * 2 ^ 14))
  | .affine d a n => some (d, a, fun j x _ => BitVec.ofInt 32 ((x.toNat : Int) + j * n.toInt))
  | _ => none

/-- The tag of a result of immResult under full EXEC, from the tags of a and d (02 R57, 04 R112, R113). -/
def immShape (i : Instr) (x z : Nat) : Nat :=
  match i with
  | .iaddi .. | .imuli .. | .shli .. => x
  | .ldiLo .. | .ldiS .. | .ldif .. => 0
  | .ldiHi .. => if z = 0 then 0 else 2
  | .affine _ _ n => if n = 0#11 then 0 else 1
  | _ => if x = 0 then 0 else 2

/-! ## Conditions of compares (02 R52, R58, R59; 03 R87) -/

/-- Two words, two f32 values or two f64 values a compare looks at, as orders of numbers. -/
def f32Of (x : Word) : Machine.Num := F32.decode x.toNat
def f64Of (x : DWord) : Machine.Num := F64.decode x.toNat

/-- The k register, the mode and the lane condition of a compare, in the state it runs in. -/
def compare (i : Instr) (s : State) : Option (BitVec 7 × Nat × (Nat → Bool)) :=
  let x := fun (a : BitVec 7) j => (s.read a).lane j
  let f := fun (a : BitVec 7) j => f32Of (x a j)
  let p := fun (a : BitVec 7) j => f64Of (pairLane (s.readN a 2) j)
  match i with
  | .icmpEq _ m d a b => some (d, m.toNat, fun j => decide (x a j = x b j))
  | .icmpNe _ m d a b => some (d, m.toNat, fun j => decide (x a j ≠ x b j))
  | .icmpLt _ m d a b => some (d, m.toNat, fun j => decide ((x a j).toInt < (x b j).toInt))
  | .icmpLe _ m d a b => some (d, m.toNat, fun j => decide ((x a j).toInt ≤ (x b j).toInt))
  | .icmpLtn _ m d a b => some (d, m.toNat, fun j => decide ((x a j).toNat < (x b j).toNat))
  | .icmpLen _ m d a b => some (d, m.toNat, fun j => decide ((x a j).toNat ≤ (x b j).toNat))
  | .icmpiEq d a n => some (d, 0, fun j => decide ((x a j).toInt = n.toInt))
  | .icmpiLt d a n => some (d, 0, fun j => decide ((x a j).toInt < n.toInt))
  | .icmpiLtn d a n => some (d, 0, fun j => decide ((x a j).toNat < (BitVec.ofInt 32 n.toInt).toNat))
  | .fcmpEq _ m d a b => some (d, m.toNat, fun j => (f a j).eq (f b j))
  | .fcmpNe _ m d a b => some (d, m.toNat, fun j => !(f a j).eq (f b j))
  | .fcmpLt _ m d a b => some (d, m.toNat, fun j => (f a j).lt (f b j))
  | .fcmpLe _ m d a b => some (d, m.toNat, fun j => (f a j).lt (f b j) || (f a j).eq (f b j))
  | .fcmpUn _ m d a b => some (d, m.toNat, fun j => (f a j).isNan || (f b j).isNan)
  | .dcmpLt _ m d a b => some (d, m.toNat, fun j => (p a j).lt (p b j))
  | .dcmpEq _ m d a b => some (d, m.toNat, fun j => (p a j).eq (p b j))
  | _ => none

/-! ## Masks (04 R109, R110, R122) -/

/-- Bit j of KD under KOP, from KA and KB (04 R109). -/
def kopResult (i : Instr) : Option (BitVec 4 × BitVec 4 × BitVec 4 × (Bool → Bool → Bool)) :=
  match i with
  | .kopAnd d a b => some (d, a, b, fun x y => x && y)
  | .kopOr d a b => some (d, a, b, fun x y => x || y)
  | .kopXor d a b => some (d, a, b, fun x y => x != y)
  | .kopAndn d a b => some (d, a, b, fun x y => x && !y)
  | .kopNot d a => some (d, a, a, fun x _ => !x)
  | .kopMov d a => some (d, a, a, fun x _ => x)
  | .kopSetall d => some (d, d, d, fun _ _ => true)
  | .kopClear d => some (d, d, d, fun _ _ => false)
  | _ => none

/-- The pending EXEC a KEXEC leaves, from the one before it, KA and LIVE (04 R108, R110). -/
def kexecResult (i : Instr) (e : DWord) (k : Nat → DWord) (live : DWord) : Option DWord :=
  match i with
  | .kexecSet a => some (k a.toNat &&& live)
  | .kexecAnd a => some (e &&& k a.toNat &&& live)
  | .kexecAndn a => some (e &&& ~~~ k a.toNat &&& live)
  | .kexecOr a => some ((e ||| k a.toNat) &&& live)
  | .kexecAll => some live
  | _ => none

/-! ## Across the lanes (04 R120 to R127) -/

/-- The lane a shuffle takes lane j's result from, given its b there, at width w; none where it keeps a's own (04 R121). -/
def shuffleLane (i : Instr) (w j b : Nat) : Option Nat :=
  match i with
  | .shflIdx .. => if b < w then some b else none
  | .shflXor .. => if j ^^^ b < w then some (j ^^^ b) else none
  | .shflUp .. => if b ≤ j then some (j - b) else none
  | .shflDn .. => if j + b < w then some (j + b) else none
  | _ => none

/-- d, a and b of a shuffle. -/
def shuffleOps (i : Instr) : Option (BitVec 7 × BitVec 7 × BitVec 7) :=
  match i with
  | .shflIdx _ d a b | .shflXor _ d a b | .shflUp _ d a b | .shflDn _ d a b => some (d, a, b)
  | _ => none

/-- TREE of R124 over n levels: t at distances 1, 2, 4, …, each level from the one before. -/
def tree (f : Nat → Nat → Nat) (t : Nat → Nat) : Nat → Nat → Nat
  | 0, i => t i
  | n + 1, i => f (tree f t n i) (tree f t n (i + 2 ^ n))

/-- The inclusive prefix of R126 after n steps of doubling distance. -/
def prefixOf (f : Word → Word → Word) (t : Nat → Word) : Nat → Nat → Word
  | 0, i => t i
  | n + 1, i => if 2 ^ n ≤ i then f (prefixOf f t n (i - 2 ^ n)) (prefixOf f t n i) else prefixOf f t n i

/-! ## Floating point (03 R73, R82 to R90) -/

/-- The exact results of R82, each rounded once to nearest even, and those of R84 and R85, from d, a and b: patterns of one
format. -/
def floatResult (i : Instr) : Option (BitVec 2 × BitVec 7 × BitVec 7 × BitVec 7 × (Fmt → Nat → Nat → Nat → Nat)) :=
  match i with
  | .fadd _ m d a b => some (m, d, a, b, fun t _ x y => t.encode .rne ((t.decode x).add (t.decode y)))
  | .fsub _ m d a b => some (m, d, a, b, fun t _ x y => t.encode .rne ((t.decode x).add (t.decode y).negate))
  | .fmul _ m d a b => some (m, d, a, b, fun t _ x y => t.encode .rne ((t.decode x).mul (t.decode y)))
  | .ffma _ m d a b => some (m, d, a, b, fun t z x y => t.encode .rne (((t.decode x).mul (t.decode y)).add (t.decode z)))
  | .ffms _ m d a b => some (m, d, a, b, fun t z x y => t.encode .rne (((t.decode x).mul (t.decode y)).add (t.decode z).negate))
  | .fnma _ m d a b => some (m, d, a, b, fun t z x y => t.encode .rne ((t.decode z).add ((t.decode x).mul (t.decode y)).negate))
  | .fmin _ m d a b => some (m, d, a, b, fun t _ x y => t.minmax false x y)
  | .fmax _ m d a b => some (m, d, a, b, fun t _ x y => t.minmax true x y)
  | .fabs _ m d a => some (m, d, a, a, fun t _ x _ => if (t.decode x).isNan then t.cnan else x % 2 ^ (t.p + t.w))
  | .fneg _ m d a => some (m, d, a, a, fun t _ x _ =>
      if (t.decode x).isNan then t.cnan else if x < 2 ^ (t.p + t.w) then x + 2 ^ (t.p + t.w) else x - 2 ^ (t.p + t.w))
  | _ => none

/-- Element e of a packed word (03 R77). -/
def elem (x : Word) (e : Nat) : Nat := x.toNat / 65536 ^ e % 65536

/-- The bit FCLASS sets for a value of f32 (03 R88). -/
def classBit (x : Word) : Nat :=
  match F32.decode x.toNat with
  | .inf neg => if neg then 0 else 7
  | .nan _ => if x.getLsbD 22 then 9 else 8
  | .fin neg m _ =>
    if m = 0 then (if neg then 3 else 4) else if m < 2 ^ 23 then (if neg then 2 else 5) else if neg then 1 else 6

/-- Source and destination of a CVT as 64 bits (03 R72, R89). -/
def cvtLane (x : List Val) (c : BitVec 4) (j : Nat) : DWord :=
  if cvtWords c = 2 then pairLane x j else ((x.getD 0 (.u 0)).lane j).setWidth 64

/-- The rational number a finite value stands for (03 R73). -/
def valueOf : Machine.Num → ℚ
  | .fin neg m e => (if neg then -1 else 1) * m * (2 : ℚ) ^ e
  | _ => 0

/-- Whether a pattern of a format stands for a finite number. -/
def finite (t : Fmt) (x : Nat) : Bool :=
  match t.decode x with
  | .fin .. => true
  | _ => false

/-- Whether one value comes before another in the order of FMIN and FMAX: by size, −0 before +0 (03 R84). -/
def below (a b : Machine.Num) : Prop :=
  match a, b with
  | .nan _, _ | _, .nan _ => False
  | .inf s, .inf t => s = true ∧ t = false
  | .inf s, .fin .. => s = true
  | .fin .., .inf t => t = false
  | .fin s _ _, .fin t _ _ => valueOf a < valueOf b ∨ valueOf a = valueOf b ∧ s = true ∧ t = false

/-- The values of the special functions at −Inf, −0, +0 and +Inf, in f32 and in f16 (03 R97, R98). -/
def edges : List (Nat × List Word × List Word) :=
  let n : Word × Word := (0x7FC00000, 0x7E00)
  let i : Word × Word := (0x7F800000, 0x7C00)
  let j : Word × Word := (0xFF800000, 0xFC00)
  let z : Word × Word := (0, 0)
  let y : Word × Word := (0x80000000, 0x8000)
  let o : Word × Word := (0x3F800000, 0x3C00)
  let p : Word × Word := (0xBF800000, 0xBC00)
  let h : Word × Word := (0x3F000000, 0x3800)
  let row := fun (f : Nat) (l : List (Word × Word)) => (f, l.map (·.1), l.map (·.2))
  [row 0 [y, j, i, z], row 1 [n, j, i, z], row 2 [n, y, z, i], row 3 [z, o, o, i], row 4 [n, j, j, i], row 5 [n, y, z, n], row 6 [n, o, o, n],
   row 7 [p, y, z, o], row 8 [z, h, h, o], row 9 [p, y, z, o], row 10 [z, o, o, i], row 11 [n, j, j, i], row 12 [y, y, z, i],
   row 13 [y, y, z, i]]

/-! ## Special registers (01 R47, 02 R61) -/

/-- The extent of level k of a node, and its index in the strand of the current bundle's lane 0: the digit that the level takes, after the
lower levels that decompose the same number, from the device's index, from GROUP, from the strand or from BUNDLE (04 R106, R107). -/
def extentOf (s : State) (k : Nat) : Nat :=
  let r := s.nodeRec s.grp.node
  if k < nLevels r then (wordAt r (16 + k)).toNat % 2 ^ 16 else 1
def indexOf (s : State) (k : Nat) : Nat :=
  let r := s.nodeRec s.grp.node
  let dom := fun j => (wordAt r (16 + j)).toNat / 2 ^ 16 % 8
  let auto := nWcode r = 0
  let same := fun j => if dom k = 6 then decide (dom j = 6) else if 2 ≤ dom k then decide (2 ≤ dom j)
    else if auto then decide (dom j ≤ 1) else decide (dom j = dom k)
  let number := if dom k = 6 then s.grp.sysIdx.toNat else if 2 ≤ dom k then s.grp.group
    else if auto then s.bun.bundle * s.grp.w else if dom k = 1 then s.bun.bundle else 0
  if k < nLevels r then number / (((List.range k).filter same).map (extentOf s)).prod % extentOf s k else 0

/-- The two bits of the shape readout for v register r (04 R118). -/
def shapeBits (s : State) (r : Nat) : Nat :=
  match s.bun.vreg r with
  | .val (.u _) => 0
  | .val (.a _ _) => 1
  | .val (.g _) => 2
  | .spilled _ => 3

/-- The word a special register gives in lane j; none for those that R47 does not name. -/
def sregWord (s : State) (n j : Nat) : Option Word :=
  let x := s.str
  let low := fun (w : DWord) => BitVec.ofNat 32 w.toNat
  let high := fun (w : DWord) => BitVec.ofNat 32 (w.toNat / 2 ^ 32)
  match n with
  | 0x00 => some (BitVec.ofNat 32 (if s.cur.acc then 0 else j))
  | 0x01 => some (BitVec.ofNat 32 s.grp.w)
  | 0x02 => some (BitVec.ofNat 32 s.bun.bundle)
  | 0x03 => some (BitVec.ofNat 32 s.grp.group)
  | 0x04 => some s.grp.handle
  | 0x05 => some (BitVec.ofNat 32 (s.bun.orig.headD 0))
  | 0x18 => some (BitVec.ofNat 32 s.grp.recBase)
  | 0x19 => some (BitVec.ofNat 32 s.grp.records.length)
  | 0x20 => some (low s.bun.sr)
  | 0x21 => some (high s.bun.sr)
  | 0x28 => some s.bun.ra
  | 0x2A => some (low s.codeWin)
  | 0x2B => some (high s.codeWin)
  | 0x30 => some x.rgnPc
  | 0x31 => some x.rgnCount
  | 0x38 => some (BitVec.ofNat 32 x.trapCause)
  | 0x39 => some x.trapInfo
  | 0x3A => some x.trapPc
  | 0x3B => some (low x.trapAddr)
  | 0x3C => some (high x.trapAddr)
  | 0x3D => some (BitVec.ofNat 32 ((if x.handler && x.mask then 1 else 0) + if x.pnote then 2 else 0))
  | 0x40 => some s.bun.spillBase
  | 0x48 => some (low s.dev.ctl.xaccWin)
  | 0x49 => some (high s.dev.ctl.xaccWin)
  | 0x4A => some (low s.dev.ctl.xaccBack)
  | 0x4B => some (high s.dev.ctl.xaccBack)
  | 0x50 => some (low s.exec0)
  | 0x51 => some (high s.exec0)
  | 0x66 => some (BitVec.ofNat 32 s.bun.residents.length)
  | 0x67 => some (BitVec.ofNat 32 (s.budget s.grp))
  | 0x68 => some (BitVec.ofNat 32 s.bun.autoSlots.length)
  | 0x69 => some (low s.bun.live)
  | 0x6A => some (high s.bun.live)
  | n =>
    if 0x08 ≤ n ∧ n ≤ 0x0F then some (BitVec.ofNat 32 (indexOf s (n - 0x08)))
    else if 0x10 ≤ n ∧ n ≤ 0x17 then some (BitVec.ofNat 32 (extentOf s (n - 0x10)))
    else if 0x60 ≤ n ∧ n ≤ 0x65 then
      some (BitVec.ofNat 32 ((List.range 16).map fun j => shapeBits s (16 * (n - 0x60) + j) * 4 ^ j).sum)
    else if 0x6B ≤ n ∧ n ≤ 0x6F then some 0
    else none

/-! ## Control (02 R66 to R69) -/

/-- The offset of a branch, whether it is conditional, and whether it is taken, by the bits of EXEC and its k register. -/
def branchOf (i : Instr) (s : State) : Option (BitVec 21 × Bool × Bool) :=
  let on := (List.range 64).filter fun j => s.exec0.getLsbD j
  let k := fun (k : BitVec 4) j => (s.readK k.toNat).getLsbD j
  match i with
  | .bra o => some (o, false, true)
  | .brany r o => some (o, true, on.any (k r))
  | .brall r o => some (o, true, on.all (k r))
  | .brnone r o => some (o, true, !on.any (k r))
  | _ => none

/-! ## Loads, stores and atomics (02 R62 to R65, 07 R163 to R165, R181) -/

/-- A number of n bits, read with its sign. -/
def signedOf (n x : Nat) : Int := if x < 2 ^ (n - 1) then x else (x : Int) - 2 ^ n

/-- Lane j's address under format M, and under LDP and STP (02 R62, 07 R165). -/
def laneVa (s : State) (a : BitVec 7) (f : BitVec 9) (size j : Nat) : DWord :=
  BitVec.ofInt 64 ((pairLane (s.readN a 2) j).toNat + f.toInt * size)
def laneOff (s : State) (a : BitVec 7) (f : BitVec 9) (size j : Nat) : Nat :=
  (BitVec.ofInt 32 (((s.read a).lane j).toNat + f.toInt * size)).toNat

/-- A load: its order, destination, size, word k of the number its bytes make, and the check of lane j (02 R63, 07 R165). -/
def loadOf (i : Instr) (s : State) : Option (BitVec 2 × BitVec 7 × Nat × (Nat → Nat → Word) × (Nat → LaneAns)) :=
  let zero := fun (x k : Nat) => BitVec.ofNat 32 (x / 2 ^ (32 * k))
  let sign := fun (n x _ : Nat) => BitVec.ofInt 32 (signedOf n x)
  match i with
  | .ldN8 o d a f => some (o, d, 1, zero, fun j => s.ldAns (laneVa s a f 1 j) 1)
  | .ldI8 o d a f => some (o, d, 1, sign 8, fun j => s.ldAns (laneVa s a f 1 j) 1)
  | .ldN16 o d a f => some (o, d, 2, zero, fun j => s.ldAns (laneVa s a f 2 j) 2)
  | .ldI16 o d a f => some (o, d, 2, sign 16, fun j => s.ldAns (laneVa s a f 2 j) 2)
  | .ld32 o d a f => some (o, d, 4, zero, fun j => s.ldAns (laneVa s a f 4 j) 4)
  | .ld64 o d a f => some (o, d, 8, zero, fun j => s.ldAns (laneVa s a f 8 j) 8)
  | .ld128 o d a f => some (o, d, 16, zero, fun j => s.ldAns (laneVa s a f 16 j) 16)
  | .ldp32 d a f => some (0, d, 4, zero, fun j => scrAns s.party (laneOff s a f 4 j) 4)
  | .ldp128 d a f => some (0, d, 16, zero, fun j => scrAns s.party (laneOff s a f 16 j) 16)
  | _ => none

/-- A store: its order, data, size and the check of lane j (02 R63, 07 R165). -/
def storeOf (i : Instr) (s : State) : Option (BitVec 2 × BitVec 7 × Nat × (Nat → LaneAns)) :=
  match i with
  | .st8 o d a f => some (o, d, 1, fun j => s.stAns (laneVa s a f 1 j) 1)
  | .st16 o d a f => some (o, d, 2, fun j => s.stAns (laneVa s a f 2 j) 2)
  | .st32 o d a f => some (o, d, 4, fun j => s.stAns (laneVa s a f 4 j) 4)
  | .st64 o d a f => some (o, d, 8, fun j => s.stAns (laneVa s a f 8 j) 8)
  | .st128 o d a f => some (o, d, 16, fun j => s.stAns (laneVa s a f 16 j) 16)
  | .stp32 d a f => some (0, d, 4, fun j => scrAns s.party (laneOff s a f 4 j) 4)
  | .stp128 d a f => some (0, d, 16, fun j => scrAns s.party (laneOff s a f 16 j) 16)
  | _ => none

/-- Byte b of what lane j stores from d: the words of d, each little-endian (00 R5, 02 R63). -/
def storeByte (s : State) (d : BitVec 7) (j b : Nat) : Byte :=
  BitVec.ofNat 8 (((s.readWord d.toNat (b / 4)).lane j).toNat / 256 ^ (b % 4))

/-- An atomic: order, scope, destination, address pair, size, and the new value from a lane's old one (07 R181). -/
def atomOf (i : Instr) (s : State) : Option (BitVec 2 × BitVec 2 × BitVec 7 × BitVec 7 × Nat × (Nat → Nat → Nat)) :=
  let w := fun (b : BitVec 7) j => ((s.read b).lane j).toNat
  let p := fun (b : BitVec 7) j => (pairLane (s.readN b 2) j).toNat
  let lt := fun (x y : Nat) => decide (signedOf 32 x < signedOf 32 y)
  match i with
  | .atomAddI32 o c d a b => some (o, c, d, a, 4, fun j x => (x + w b j) % 2 ^ 32)
  | .atomAddI64 o c d a b => some (o, c, d, a, 8, fun j x => (x + p b j) % 2 ^ 64)
  | .atomMinI32 o c d a b => some (o, c, d, a, 4, fun j x => if lt (w b j) x then w b j else x)
  | .atomMaxI32 o c d a b => some (o, c, d, a, 4, fun j x => if lt x (w b j) then w b j else x)
  | .atomMinN32 o c d a b => some (o, c, d, a, 4, fun j x => min x (w b j))
  | .atomMaxN32 o c d a b => some (o, c, d, a, 4, fun j x => max x (w b j))
  | .atomAnd o c d a b => some (o, c, d, a, 4, fun j x => x &&& w b j)
  | .atomOr o c d a b => some (o, c, d, a, 4, fun j x => x ||| w b j)
  | .atomXor o c d a b => some (o, c, d, a, 4, fun j x => x ^^^ w b j)
  | .atomXchg o c d a b => some (o, c, d, a, 4, fun j _ => w b j)
  | .atomCas o c d a b => some (o, c, d, a, 4, fun j x =>
      if x = p b j % 2 ^ 32 then p b j / 2 ^ 32 else x)
  | .atomXchg64 o c d a b => some (o, c, d, a, 8, fun j _ => p b j)
  | _ => none

/-- What lanes that act one after another on one place get, and what they leave there: each gets what the one before left (07 R181). -/
def inTurn (f : Nat → Nat → Nat) (n : Nat) : List Nat → Nat → List (Nat × Nat) × Nat
  | [], v => ([], v)
  | j :: js, v =>
    let r := inTurn f n js (f j v % 2 ^ (8 * n))
    ((j, v) :: r.1, r.2)

/-- Whether a cluster's TLB holds a page with its marks set, so that an access leaves the page's entries as they are (07 R177). -/
def markedAt (s : State) (c acc : Nat) (x : Xlat) : Prop :=
  x.drew = false ∧ ∃ t, s.tlb.find? (fun t => t.holds c x) = some t ∧
    (acc / 2 % 2 = 1 → t.leaf.getLsbD 13 = true)
def marked (s : State) (acc : Nat) (x : Xlat) : Prop := markedAt s s.cluster acc x

/-- Whether an engine path of group g reaches n bytes at va on one normal page, whose marks stand; for a read, without poison (07 R164,
R177; 11 R271). -/
def engPlain (s : State) (g : Nat) (path : Path) (acc : Nat) (va : DWord) (n : Nat) (x : Xlat) : Prop :=
  inAperture va = false ∧ s.globAcc (s.group g).engine va acc [0] = .ok (.mem x) ∧ va.toNat % 2 ^ x.size + n ≤ 2 ^ x.size ∧
    markedAt s (s.group g).cluster acc x ∧ (acc = 1 → s.pathPoison (s.group g).core path x.key n = false)

/-- The number that n bytes at a key make, as an engine path of group g sees them (08 R195). -/
def engNat (s : State) (g : Nat) (path : Path) (k n : Nat) : Nat :=
  leNat ((List.range n).map fun i => s.pathByte (s.group g).core path (k + i))

/-- Whether a checked place is in the scratchpad, or on a normal page of RC order whose marks stand. -/
def plainPlace (s : State) (acc : Nat) (l : MLoc) : Prop :=
  l.cx = [] ∧ match l.loc with
    | .scr _ => True
    | .mem x => x.kind = 0 ∧ x.ord = 0 ∧ marked s acc x

/-- Byte b of a checked place, as the current group sees it: its scratchpad; its containment buffer, its core's L1, its cluster's
unit, or home (07 R163, R188, 08 R198). -/
def placeByte (s : State) (l : MLoc) (b : Nat) : Byte :=
  match l.loc with
  | .scr off => s.grp.scrByte (off + b)
  | .mem x => (s.grp.bufByte (x.key + b)).getD (s.viewByte s.grp.core (x.key + b))

/-- Whether the scratchpad read buffer may hold an older byte among n of a place (08 R195). -/
def mayBeOld (s : State) (l : MLoc) (n : Nat) : Prop := match l.loc with
  | .scr off => ∃ b, b < n ∧ (Tab.find? s.grp.scrOld (off + b)).isSome = true
  | .mem _ => False

/-- Byte b of a scratchpad place as the read buffer may still hold it (08 R195). -/
def oldByte (s : State) (l : MLoc) (b : Nat) : Byte := match l.loc with
  | .scr off => (Tab.find? s.grp.scrOld (off + b)).getD (s.grp.scrByte (off + b))
  | .mem _ => placeByte s l b

/-- Whether byte k of the scratchpad, or of memory, is one of the n bytes of a checked place. -/
def hasScr (n k : Nat) (l : MLoc) : Bool := match l.loc with
  | .scr off => decide (off ≤ k) && decide (k < off + n)
  | .mem _ => false
def hasMem (n k : Nat) (l : MLoc) : Bool := match l.loc with
  | .scr _ => false
  | .mem x => decide (x.key ≤ k) && decide (k < x.key + n)

/-- Whether two checked places of n bytes share byte b of the first. -/
def covers (n b : Nat) (l q : MLoc) : Bool := match l.loc with
  | .scr off => hasScr n (off + b) q
  | .mem x => hasMem n (x.key + b) q

/-! ## Matrix operands (12 R285, R286) -/

/-- The rows of A and the columns of B of an MMA's chunk at its cursor, read in the order of R286: for each row, and then for each
column, the elements of the chunk. -/
def chunkReads (s : State) (g : Nat) (c : MCmd) : EAns (List (List Machine.Num) × List (List Machine.Num)) :=
  let b := c.blk
  let ta := c.descs.headD []
  let tb := c.descs.getD 1 []
  let ks := (List.range (mmaChunk (mAtype b) (mBtype b))).map (c.cur + ·)
  (eMap (fun m s => eMap (fun k s => s.operand g ta (mAscale b) (mmaIndexA b ta m k)) ks s) (List.range (mRows b)) s).bind fun as s =>
    (eMap (fun n s => eMap (fun k s => s.operand g tb (mBscale b) (mmaIndexB b k n)) ks s) (List.range (mCols b)) s).bind fun bs s =>
      .ok (as, bs) s

/-! ## Camera rays (13 R305) -/

/-- One f32 operation: its exact result rounded once to nearest even (03 R82). -/
def rd (x : Machine.Num) : Word := BitVec.ofNat 32 (F32.encode .rne x)

/-- Word k of the ray octet of a lane, from the words of the camera block and the lane's x, y, su and sv; each step rounded. -/
def rayWord (c : Nat → Word) (x y su sv : Word) (k : Nat) : Word :=
  let add := fun a b => rd ((f32Of a).add (f32Of b))
  let sub := fun a b => rd ((f32Of a).add (f32Of b).negate)
  let mul := fun a b => rd ((f32Of a).mul (f32Of b))
  let ofN := fun (v : Word) => rd (.fin false v.toNat 0)
  let u := fdiv32 (sub (add (ofN x) su) (c 14)) (c 12)
  let v := fdiv32 (sub (add (ofN y) sv) (c 15)) (c 13)
  match k with
  | 0 => c 0
  | 1 => c 1
  | 2 => c 2
  | 3 => c 16
  | 4 => add (add (mul u (c 3)) (mul v (c 6))) (c 9)
  | 5 => add (add (mul u (c 4)) (mul v (c 7))) (c 10)
  | 6 => add (add (mul u (c 5)) (mul v (c 8))) (c 11)
  | _ => c 17

/-! ## Tests of a traversal (13 R313 to R315) -/

/-- A sum, a difference and a product of f32 patterns, each rounded once. -/
def add1 (a b : Word) : Word := rd ((f32Of a).add (f32Of b))
def sub1 (a b : Word) : Word := rd ((f32Of a).add (f32Of b).negate)
def mul1 (a b : Word) : Word := rd ((f32Of a).mul (f32Of b))

/-- Near and far end of a box on one axis, for a ray's coordinate o and direction d there (13 R313). -/
def slab (o d lo hi : Word) : Word × Word :=
  let inv := fdiv32 0x3F800000#32 d
  let t0 := mul1 (sub1 lo o) inv
  let t1 := mul1 (sub1 hi o) inv
  (fmin32 t0 t1, fmax32 t0 t1)

/-- Vertex j of a triangle in the sheared coordinates of a frame's ray (13 R315). -/
def sheared (f : TFrame) (tri : List Byte) (j : Nat) : Word × Word × Word :=
  let (kx, ky, kz, sx, sy, sz) := shear f.d
  let q := fun k => sub1 (leWordAt tri (12 * j + 4 * k)) (wordAt f.o k)
  (sub1 (q kx) (mul1 sx (q kz)), sub1 (q ky) (mul1 sy (q kz)), mul1 sz (q kz))

/-- The edge function of two vertices, in f32 steps or rounded once in f64 (13 R315). -/
def edgeOf (wide : Bool) (p q : Word × Word × Word) : Machine.Num :=
  if wide then F64.decode (F64.encode .rne (((f32Of p.1).mul (f32Of q.2.1)).add ((f32Of p.2.1).mul (f32Of q.1)).negate))
  else f32Of (sub1 (mul1 p.1 q.2.1) (mul1 p.2.1 q.1))

/-- Whether an edge function is positive, a zero one by the ownership of its edge, which runs from p to q; total is U + V + W
(13 R315). -/
def edgeUp (total e : ℚ) (p q : Word × Word × Word) : Prop :=
  let side := fun z : ℚ => if total < 0 then -z else z
  let ex := side (valueOf (f32Of q.1) - valueOf (f32Of p.1))
  let ey := side (valueOf (f32Of q.2.1) - valueOf (f32Of p.2.1))
  if e ≠ 0 then 0 < e else ((0 < ey ∨ ey = 0 ∧ ex < 0) ↔ 0 < total)

/-! ## Issue (01 R11 to R16, R46, 02 R64) -/

/-- Nothing stands against issue of the clause with header h at the pc of the current stream: its words ws are fetched and pass their checks in
order, none of them is a hazard, against marks that stand or that may not have cleared yet, and none of them would trap, stall or meet
an absent page; pins are the translations they find. -/
def issuable (s : State) (h : Word) (ws : List (Word × Instr × Xlat)) (pins : List Xlat) : Prop :=
  let x := s.str
  let n := hCount h
  let cls := hClass h
  let c : Clause := { header := h, words := List.replicate n 0, idx := 0, exec0 := x.exec, execP := x.exec }
  let s0 := s.setStr { x with clause := c }
  s0.scan cls x.pc n 1 n s0 [] = .ok ws ∧ hazards (longLatency cls) (s.standing s.cur) (numbered ws) = none ∧
    hazards (longLatency cls) (s.lateMarks s.cur) (numbered ws) = none ∧
    State.dry { (s.setStr { x with clause := { c with words := ws.map fun e => e.1 } }).reserveClause with found := some [] } (numbered ws)
      none [] [] = .ok pins

/-! ## The host interface (18 R381 to R383) -/

/-- The message of type n, 1 to 8, as the event that a mailbox takes (18 R382). -/
def messageOf (n m : Nat) (hdr : DWord) (ws : List Word) : Instr :=
  match n with
  | 1 => .record m hdr ws
  | 2 => .bind m hdr ws
  | 3 => .replycfg m hdr ws
  | 4 => .load m hdr ws
  | 5 => .preempt m hdr ws
  | 6 => .withdraw m hdr ws
  | 7 => .attest m hdr ws
  | _ => .restart m hdr ws

/-- From s to t, mailbox m is sent one reply: SEQ, code and detail; where it has no ring, RDROP rises (18 R383). -/
def replied (s t : State) (m seq code : Nat) (detail : List Word) : Prop :=
  let x := s.mbox m
  (∀ r, x.ring = some r → (t.mbox m).waiting = x.waiting ++ [1 :: BitVec.ofNat 32 seq :: BitVec.ofNat 32 code :: detail]) ∧
    (x.ring = none → (t.mbox m).waiting = x.waiting ∧ (t.mbox m).rdrop = min (x.rdrop + 1) (2 ^ 32 - 1))

/-- From s to t, a record enters the bin of node n, and a full bin forms a launch of its COAL oldest records (05 R146). -/
def filed (s t : State) (n : Nat) (rcd : List Word) : Prop :=
  let r := s.nodeRec n
  let all := s.bin n ++ [(s.clock + 1, rcd)]
  (all.length < nCoal r → t.bin n = all) ∧
    (nCoal r ≤ all.length → t.bin n = all.drop (nCoal r) ∧ ∃ l, t.launch? (s.dev.launchCtr + 1) = some l ∧ l.node = n ∧
      l.total = nGL r ∧ l.records = (all.take (nCoal r)).map (·.2))

/-- From s to t, the running groups of the classes named take a request: their timers start, and a PERSIST group saves, another one
drains; a saved group of these classes is among those that are restored when the request ends (15 R351, R355). -/
def requested (s t : State) (names : Nat → Prop) : Prop :=
  ∀ p ∈ s.groups, let r := s.nodeRec p.2.node
    let due := min (p.2.deadline.getD (s.clock + 1 + nDeadline r)) (s.clock + 1 + nDeadline r)
    ∃ q ∈ t.groups, q.1 = p.1 ∧ q.2.st = p.2.st ∧
      ((p.2.st = .prologue ∨ p.2.st = .full) → names (nPrio r) →
        q.2.deadline = some due ∧ q.2.drains = !nPersist r ∧ (nPersist r = true → q.2.saving = some (p.2.saving.getD 0))) ∧
      ((p.2.st = .prologue ∨ p.2.st = .full) → names (nPrio r) → q.2.named = true) ∧
      (p.2.st = .saved → names (nPrio r) → q.2 = { p.2 with named := true }) ∧
      (¬ (p.2.st = .prologue ∨ p.2.st = .full ∨ p.2.st = .saved) ∨ ¬ names (nPrio r) → q.2 = p.2)

/-- A descriptor's 4-byte word with a write of the given bytes, 4 or 8 from byte off; none for a word the write leaves (18 R379). -/
def wroteWord (off size : Nat) (v : DWord) (k : Nat) : Option Word :=
  if k = off % 64 / 4 then some (v.setWidth 32)
  else if size = 8 ∧ k = off % 64 / 4 + 1 then some (BitVec.ofNat 32 (v.toNat / 2 ^ 32)) else none

/-- The fields of the control block of 4 bytes, each with the values a write may give it (15 R336). -/
def ctlField (off : Nat) : Option (Word → Bool) :=
  match off with
  | 0x00 | 0x04 | 0x08 => some fun v => decide (v.toNat % 4 = 0) || decide (v.toNat = 2 ^ 32 - 1)
  | 0x0C => some fun v => decide (2 ^ 12 ≤ v.toNat) && decide (v.toNat ≤ 2 ^ 31)
  | 0x28 => some fun v => decide (12 ≤ v.toNat) && decide (v.toNat ≤ 57)
  | 0x30 => some fun v => decide (256 ≤ v.toNat) && decide (v.toNat ≤ 2 ^ 20)
  | _ => none

/-- The fields of 8 bytes: the multiple a value must be, and the bits that are kept (15 R336). -/
def ctlPair (off : Nat) : Option (Nat × DWord) :=
  match off with
  | 0x10 => some (1, 0x000FFFFFFFFFF000)
  | 0x18 => some (64, 0xFFFFFFFFFFFFFFFF)
  | 0x20 => some (4096, 0xFFFFFFFFFFFFFFFF)
  | 0x38 | 0x40 => some (4, 0xFFFFFFFFFFFFFFFF)
  | _ => none

end Sys2Proof.Rules
end

