-- ==== Sys2Proof/Certificates/Slice0/Obligations.lean ====
section
/-!
DEFINITION. The statements for the provers. An instruction's result is stated as the state its word leaves: what the instruction writes, and
then State.close, which stands around every word; ResultFrame and WordFrame say what these leave unchanged.
-/
section
open Sys2Proof Sys2Proof.Machine Sys2Proof.Rules

/-! ## Arithmetic and register results -/

/-- R54, R55, R57, R58, R113, R128: each integer instruction of one word, of a pair, or with an immediate completes, with the lane
results of the tables, and the tags of R57 on every word of the result. -/
def Obligations.IntegerResults : Prop :=
  (∀ (s : State) (i : Instr) (d a b : BitVec 7) (f : Word → Word → Word → Word), intResult i = some (d, a, b, f) →
    s.clear i = true → s.room i = true →
    ∃ v : Val, exec i s = .next ((s.tick.aluWrite d [v]).close s.tick i) ∧
      v.tag = intShape i (s.read a).tag (s.read b).tag (s.read d).tag ∧
      ∀ j, j < s.lanes → v.lane j = f ((s.read a).lane j) ((s.read b).lane j) ((s.read d).lane j)) ∧
  (∀ (s : State) (i : Instr) (d a b : BitVec 7) (f : DWord → DWord → DWord), pairResult i = some (d, a, b, f) →
    s.clear i = true → s.room i = true →
    ∃ lo hi : Val, exec i s = .next ((s.tick.aluWrite d [lo, hi]).close s.tick i) ∧
      (let x := fun (c : BitVec 7) k => (s.readWord c.toNat k).tag
       lo.tag = pairShape i (x a) (x b) 0 ∧ hi.tag = pairShape i (x a) (x b) 1) ∧
      ∀ j, j < s.lanes → pairLane [lo, hi] j = f (pairLane (s.readN a 2) j) (pairLane (s.readN b 2) j)) ∧
  (∀ (s : State) (i : Instr) (d a : BitVec 7) (f : Nat → Word → Word → Word), immResult i = some (d, a, f) →
    s.clear i = true → s.room i = true →
    ∃ v : Val, exec i s = .next ((s.tick.aluWrite d [v]).close s.tick i) ∧
      v.tag = immShape i (s.read a).tag (s.read d).tag ∧
      ∀ j, j < s.lanes → v.lane j = f j ((s.read a).lane j) ((s.read d).lane j))

/-- R60, R57, R113, R127: SEL and MOVK choose by the bits of a k register, and their result is U where these are all equal and SEL's data
sources U, else G; SHAPEOF gives its source's tag, SHAPEGEN its lanes. -/
def Obligations.SelectResults : Prop :=
  ∀ (s : State) (n : BitVec 1) (k : BitVec 2) (d a b : BitVec 7),
    let same := fun m : DWord => ∀ j ∈ List.range s.lanes, m.getLsbD j = m.getLsbD 0
    (s.clear (.sel n k d a b) = true → s.room (.sel n k d a b) = true →
      ∃ v : Val, exec (.sel n k d a b) s = .next ((s.tick.aluWrite d [v]).close s.tick (.sel n k d a b)) ∧
        (∀ j, j < s.lanes → s.lanes ≤ 64 →
          v.lane j = if (s.readK k.toNat).getLsbD j then (s.read a).lane j else (s.read b).lane j) ∧
        (s.lanes ≤ 64 → v.tag = if (s.read a).tag = 0 ∧ (s.read b).tag = 0 ∧ same (s.readK k.toNat) then 0 else 2)) ∧
    (s.clear (.movk n d a) = true → s.room (.movk n d a) = true →
      ∃ v : Val, exec (.movk n d a) s = .next ((s.tick.aluWrite d [v]).close s.tick (.movk n d a)) ∧
        (∀ j, j < s.lanes → s.lanes ≤ 64 → v.lane j = if (s.readK (a.toNat % 16)).getLsbD j then 1 else 0) ∧
        (s.cur.acc = false → s.lanes ≤ 64 → v.tag = if same (s.readK (a.toNat % 16)) then 0 else 2)) ∧
    (s.clear (.shapeof n d a) = true → s.room (.shapeof n d a) = true →
      exec (.shapeof n d a) s =
        .next ((s.tick.aluWrite d [.u (match s.read a with | .u _ => 0 | .a _ _ => 1 | .g _ => 2)]).close s.tick (.shapeof n d a))) ∧
    (s.clear (.shapegen n d a) = true → s.room (.shapegen n d a) = true →
      ∃ l : List Word, exec (.shapegen n d a) s = .next ((s.tick.aluWrite d [.g l]).close s.tick (.shapegen n d a)) ∧
        ∀ j, j < s.grp.w → wordAt l j = (s.read a).lane j)

/-- R114, R25, R51: after a result is written and its word ends, the lanes of EXEC hold it and every other lane what it held; under an
empty EXEC no v register changes, its tag included. A result enters l0 in the lanes of EXEC, what l0 held moves to l1, a 64-bit result
enters low word first; the A-stream has no last-result file. -/
def Obligations.ResultLanes : Prop :=
  (∀ (s : State) (i : Instr) (d : BitVec 7) (vs : List Val),
    (if s.cur.acc then d.toNat + vs.length ≤ 0x20
      else d.toNat + vs.length ≤ 0x60 ∨ 0x60 ≤ d.toNat ∧ d.toNat ≤ 0x67 ∧ vs.length = 1) →
    (∀ k, k < vs.length → s.exec0 ≠ 0 ∨ s.plainDes (d.toNat + k) = true) →
    (∀ k j, k < vs.length → j < s.lanes → j < 64 →
      (((s.aluWrite d vs).close s i).readWord d.toNat k).lane j =
        if s.exec0.getLsbD j then (vs.getD k (.u 0)).lane j else (s.readWord d.toNat k).lane j) ∧
    (s.exec0 = 0 → ((s.aluWrite d vs).close s i).bun.v = s.bun.v)) ∧
  (∀ (s : State) (d : BitVec 7) (lo hi : Val) (j : Nat), j < s.grp.w →
    (s.cur.acc = false → s.exec0.getLsbD j = true →
      wordAt (s.aluWrite d [lo]).bun.l0 j = lo.lane j ∧ wordAt (s.aluWrite d [lo]).bun.l1 j = wordAt s.bun.l0 j ∧
      wordAt (s.aluWrite d [lo, hi]).bun.l0 j = hi.lane j ∧ wordAt (s.aluWrite d [lo, hi]).bun.l1 j = lo.lane j) ∧
    (s.cur.acc = false → s.exec0.getLsbD j = false → ∀ vs : List Val,
      wordAt (s.aluWrite d vs).bun.l0 j = wordAt s.bun.l0 j ∧ wordAt (s.aluWrite d vs).bun.l1 j = wordAt s.bun.l1 j) ∧
    (s.cur.acc = true → ∀ vs : List Val, (s.aluWrite d vs).bun.l0 = s.bun.l0 ∧ (s.aluWrite d vs).bun.l1 = s.bun.l1))

/-- R253, R254: a result whose destination is a queue makes one held entry a word, zero in lanes where EXEC is clear, from the
A-stream uniform; every other queue, and every entry that stands, is as it was. -/
def Obligations.QueueResults : Prop :=
  ∀ (s : State) (d : BitVec 7) (v : Val), isQ d.toNat = true →
    ∃ e : Val, ((s.aluWrite d [v]).bun.queue (qNum d.toNat)).heldPushes s.cur.acc =
        (s.bun.queue (qNum d.toNat)).heldPushes s.cur.acc + 1 ∧
      (s.aluWrite d [v]).bun.queue (qNum d.toNat) = (s.bun.queue (qNum d.toNat)).push s.cur.acc e ∧
      (s.cur.acc = true → e = .u (v.lane 0)) ∧
      (s.cur.acc = false → ∀ j, j < s.grp.w → j < 64 → e.lane j = if s.exec0.getLsbD j then v.lane j else 0) ∧
      (∀ n, n ≠ qNum d.toNat → (s.aluWrite d [v]).bun.queue n = s.bun.queue n) ∧
      (s.aluWrite d [v]).bun.v = s.bun.v ∧ (s.aluWrite d [v]).bun.o = s.bun.o

/-- R54, R51, R24, R350: writing a register result changes the destination, the last-result file, the destination's queue and the poison
of the destination, and nothing else: no other register, queue or poison, no k register, no memory, no other bundle. In the X-stream no
x register changes, in the A-stream no v, o or last result. Of the last-result file's poison, that of l0 goes to l1 with its value. -/
def Obligations.ResultFrame : Prop :=
  ∀ (s : State) (d : BitVec 7) (vs : List Val),
    (s.aluWrite d vs).outside = s.outside ∧
    (∃ (v : Tab VReg) (o : Tab (List Word)) (l0 l1 : List Word) (q : Tab Queue) (p y : List (Nat × Nat)) (x : Tab Word),
      (s.aluWrite d vs).bun = { s.bun with v := v, o := o, l0 := l0, l1 := l1, queues := q, poison := p,
                                           as := { s.bun.as with x := x, bad := y } }) ∧
    (s.cur.acc = false → (s.aluWrite d vs).bun.as = s.bun.as) ∧
    (s.cur.acc = true → (s.aluWrite d vs).bun.v = s.bun.v ∧ (s.aluWrite d vs).bun.o = s.bun.o ∧ (s.aluWrite d vs).bun.l0 = s.bun.l0 ∧
      (s.aluWrite d vs).bun.l1 = s.bun.l1 ∧ (s.aluWrite d vs).bun.poison = s.bun.poison) ∧
    (∀ r, r < d.toNat ∨ d.toNat + vs.length ≤ r → (s.aluWrite d vs).bun.vreg r = s.bun.vreg r) ∧
    (∀ r, r + 0x60 ≠ d.toNat → Tab.find? (s.aluWrite d vs).bun.o r = Tab.find? s.bun.o r) ∧
    (∀ r, r < d.toNat ∨ d.toNat + vs.length ≤ r → Tab.find? (s.aluWrite d vs).bun.as.x r = Tab.find? s.bun.as.x r) ∧
    (isQ d.toNat = false → (s.aluWrite d vs).bun.queues = s.bun.queues) ∧
    (∀ n, n ≠ qNum d.toNat → (s.aluWrite d vs).bun.queue n = s.bun.queue n) ∧
    (∀ r j, r < 0x68 → r < d.toNat ∨ d.toNat + vs.length ≤ r →
      ((r, j) ∈ (s.aluWrite d vs).bun.poison ↔ (r, j) ∈ s.bun.poison)) ∧
    (∀ j, vs.length = 1 ∨ vs.length = 2 → s.cur.acc = false →
      ((0x68, j) ∈ (s.aluWrite d vs).bun.poison ↔ (0x68, j) ∈ s.bun.poison ∧ s.exec0.getLsbD j = false) ∧
      ((0x69, j) ∈ (s.aluWrite d vs).bun.poison ↔
        if s.exec0.getLsbD j then vs.length = 1 ∧ (0x68, j) ∈ s.bun.poison else (0x69, j) ∈ s.bun.poison)) ∧
    (∀ r j, r < 32 + d.toNat ∨ 32 + d.toNat + vs.length ≤ r →
      ((r, j) ∈ (s.aluWrite d vs).bun.as.bad ↔ (r, j) ∈ s.bun.as.bad))

/-- R15, R19, R20, R24, R29, R254: the end of a word changes the held pops of its own queues, k15 where NB is set, the marks of its
clause, and where its stream stands; while it frees no automatic slot, every byte of memory, every other register and every other bundle
is as its own effect left it. A pop takes the oldest entries that no pop holds; they keep their places, held by the stream. -/
def Obligations.WordFrame : Prop :=
  ∀ (s t : State) (i : Instr), (∀ j, j ∈ s.bun.autoSlots → j ∈ t.bun.autoSlots) →
    (t.close s i).outside = t.outside ∧
    (∃ (q : Tab Queue) (x : Stream), (t.close s i).bun = ({ t.bun with queues := q } : Bundle).setStream t.cur.acc x) ∧
    (∃ (k : Tab DWord) (y : List (Nat × Nat)) (z : List Outst) (pc : Word) (e : DWord) (c : Clause) (w : WaitOn) (m : Bool) (r : Nat),
      (t.close s i).str = { t.str with k := k, bad := y, outst := z, pc := pc, exec := e, clause := c, wait := w, entryMade := m,
                                       resumeAt := r }) ∧
    ((t.close s i).str.outst.map fun o => { o with marks := {}, late := {} }) =
      (t.str.outst.map fun o => { o with marks := {}, late := {} }) ∧
    (∀ o ∈ t.str.outst, o.id ≠ t.str.clause.id → o ∈ (t.close s i).str.outst) ∧
    (nbOf i = false → (t.close s i).str.bad = t.str.bad) ∧
    (∀ n, nbOf i = false ∨ n ≠ 15 → Tab.find? (t.close s i).str.k n = Tab.find? t.str.k n) ∧
    (∀ n, n ∉ (popsOf i).map (·.1) → Tab.find? (t.close s i).bun.queues n = Tab.find? t.bun.queues n) ∧
    (∀ n c, (n, c) ∈ popsOf i →
      let q := t.bun.queue n
      let r := (t.close s i).bun.queue n
      r.heldX = q.heldX ∧ r.heldA = q.heldA ∧ r.ents.map (·.val) = q.ents.map (·.val) ∧
        ∀ p, r.ents[p]?.map (·.pop) = q.ents[p]?.map fun e =>
          if e.pop = none ∧ (q.ents.take p).countP (fun e => e.pop.isNone) < c then some t.cur.acc else e.pop) ∧
    (nbOf i = true → (t.close s i).readK 15 = onesMask t.lanes) ∧
    (t.str.clause.idx + 1 < t.str.clause.words.length →
      (t.close s i).str.pc = t.str.pc ∧ (t.close s i).str.exec = t.str.exec ∧
      (t.close s i).str.clause = { t.str.clause with idx := t.str.clause.idx + 1, arrived := false }) ∧
    (t.str.clause.idx + 1 = t.str.clause.words.length →
      (t.close s i).str.pc = t.str.clause.target.getD (t.str.pc + BitVec.ofNat 32 (4 * (t.str.clause.words.length + 1))) ∧
      (t.close s i).str.exec = t.str.clause.execP ∧ (t.close s i).str.clause = {})

/-! ## Masks and compares -/

/-- R59, R58, R87: every compare completes and hands the conditions of its lanes to the k register under its mode. -/
def Obligations.CompareResults : Prop :=
  ∀ (s : State) (i : Instr) (d : BitVec 7) (m : Nat) (p : Nat → Bool), compare i s = some (d, m, p) →
    s.clear i = true → s.room i = true →
    ∃ c : DWord, exec i s = .next ((s.tick.writeKMode (d.toNat % 16) m c).close s.tick i) ∧
      ∀ j, j < s.lanes → j < 64 → c.getLsbD j = p j

/-- R52: set, and-into and or-into in the lanes of EXEC; the other lanes below W keep their bits, and the bits above are zero. -/
def Obligations.MaskModes : Prop :=
  ∀ (s : State) (n m : Nat) (c : DWord),
    (∀ j, j < s.lanes → j < 64 → ((s.writeKMode n m c).readK n).getLsbD j =
      if s.exec0.getLsbD j then
        (if m = 0 then c.getLsbD j else if m = 1 then (s.readK n).getLsbD j && c.getLsbD j
         else (s.readK n).getLsbD j || c.getLsbD j)
      else (s.readK n).getLsbD j) ∧
    (∀ j, s.lanes ≤ j → ((s.writeKMode n m c).readK n).getLsbD j = false) ∧
    (∀ k, k ≠ n → (s.writeKMode n m c).readK k = s.readK k) ∧ (s.writeKMode n m c).outside = s.outside

/-- R108, R109, R110: KOP writes every lane bit of KD whatever EXEC holds, and zeros above. KEXEC acts on the pending EXEC, which stays
within LIVE, and leaves EXEC itself until the clause ends; KEXEC.SAVE writes the pending EXEC; the A-stream's LIVE is bit 0. -/
def Obligations.MaskResults : Prop :=
  (∀ (s : State) (i : Instr) (d a b : BitVec 4) (f : Bool → Bool → Bool), kopResult i = some (d, a, b, f) →
    s.clear i = true → s.room i = true →
    ∃ x : DWord, exec i s = .next ((s.tick.writeK d.toNat x).close s.tick i) ∧
      ∀ j, j < 64 → (((s.tick.writeK d.toNat x).readK d.toNat).getLsbD j =
        (decide (j < s.lanes) && f ((s.readK a.toNat).getLsbD j) ((s.readK b.toNat).getLsbD j)))) ∧
  (∀ (s : State) (i : Instr), s.clear i = true → s.room i = true →
    (∀ e, kexecResult i s.str.clause.execP s.readK (if s.cur.acc then 1 else s.bun.live) = some e →
      exec i s = .next ((s.tick.setStr { s.str with clause := { s.str.clause with execP := e } }).close s.tick i)) ∧
    (∀ d, i = .kexecSave d → exec i s = .next ((s.tick.writeK d.toNat s.str.clause.execP).close s.tick i)))

/-! ## Across the lanes -/

/-- R120 to R123: a shuffle takes each lane's result from the lane R121 names, whatever EXEC holds there, and 0 from a lane outside
LIVE; it keeps a's own value where no such lane is below W. BALLOT gathers the active lanes whose word is not zero; READLANE gives one
lane's word to all. -/
def Obligations.LaneExchange : Prop :=
  (∀ (s : State) (i : Instr) (d a b : BitVec 7), shuffleOps i = some (d, a, b) → s.clear i = true → s.room i = true →
    s.grp.w ≤ 64 →
    ∃ v : Val, exec i s = .next ((s.tick.aluWrite d [v]).close s.tick i) ∧
      ∀ j, j < s.grp.w → v.lane j =
        match shuffleLane i s.grp.w j ((s.read b).lane j).toNat with
        | some k => if s.bun.live.getLsbD k then (s.read a).lane k else 0
        | none => (s.read a).lane j) ∧
  (∀ (s : State) (n : BitVec 1) (d a b : BitVec 7),
    (s.clear (.ballot n d a) = true → s.room (.ballot n d a) = true →
      ∃ x : DWord, exec (.ballot n d a) s = .next ((s.tick.writeK (d.toNat % 16) x).close s.tick (.ballot n d a)) ∧
        ∀ j, j < 64 → x.getLsbD j = (decide (j < s.grp.w) && s.exec0.getLsbD j && decide ((s.read a).lane j ≠ 0))) ∧
    (s.clear (.readlane n d a b) = true → s.room (.readlane n d a b) = true →
      exec (.readlane n d a b) s = .next ((s.tick.aluWrite d
        [.u (if s.bun.live.getLsbD (((s.read b).lane 0).toNat % s.grp.w)
             then (s.read a).lane (((s.read b).lane 0).toNat % s.grp.w) else 0)]).close s.tick (.readlane n d a b))))

/-- R124, R125, R126: REDADD over the active lanes, exact and by the tree; REDMM independent of the order of the lanes; SCAN by
doubling steps. -/
def Obligations.ReductionResults : Prop :=
  ∀ (s : State) (n : BitVec 1) (m : BitVec 2) (d a b : BitVec 7) (k : Nat), s.grp.w = 2 ^ k → k ≤ 6 →
    let lane := fun j => if s.bun.live.getLsbD j then (s.read a).lane j else 0
    let on := (List.range s.grp.w).filter fun j => s.exec0.getLsbD j
    let y := (s.read b).lane 0
    (s.clear (.redadd n m d a b) = true → s.room (.redadd n m d a b) = true →
      (m = 0#2 → exec (.redadd n m d a b) s =
        .next ((s.tick.aluWrite d [.u (y + (on.map lane).sum)]).close s.tick (.redadd n m d a b))) ∧
      (m = 1#2 → exec (.redadd n m d a b) s =
        .next ((s.tick.aluWrite d [.u (BitVec.ofNat 32 (F32.encode .rne (exactSum (f32Of y :: on.map fun j => f32Of (lane j)))))]).close
          s.tick (.redadd n m d a b))) ∧
      (m = 2#2 → exec (.redadd n m d a b) s =
        .next ((s.tick.aluWrite d [.u (BitVec.ofNat 32 (F32.add
          (tree F32.add (fun j => if s.exec0.getLsbD j then (lane j).toNat else 2 ^ 31) k 0) y.toNat))]).close
          s.tick (.redadd n m d a b))) ∧
      (m = 3#2 → ∃ lo hi : Val, exec (.redadd n m d a b) s =
          .next ((s.tick.aluWrite d [lo, hi]).close s.tick (.redadd n m d a b)) ∧
        lo.isU = true ∧ hi.isU = true ∧ pairLane [lo, hi] 0 = BitVec.ofNat 64 (F64.add
          (tree F64.add (fun j => if s.exec0.getLsbD j
            then (if s.bun.live.getLsbD j then (pairLane (s.readN a 2) j).toNat else 0) else 2 ^ 63) k 0)
          (pairLane (s.readN b 2) 0).toNat))) ∧
    (s.clear (.redmm n m d a b) = true → s.room (.redmm n m d a b) = true →
      ∃ r : Word, exec (.redmm n m d a b) s = .next ((s.tick.aluWrite d [.u r]).close s.tick (.redmm n m d a b)) ∧
        (m = 0#2 → (r = y ∨ ∃ j ∈ on, r = lane j) ∧ r.toInt ≤ y.toInt ∧ ∀ j ∈ on, r.toInt ≤ (lane j).toInt) ∧
        (m = 1#2 → (r = y ∨ ∃ j ∈ on, r = lane j) ∧ y.toInt ≤ r.toInt ∧ ∀ j ∈ on, (lane j).toInt ≤ r.toInt) ∧
        (2 ≤ m.toNat → ∀ l : List Nat, l.Perm on →
          r = l.foldl (fun z j => BitVec.ofNat 32 (F32.minmax (decide (m = 3#2)) z.toNat (lane j).toNat)) y)) ∧
    (s.clear (.scan n m d a b) = true → s.room (.scan n m d a b) = true →
      ∃ l : List Word, exec (.scan n m d a b) s = .next ((s.tick.aluWrite d [.g l]).close s.tick (.scan n m d a b)) ∧
        ∀ j, j < s.grp.w → wordAt l j =
          scanOp m (prefixOf (scanOp m) (fun i => if s.exec0.getLsbD i then lane i else scanId m) k j) y)

/-! ## Floating point -/

/-- R77, R82, R84, R85: the floating-point instructions complete: f32 words, both halves of a packed word, or f64 pairs, each the exact
result rounded once to nearest even. FMIN and FMAX give one of their operands as it stands, the smaller or larger with −0 below +0, the
other one where one is a NaN, and the canonical NaN where both are. -/
def Obligations.FloatResults : Prop :=
  (∀ t ∈ [F64, F32, F16, BF16], ∀ (larger : Bool) (x y : Nat),
    let r := t.minmax larger x y
    let nan := fun z => (t.decode z).isNan = true
    (nan x → nan y → r = t.cnan) ∧ (nan x → ¬ nan y → r = y) ∧ (¬ nan x → nan y → r = x) ∧
    (¬ nan x → ¬ nan y → (r = x ∨ r = y) ∧ ∀ z, z = x ∨ z = y →
      ¬ if larger then below (t.decode r) (t.decode z) else below (t.decode z) (t.decode r))) ∧
  ∀ (s : State) (i : Instr) (m : BitVec 2) (d a b : BitVec 7) (f : Fmt → Nat → Nat → Nat → Nat),
    floatResult i = some (m, d, a, b, f) →
    (m = 0#2 → ∃ v : Val, completes s i (s.tick.aluWrite d [v]) ∧ ∀ j, j < s.lanes →
      v.lane j = BitVec.ofNat 32 (f F32 ((s.read d).lane j).toNat ((s.read a).lane j).toNat ((s.read b).lane j).toNat)) ∧
    (m = 1#2 ∨ m = 2#2 → ∃ v : Val, completes s i (s.tick.aluWrite d [v]) ∧ ∀ j, j < s.lanes →
      let g := fun e => f (if m = 1#2 then F16 else BF16) (elem ((s.read d).lane j) e) (elem ((s.read a).lane j) e)
        (elem ((s.read b).lane j) e)
      v.lane j = BitVec.ofNat 32 (g 0 + 65536 * g 1)) ∧
    (m = 3#2 → ∃ lo hi : Val, completes s i (s.tick.aluWrite d [lo, hi]) ∧ ∀ j, j < s.lanes →
      pairLane [lo, hi] j = BitVec.ofNat 64 (f F64 (pairLane (s.readN d 2) j).toNat (pairLane (s.readN a 2) j).toNat
        (pairLane (s.readN b 2) j).toNat))

/-- R81, R88, R89, R90, R94: FCLASS sets the one bit of its operand's class; CVT converts every lane, under STO with the lane's bits of
the word drawn from the advanced generator. A NaN becomes 0, the canonical NaN, or a NaR, in e4m3 one with its sign; an infinity the end of an
integer's range, an infinity, a NaR, or the NaN of e4m3; a finite number is rounded to an integer and saturated, or rounded to the
format, in which a tapered result is never zero or NaR but of a zero. -/
def Obligations.ClassAndConvert : Prop :=
  (∀ (dt st : Nat) (c : Rnd) (x : DWord),
    let v := (tyOf st).decode x.toNat
    let q := valueOf v
    let y := cvtOne dt st c x
    (∀ n sgn, tyOf dt = .int n sgn →
      let lo : Int := if sgn then -2 ^ (n - 1) else 0
      let hi : Int := if sgn then 2 ^ (n - 1) - 1 else 2 ^ n - 1
      match v with
      | .nan _ => y = 0
      | .inf neg => y = BitVec.ofInt 64 (if neg then lo else hi)
      | .fin .. => ∃ k : Int, y = BitVec.ofInt 64 (max lo (min hi k)) ∧ |(k : ℚ) - q| < 1 ∧
        match c with
        | .rne => |(k : ℚ) - q| ≤ 1 / 2 ∧ (|(k : ℚ) - q| = 1 / 2 → k % 2 = 0)
        | .rna => |(k : ℚ) - q| ≤ 1 / 2 ∧ (|(k : ℚ) - q| = 1 / 2 → |q| ≤ |(k : ℚ)|)
        | .rtz => |(k : ℚ)| ≤ |q| ∧ 0 ≤ k * q
        | .rup => q ≤ k
        | .rdn => k ≤ q
        | .rto => k = q ∨ k % 2 = 1
        | .sto _ => True) ∧
    (∀ f, tyOf dt = .flt f → f.e4m3 = false →
      match v with
      | .nan _ => y = BitVec.ofNat 64 f.cnan
      | .inf neg => f.decode y.toNat = .inf neg ∧ y.toNat < 2 ^ (f.top + 1)
      | z => y = BitVec.ofNat 64 (f.encode c z)) ∧
    (tyOf dt = .flt E4M3 →
      match v with
      | .nan neg | .inf neg => y = if neg then 0xFF else 0x7F
      | z => y = BitVec.ofNat 64 (E4M3.encode c z)) ∧
    (∀ m, tyOf dt = .tap m →
      match v with
      | .nan _ | .inf _ => y = BitVec.ofNat 64 (2 ^ m)
      | z => y = BitVec.ofNat 64 (taperEncode m c z) ∧ (q = 0 → y = 0) ∧
          (q ≠ 0 → y.toNat % 2 ^ m ≠ 0 ∧ y.toNat / 2 ^ m = if q < 0 then 1 else 0))) ∧
  ∀ (s : State) (n : BitVec 1) (d a : BitVec 7) (t c : BitVec 4) (r : BitVec 3),
    (∃ v : Val, completes s (.fclass n d a) (s.tick.aluWrite d [v]) ∧
      ∀ j, j < s.lanes → v.lane j = BitVec.ofNat 32 (2 ^ classBit ((s.read a).lane j))) ∧
    (let u := if r = 5#3 then s.tick.setBun { s.bun with sr := srNext s.bun.sr } else s.tick
     let x := fun j => cvtOne t.toNat c.toNat (rndOf r.toNat (srBits (srWord u.bun.sr) j 0)) (cvtLane (s.readN a (cvtWords c)) c j)
     ∃ vs : List Val, completes s (.cvt d a t c r) (u.aluWrite d vs) ∧ vs.length = cvtWords t ∧
       ∀ j, j < s.lanes →
         if cvtWords t = 2 then pairLane vs j = x j else (vs.getD 0 (.u 0)).lane j = (x j).setWidth 32)

/-- R79, R80, R81: rounding to nearest gives, up to the largest finite value, the finite number closest to the exact one, of two equally
close the one whose pattern is even, with its sign; so does the tapered one, of the number clamped to [minpos, maxpos]. -/
def Obligations.RoundNearest : Prop :=
  (∀ m ∈ [7, 5], ∀ (neg : Bool) (f : Nat) (e : Int), f ≠ 0 →
    let top : ℚ := 2 ^ (2 * (m - 1))
    let v := max (1 / top) (min top |valueOf (.fin neg f e)|)
    let r := taperEncode m .rne (.fin neg f e)
    let w := fun x => valueOf (taperDecode m x)
    r / 2 ^ m = (if neg then 1 else 0) ∧ 0 < r % 2 ^ m ∧
      ∀ x, 0 < x → x < 2 ^ m →
        |w (r % 2 ^ m) - v| ≤ |w x - v| ∧ (|w (r % 2 ^ m) - v| = |w x - v| → w x ≠ w (r % 2 ^ m) → r % 2 = 0)) ∧
  ∀ t ∈ [F64, F32, F16, BF16, E5M2, E4M3], ∀ (neg : Bool) (m : Nat) (e : Int), m ≠ 0 →
    |valueOf (.fin neg m e)| ≤ valueOf (t.decode t.maxPat) →
    let v := valueOf (.fin neg m e)
    let r := t.encode .rne (.fin neg m e)
    let w := fun x => valueOf (t.decode x)
    finite t r = true ∧ r < 2 ^ (t.p + t.w + 1) ∧ (t.decode r).neg = neg ∧
      ∀ x, x < 2 ^ (t.p + t.w + 1) → finite t x = true →
        |w r - v| ≤ |w x - v| ∧ (|w r - v| = |w x - v| → w x ≠ w r → r % 2 = 0)

/-- R79, R80, R81: within the finite values RUP gives the least one that is not below the exact value, RDN the greatest one not above it,
RTZ the greatest in magnitude not beyond it; the tapered formats as well, of a number within [minpos, maxpos], while one outside gives the
nearer end. Past the largest finite value each code gives what the table of R80 says; e4m3 gives ±448 under every code. -/
def Obligations.RoundDirected : Prop :=
  (∀ m ∈ [7, 5], ∀ (neg : Bool) (f : Nat) (e : Int), f ≠ 0 →
    let top : ℚ := 2 ^ (2 * (m - 1))
    let v := |valueOf (.fin neg f e)|
    let w := fun c => valueOf (taperDecode m (taperEncode m c (.fin neg f e) % 2 ^ m))
    (∀ c, (v ≤ 1 / top → w c = 1 / top) ∧ (top ≤ v → w c = top)) ∧
    (1 / top ≤ v → v ≤ top → (if neg then w .rdn else w .rup) ≥ v ∧ w .rtz ≤ v ∧ (if neg then w .rup else w .rdn) = w .rtz ∧
      ∀ x, 0 < x → x < 2 ^ m →
        let y := valueOf (taperDecode m x)
        (v ≤ y → (if neg then w .rdn else w .rup) ≤ y) ∧ (y ≤ v → y ≤ w .rtz))) ∧
  (∀ t ∈ [F64, F32, F16, BF16, E5M2], ∀ (neg : Bool) (m : Nat) (e : Int),
    let v := |valueOf (.fin neg m e)|
    let big := valueOf (t.decode t.maxPat)
    let half := big + (big - valueOf (t.decode (t.maxPat - 1))) / 2
    let s := if neg then 2 ^ (t.p + t.w) else 0
    let at_ := fun c => t.encode c (.fin neg m e)
    big < v → at_ .rtz = s + t.maxPat ∧ at_ .rto = s + t.maxPat ∧
      (∀ r, ∀ c ∈ [Rnd.rne, .rna, .sto r], at_ c = s + if half ≤ v then t.maxPat + 1 else t.maxPat) ∧
      at_ .rup = s + (if neg then t.maxPat else t.maxPat + 1) ∧ at_ .rdn = s + (if neg then t.maxPat + 1 else t.maxPat)) ∧
  (∀ (c : Rnd) (neg : Bool) (m : Nat) (e : Int), 448 < |valueOf (.fin neg m e)| →
    E4M3.encode c (.fin neg m e) = if neg then 0xFE else 0x7E) ∧
  ∀ t ∈ [F64, F32, F16, BF16, E5M2, E4M3], ∀ (neg : Bool) (m : Nat) (e : Int),
    |valueOf (.fin neg m e)| ≤ valueOf (t.decode t.maxPat) →
    let v := valueOf (.fin neg m e)
    let w := fun c => valueOf (t.decode (t.encode c (.fin neg m e)))
    (∀ c ∈ [Rnd.rup, Rnd.rdn, Rnd.rtz], finite t (t.encode c (.fin neg m e)) = true) ∧
    v ≤ w .rup ∧ w .rdn ≤ v ∧ |w .rtz| ≤ |v| ∧ 0 ≤ w .rtz * v ∧
      ∀ x, x < 2 ^ (t.p + t.w + 1) → finite t x = true →
        let y := valueOf (t.decode x)
        (v ≤ y → w .rup ≤ y) ∧ (y ≤ v → y ≤ w .rdn) ∧ (|y| ≤ |v| → |y| ≤ |w .rtz|)

/-! ## Special registers and control -/

/-- R47, R48, R61, R106, R107, R118: GETS gives the special register's contents, LANE affine, the hierarchy's indices and extents and the shape
readout among them; SETS with EXEC not empty makes a later GETS of the register
read the new value, and with EXEC empty writes nothing. -/
def Obligations.SpecialRegisters : Prop :=
  ∀ (s : State) (d a : BitVec 7) (n : BitVec 11) (w : Word),
    (∃ v : Val, completes s (.gets d n) (s.tick.aluWrite d [v]) ∧ (n = 0#11 → s.cur.acc = false → v = .a 0 1) ∧
      ∀ j x, sregWord s n.toNat j = some x → v.lane j = x) ∧
    (s.exec0 = 0 → completes s (.sets a n) s.tick) ∧
    (s.exec0 ≠ 0 → completes s (.sets a n) (s.tick.setSreg n.toNat ((s.read a).lane 0))) ∧
    (∀ m ∈ [0x20, 0x21, 0x28, 0x40], ∀ j, sregWord (s.setSreg m w) m j = some w) ∧
    (∀ m ∈ [0x48, 0x4A], w.toNat % 4 = 0 → ∀ j, sregWord (s.setSreg m w) m j = some w) ∧
    (s.dev.ctl.xaccWin.toNat % 4 = 0 → ∀ j, sregWord (s.setSreg 0x49 w) 0x49 j = some w) ∧
    (s.dev.ctl.xaccBack.toNat % 4 = 0 → ∀ j, sregWord (s.setSreg 0x4B w) 0x4B j = some w) ∧
    (s.str.handler = true → ∀ j, sregWord (s.setSreg 0x3D w) 0x3D j = some (w &&& 3)) ∧
    (∀ m k, m ≠ k → ∀ j, sregWord (s.setSreg m w) k j = sregWord s k j) ∧
    (s.setSreg n.toNat w).mem = s.mem ∧ (s.setSreg n.toNat w).bun.v = s.bun.v ∧ (s.setSreg n.toNat w).bun.o = s.bun.o ∧
    (s.setSreg n.toNat w).str.k = s.str.k ∧ (s.setSreg n.toNat w).str.x = s.str.x ∧ (s.setSreg n.toNat w).str.pc = s.str.pc

/-- R66 to R69, R19, R101: a branch not taken falls through, one taken goes to its target, and traps with PROT where the target lies outside
the window; a conditional branch of either stream is counted, with its occupancy. CALL writes RA with the header that follows and goes to its target; RET goes to
RA; JMPR goes to an address of the code window; a target that is misaligned, or outside the window, traps. What TRAPADDR holds then is the
model's choice (log 56), and that the occupancy of an A-stream's branch is counted over LIVE of its bundle its reading (log 65). -/
def Obligations.TransfersOfControl : Prop :=
  (∀ (s : State) (i : Instr) (o : BitVec 21) (cond taken : Bool), branchOf i s = some (o, cond, taken) →
    let t := if cond then s.tick.countBranch else s.tick
    let pc := (s.str.pc.toNat : Int) + 4 * o.toInt
    (taken = false → completes s i t) ∧
    (taken = true → 0 ≤ pc ∧ pc < 2 ^ 32 →
      completes s i (t.setStr { t.str with clause := { t.str.clause with target := some (BitVec.ofInt 32 pc) } })) ∧
    (taken = true → ¬ (0 ≤ pc ∧ pc < 2 ^ 32) → traps s i { cause := 0x06 }) ∧
    t.beyond = s.tick.beyond ∧ t.bun = s.bun ∧ t.grp.branches = s.grp.branches + (if cond then 1 else 0) ∧
    (let ones := fun m : DWord => ((List.range 64).filter fun j => m.getLsbD j).length
     ones s.bun.live ≠ 0 → t.grp.occSum * ones s.bun.live =
       s.grp.occSum * ones s.bun.live + if cond then ones s.exec0 * 64 * occUnit else 0)) ∧
  (∀ (s : State) (o : BitVec 21) (a : BitVec 7),
    let pc := (s.str.pc.toNat : Int) + 4 * o.toInt
    let next : Word := s.str.pc + BitVec.ofNat 32 (4 * (s.str.clause.words.length + 1))
    let t := s.tick.setBun { s.bun with ra := next }
    let va := pairLane (s.readN a 2) 0
    let goTo := fun (u : State) (x : Word) => u.setStr { u.str with clause := { u.str.clause with target := some x } }
    (0 ≤ pc ∧ pc < 2 ^ 32 → completes s (.call o) (goTo t (BitVec.ofInt 32 pc))) ∧
    (¬ (0 ≤ pc ∧ pc < 2 ^ 32) → traps s (.call o) { cause := 0x06 }) ∧
    (s.bun.ra.toNat % 4 = 0 → completes s .ret (goTo s.tick s.bun.ra)) ∧
    (s.bun.ra.toNat % 4 ≠ 0 → traps s .ret { cause := 0x04 }) ∧
    (va.toNat % 4 = 0 → va.toNat / 2 ^ 32 = s.codeWin.toNat / 2 ^ 32 →
      completes s (.jmpr a) (goTo s.tick (BitVec.ofNat 32 va.toNat))) ∧
    (va.toNat % 4 ≠ 0 → traps s (.jmpr a) { cause := 0x04, addr := va }) ∧
    (va.toNat % 4 = 0 → va.toNat / 2 ^ 32 ≠ s.codeWin.toNat / 2 ^ 32 → traps s (.jmpr a) { cause := 0x06, addr := va }))

/-- R46, R70: a word that a check stands against takes the trap of that check; TRAP and BRK take theirs; NOP does nothing. -/
def Obligations.TrapsTaken : Prop :=
  ∀ (s : State) (i : Instr) (c : Nat) (n : BitVec 8),
    ((classOf i).isSome = true →
      s.checkWord (hClass s.str.clause.header) (decide (s.str.clause.words.length ≤ s.str.clause.idx + 1)) i = some c →
      exec i s = .next (s.trapWord { cause := c })) ∧
    (classOf i ≠ some (hClass s.str.clause.header) → ∀ l, s.checkWord (hClass s.str.clause.header) l i = some 0x02) ∧
    traps s (.trap n) { cause := 0x0C, info := BitVec.ofNat 32 n.toNat } ∧ traps s .brk { cause := 0x0D } ∧
    completes s .nop s.tick

/-- R332, R337, R338, R339, R341: where no clause but its own and commands of MXE and STE is outstanding and the vector is set, a trap
saves cause, TRAPINFO with the word's number but for the causes that give none, TRAPPC, TRAPADDR and EXEC, enters handler mode with MASK, EXEC becomes LIVE, and the stream stands at the vector; the
registers, memory and every other bundle are untouched. Without a vector, or in handler mode, the group is killed. -/
def Obligations.TrapEntry : Prop :=
  ∀ (s : State) (e : Trap),
    let x := s.str
    let vec := if s.cur.acc then s.dev.ctl.tveca else s.dev.ctl.tvecx
    let t := s.trapWord e
    e.cause ≠ 0x12 → (∀ o ∈ x.outst, o.id ≠ x.clause.id ∨ x.clause.id = 0 → o.cls = .mxe ∨ o.cls = .ste) →
    (x.handler = true ∨ vec = 0xFFFFFFFF#32 → Tab.find? t.groups s.cur.gid = none) ∧
    (x.handler = false → vec ≠ 0xFFFFFFFF#32 → t.str.trapCause = e.cause ∧
      t.str.trapInfo = (if e.cause ∈ [0x0A, 0x0C, 0x0D, 0x13] then e.info else e.info ||| BitVec.ofNat 32 (x.clause.idx + 1)) ∧
      t.str.trapPc = x.pc ∧ t.str.trapAddr = e.addr ∧ t.str.trapExec = x.exec ∧ t.str.handler = true ∧ t.str.mask = true ∧
      t.str.exec = (if s.cur.acc then 1 else s.bun.live) ∧ t.str.pc = vec ∧ t.str.clause = {} ∧
      t.str.k = x.k ∧ t.str.x = x.x ∧ t.str.rgnPc = x.rgnPc ∧ t.str.rgnCount = x.rgnCount ∧
      t.outside = s.tick.outside ∧ t.bun = s.bun.setStream s.cur.acc t.str)

/-- R335, R340: RTE.SKIP goes to the clause after the one that trapped, or to TRAPPC where no header was decoded; RTE goes there too
after TRAP and BRK, to TRAPPC after a fault of the fetch of a header, and else to the region entry with EXEC and the stochastic state of
the entry, which after PREEMPT is the one at TRAPPC; each leaves handler mode and clears MASK. Each waits for the other clauses issued in
handler mode, and for no others. -/
def Obligations.TrapReturn : Prop :=
  ∀ (s : State) (i : Instr), i = .rte ∨ i = .rteSkip → s.str.trapCause ≠ 0x12 → s.clear i = true → s.room i = true →
    let x := s.str
    let after := fun c : Nat => x.trapPc + BitVec.ofNat 32 (4 * (c + 1))
    let plain := i = .rteSkip ∨ x.trapCause = 0x0C ∨ x.trapCause = 0x0D ∨ (x.trapCount = none ∧ x.trapInfo.getLsbD 31 = false)
    ((∃ o ∈ x.outst, o.id ≠ x.clause.id ∧ o.handler = true) → waits s i .exit s.tick) ∧
    ((∀ o ∈ x.outst, o.id ≠ x.clause.id → o.handler = false) →
    (plain ∨ s.cur.acc = true ∨ s.bun.tokenBusy = false) →
    ∃ t : State, exec i s = .next t ∧ t.str.handler = false ∧ t.str.mask = false ∧
      (plain → t.str.exec = x.trapExec ∧ t.str.pc = match x.trapCount with
        | some c => after c
        | none => x.trapPc) ∧
      (¬ plain → t.bun.sr = s.bun.srEntry ∧
        if x.trapCause = 0x11 then t.str.exec = x.trapExec ∧ t.str.pc = x.trapPc
        else t.str.exec = x.entryExec ∧ t.str.pc = x.rgnPc) ∧
      t.outside = s.tick.outside ∧ t.bun.v = s.bun.v ∧ t.bun.o = s.bun.o ∧ t.str.k = x.k)

/-- R133, R134, R135: BAR.INIT sets E and drops the arrivals; an arrival is a release at group scope, records the generation and counts,
the E-th starting the next generation; a wait ends once the generation differs from the stream's record, or, with no record, from the one
it found at its first turn, and its end is an acquire at group scope; BAR.SYNC is one arrival and then the wait. -/
def Obligations.Barriers : Prop :=
  ∀ (s : State) (b : BitVec 6) (c : BitVec 13),
    let x := s.bar b.toNat
    let seen := fun (u : State) (n : Nat) => u.setStr { u.str with barRec := Tab.put u.str.barRec b.toNat n }
    let met := fun (u : State) => u.setStr { u.str with clause := { u.str.clause with arrived := true } }
    let next : Bar := if x.cnt + 1 = x.e then { x with gen := (x.gen + 1) % 65536, cnt := 0 } else { x with cnt := (x.cnt + 1) % 8192 }
    let here := (seen (s.tick.releaseGroup s.cur.gid 0) x.gen).setBar b.toNat next
    let ends := fun (u : State) => u.acquireGroup s.cur.gid 0
    completes s (.barInit b c) (s.tick.setBar b.toNat { e := c.toNat, cnt := 0, gen := x.gen }) ∧
    completes s (.barArrive b) here ∧
    (∀ g, Tab.find? s.str.barRec b.toNat = some g →
      (x.gen ≠ g → completes s (.barWait b) (ends s.tick)) ∧ (x.gen = g → waits s (.barWait b) (.barrier b.toNat) s.tick)) ∧
    (Tab.find? s.str.barRec b.toNat = none → s.str.clause.arrived = false →
      waits s (.barWait b) (.barrier b.toNat)
        (s.tick.setStr { s.str with clause := { s.str.clause with arrived := true, gen := x.gen } })) ∧
    (Tab.find? s.str.barRec b.toNat = none → s.str.clause.arrived = true →
      (x.gen ≠ s.str.clause.gen → completes s (.barWait b) (ends s.tick)) ∧
      (x.gen = s.str.clause.gen → waits s (.barWait b) (.barrier b.toNat) s.tick)) ∧
    (s.str.clause.arrived = false →
      (x.cnt + 1 = x.e → completes s (.barSync b) (ends (met here))) ∧
      (x.cnt + 1 ≠ x.e → waits s (.barSync b) (.barrier b.toNat) (met here))) ∧
    (∀ g, s.str.clause.arrived = true → Tab.find? s.str.barRec b.toNat = some g →
      (x.gen ≠ g → completes s (.barSync b) (ends s.tick)) ∧ (x.gen = g → waits s (.barSync b) (.barrier b.toNat) s.tick))

/-- R150, R153, R157, R327: ACQUIRE completes in a FULL group and else makes one request; YIELD sends its bundle behind the others; GBAR
ends once the launch's count has risen since its arrival; ORDENTER waits for every lower group and acquires on the LSU and TRV paths, and
ORDEXIT releases on both, commits and passes, each trapping in the wrong state. -/
def Obligations.GroupOrder : Prop :=
  ∀ (s : State),
    let g := s.grp
    let u := (s.tick.releaseGroup s.cur.gid 2).wbPath g.core 4
    (g.isFull = true → completes s .acquire s.tick) ∧
    (g.isFull = false → g.acqReq = none →
      waits s .acquire .acquire (s.tick.setGrp { g with acqReq := some (s.clock + 1), acqWho := s.cur })) ∧
    completes s .yield (s.tick.setBun
      ({ s.bun with ready := s.clock + 1, promoted := false }.setStream s.cur.acc { s.str with yielded := true })) ∧
    (∀ l, s.launch? g.serial = some l → s.str.clause.arrived = true →
      (l.gbarGen ≠ s.str.clause.gen → completes s .gbar (s.tick.acquireGroup s.cur.gid 2)) ∧
      (l.gbarGen = s.str.clause.gen → waits s .gbar .gbar s.tick)) ∧
    (∀ l, s.launch? g.serial = some l → g.sect ≠ .passed →
      ((∀ h, h < g.group → h ∈ l.passed) →
        completes s .ordenter (((s.tick.setGrp { g with sect := .held }).acquireGroup s.cur.gid 2).dropPath g.core 4)) ∧
      (∀ h, h < g.group → h ∉ l.passed → waits s .ordenter .sect s.tick)) ∧
    (g.sect = .passed → traps s .ordenter { cause := 0x13, info := 2 }) ∧
    (g.sect ≠ .held → traps s .ordexit { cause := 0x13, info := 1 }) ∧
    (∀ l, g.sect = .held → (∀ b ∈ Tab.vals g.bundles, b.lists = []) →
      (u.setGrp { u.grp with committed := true, sect := .passed }).launch? g.serial = some l →
      completes s .ordexit ((u.setGrp { u.grp with committed := true, sect := .passed }).setLaunch g.serial
        { l with passed := g.group :: l.passed.filter (· ≠ g.group) }))

/-- R71, R159, R254, R129, R130: EXIT commits the stream's held queue operations and waits for its clauses; then the stream has ended, and
the bundle with its last stream. REFORM files each live lane by whether it takes the branch, with its carried registers, and the
bundle departs. -/
def Obligations.ExitAndReform : Prop :=
  ∀ (s : State) (k : BitVec 4) (o : BitVec 21),
    let u := s.tick.setBun (s.bun.commitQueues s.cur.acc)
    let v := u.setStr { u.str with exiting := true, ended := true, clause := {}, wait := .nothing }
    let g := s.grp
    let t := (s.str.pc.toNat : Int) + 4 * o.toInt
    let next : Word := s.str.pc + BitVec.ofNat 32 (4 * (s.str.clause.words.length + 1))
    let on := fun j => (s.readK k.toNat &&& s.exec0).getLsbD j
    let strand := fun j => ({ orig := s.bun.orig.getD j 0, since := s.clock + 1, regs :=
      (List.range (nCarry (s.nodeRec g.node))).map fun r => (s.readV r).lane j } : Strand)
    let lanes := (List.range g.w).filter fun j => s.bun.live.getLsbD j
    let bins := fileStrands (fileStrands g.rbins (BitVec.ofInt 32 t) ((lanes.filter fun j => on j).map strand)) next
      ((lanes.filter fun j => !on j).map strand)
    let others := ∃ c ∈ s.str.outst, c.id ≠ s.str.clause.id
    (others → waits s .exit .exit (u.setStr { u.str with exiting := true })) ∧
    (¬ others → completes s .exit (v.bundleEnd s.cur.gid s.cur.bid)) ∧
    (v.bun.done = false → v.bundleEnd s.cur.gid s.cur.bid = v) ∧
    (others → waits s (.reform k o) .reform s.tick) ∧
    (¬ others → s.bun.poison = [] → s.bun.autoSlots = [] → 0 ≤ t → t < 2 ^ 32 → bins.length ≤ 8 →
      completes s (.reform k o) (s.tick.setGrp { g with
        rbins := bins, bundles := Tab.del g.bundles s.cur.bid, srLeft := Tab.put g.srLeft s.cur.bid s.bun.sr }))

/-! ## Memory -/

/-- R62, R63, R64, R165, R180: where every active lane's address passes its checks, a load completes with each lane's bytes, little-endian and
extended as its form says; on a scratchpad address or a page of normal RC bytes they are what the group sees there, or, of a scratchpad
word that an engine has written, what its read buffer may still hold (R195); beside the destination only memory's copies and page marks may
change. That such a load gives wholly the newer or wholly the older bytes is the model's choice (log 53). -/
def Obligations.LoadResults : Prop :=
  ∀ (s : State) (i : Instr) (o : BitVec 2) (d : BitVec 7) (n : Nat) (f : Nat → Nat → Word) (ans : Nat → LaneAns) (ls : List (Nat × MLoc)),
    loadOf i s = some (o, d, n, f, ans) → gather (s.activeLanes.map fun j => (j, ans j)) = .ok ls →
    let t := (s.tick.loadLanes n ls).2
    ls.map (·.1) = s.activeLanes ∧ t = s.tick.memOf t ∧
    ∃ vs : List Val, vs.length = max 1 (n / 4) ∧
      completes s i (if o = 1#2 then (t.writeN d vs).acquireGroup s.cur.gid (ordScope ls) else t.writeN d vs) ∧
      ((∀ l ∈ ls, plainPlace s 1 l.2) → t.mem = s.mem ∧ ∀ l ∈ ls,
        let gives := fun (byte : Nat → Byte) => ∀ k, k < vs.length →
          (vs.getD k (.u 0)).lane l.1 = f (leNat ((List.range n).map byte)) k
        (¬ mayBeOld s l.2 n → gives (placeByte s l.2)) ∧ (gives (placeByte s l.2) ∨ gives (oldByte s l.2)))

/-- R63, R64, R165, R180: a store whose active lanes pass their checks completes; on scratchpad addresses and normal RC pages each byte of a
lane that no higher lane stores to holds that lane's data, every other byte of scratchpad and memory is what it was, and nothing else
changes but the own group's scratchpad with its notes, its containment buffer, and the own core's L1: every other field is as before. -/
def Obligations.StoreResults : Prop :=
  ∀ (s : State) (i : Instr) (o : BitVec 2) (d : BitVec 7) (n : Nat) (ans : Nat → LaneAns) (ls : List (Nat × MLoc)),
    storeOf i s = some (o, d, n, ans) → gather (s.activeLanes.map fun j => (j, ans j)) = .ok ls →
    let data := fun j => (List.range n).map (storeByte s d j)
    let u := if o = 2#2 then s.tick.releaseGroup s.cur.gid (ordScope ls) else s.tick
    let t := u.storeLanes data ls
    completes s i t ∧
    ((∀ l ∈ ls, plainPlace u 2 l.2) → u.grp.cbuf.length + ls.length ≤ 256 → (s.contains s.grp = false → u.grp.cbuf = []) →
      Memory.wf u.grp.scr = true →
      (∀ l ∈ ls, ∀ x, l.2.loc = .mem x → ∀ e ∈ u.bun.fwd, ∀ w ∈ e.data, ¬ (w.1 < x.key + n ∧ x.key < w.1 + w.2.2.length)) →
      (∀ (j : Nat) (l : Nat × MLoc) (b : Nat), ls[j]? = some l → b < n → (∀ (m : Nat) (q : Nat × MLoc), j < m → ls[m]? = some q → covers n b l.2 q.2 = false) →
        placeByte t l.2 b = storeByte s d l.1 b) ∧
      (∀ k, (∀ l ∈ ls, hasScr n k l.2 = false) → t.grp.scrByte k = u.grp.scrByte k) ∧
      (∀ k, (∀ l ∈ ls, hasMem n k l.2 = false) →
        (t.grp.bufByte k).getD (t.viewByte s.grp.core k) = (u.grp.bufByte k).getD (u.viewByte s.grp.core k)) ∧
      ((∀ l ∈ ls, ∀ off, l.2.loc ≠ .scr off) → t.grp.scr = u.grp.scr ∧ t.grp.hits = u.grp.hits ∧ t.grp.scrOld = u.grp.scrOld ∧
        t.grp.engOld = u.grp.engOld) ∧
      (∀ c, c ≠ s.grp.core → Tab.find? t.l1 c = Tab.find? u.l1 c) ∧
      t.grp = { u.grp with scr := t.grp.scr, hits := t.grp.hits, scrOld := t.grp.scrOld, engOld := t.grp.engOld, cbuf := t.grp.cbuf } ∧
      t.beyond = { u.beyond with l1 := t.l1, found := t.found })

/-- R62, R63, R64, R345, R346: where some lane's address is misaligned, outside its bounds or not permitted, the lowest such lane traps and no lane
performs; where pages are not present and no lane traps, the stream parks on them. -/
def Obligations.LaneTraps : Prop :=
  ∀ (s : State) (i : Instr) (ans : Nat → LaneAns),
    (∃ o d n f, loadOf i s = some (o, d, n, f, ans)) ∨ (∃ o d n, storeOf i s = some (o, d, n, ans)) →
    (∀ j c x e, j ∈ s.activeLanes → ans j = .bad c x e → (∀ k ∈ s.activeLanes, k < j → ∀ c x e, ans k ≠ .bad c x e) →
      traps s i { cause := c, info := BitVec.ofNat 32 (j * 16 + e), addr := x }) ∧
    (∀ j p ms, j ∈ s.activeLanes → ans j = .miss p ms → (∀ k ∈ s.activeLanes, ∀ c x e, ans k ≠ .bad c x e) → s.clear i = true →
      ∃ q ns, exec i s = .next ((s.tick.parkAccess (.clause s.cur) s.grp.core q ns).setStr { s.str with wait := .parked }).noteParked ∧
        ∀ m ∈ ms, { m with lane := j } ∈ ns) ∧
    (∀ j a f n, (∃ o d, i = .ld32 o d a f ∧ n = 4 ∨ i = .ld64 o d a f ∧ n = 8 ∨ i = .ld128 o d a f ∧ n = 16 ∨
        i = .st32 o d a f ∧ n = 4 ∨ i = .st64 o d a f ∧ n = 8 ∨ i = .st128 o d a f ∧ n = 16) →
      inAperture (laneVa s a f n j) = false → (laneVa s a f n j).toNat % n ≠ 0 → ans j = .bad 0x04 (laneVa s a f n j))

/-- R181, R182, R208: an atomic whose active lanes pass their checks completes: it releases before and acquires after as its order says,
its lanes act one after another, and d takes each lane's old value. Lanes without order on one place, of bytes that no cache holds, act in
ascending order, each on what the one before left. -/
def Obligations.AtomicResults : Prop :=
  ∀ (s : State) (i : Instr) (o c : BitVec 2) (d a : BitVec 7) (n : Nat) (f : Nat → Nat → Nat) (ls : List (Nat × MLoc)),
    atomOf i s = some (o, c, d, a, n, f) →
    gather (s.activeLanes.map fun j => (j, s.atomAns (pairLane (s.readN a 2) j) n c.toNat)) = .ok ls →
    let scope := if anyMem ls || ls.isEmpty then c.toNat else 0
    let t := if o.getLsbD 1 then s.tick.releaseGroup s.cur.gid scope else s.tick
    let t := if anyMem ls then t.directWrite s.cur.gid else t
    let r := (t.atomLanes scope n f ls).1
    let u := (t.atomLanes scope n f ls).2
    (∃ vs : List Val, vs.length = n / 4 ∧ (∀ v ∈ vs, v.isG = true) ∧
      completes s i (if o.getLsbD 0 then (u.writeN d vs).acquireGroup s.cur.gid scope else u.writeN d vs) ∧
      ∀ j, j < s.lanes → ∀ k, k < n / 4 →
        (vs.getD k (.u 0)).lane j = BitVec.ofNat 32 ((Tab.find? r j).getD 0 / 2 ^ (32 * k))) ∧
    (∀ l, o = 0#2 → ls ≠ [] → (∀ p ∈ ls, p.2 = l) → s.contains s.grp = false → s.grp.cbuf = [] → s.bun.fwd = [] →
      Memory.wf s.grp.scr = true → Memory.wf s.mem = true → l.cx = [] →
      (∀ x, l.loc = .mem x → marked s 3 x ∧ s.targetUp x.key = true ∧ ∀ b, b < n →
        Tab.find? (s.l1Of s.grp.core) (x.key + b) = none ∧ Tab.find? (s.clOf (Config.clusterOf s.grp.core)) (x.key + b) = none) →
      let w := inTurn f n (ls.map (·.1)) (leNat ((List.range n).map (placeByte s l)))
      r = w.1 ∧ leNat ((List.range n).map (placeByte u l)) = w.2)

/-- R183, R189, R201, R204, R205, R209, R210: fences release, acquire or do both at their scope; FENCE.LOCAL performs the stream's UO stores,
in their order; PREFETCH changes no value. After a release at device scope the core's L1 and its cluster's unit hold no dirty copy and each
byte whose L1 copy was dirty stands at home; a release from cluster scope commits the containment buffer; an acquire leaves only dirty
copies. XFENCE leaves no write waiting on a before-path and no clean copy on an after-path. The copies are kept byte by byte, and those of
the engine paths are the model's reading of their buffers (logs 39, 54), as are the queue of UO accesses and its order (log 52), what XFENCE
writes home and drops (log 19), that a fence waits for the walks its stream began before and that can go on (log 69), and that PREFETCH leaves the whole state as it was (log 40). -/
def Obligations.Fences : Prop :=
  ∀ (s : State) (c : BitVec 2) (a : BitVec 7) (x y : BitVec 6),
    let g := s.cur.gid
    let core := s.grp.core
    completes s (.fenceAcq c) ((s.tick.drainUo fun u => u.who = s.cur).acquireGroup g c.toNat) ∧ completes s (.fenceRel c) (s.tick.releaseGroup g c.toNat) ∧
    completes s (.fenceFull c) ((s.tick.releaseGroup g c.toNat).acquireGroup g c.toNat) ∧ completes s .fenceLocal (s.tick.drainUo fun u => u.who = s.cur) ∧
    (∀ i ∈ [Instr.fenceAcq c, .fenceRel c, .fenceFull c, .fenceLocal], ∀ w ∈ s.bun.walks, w.acc = s.cur.acc → s.bun.walkWaits w = false →
      s.checkWord (hClass s.str.clause.header) (decide (s.str.clause.words.length ≤ s.str.clause.idx + 1)) i = none →
      exec i s = .next (s.tick.setStr { s.str with wait := .room })) ∧
    completes s (.prefetch a) s.tick ∧ completes s .commit (s.tick.commitBuf g) ∧
    completes s (.xfence x y c) ((s.tick.xfenceBefore x c.toNat).xfenceAfter y) ∧
    (∀ p ∈ [2, 3, 4, 5], ∀ k e,
      (x.getLsbD p = true → Tab.find? ((s.xfenceBefore x c.toNat).pathBuf core p) k = some e → e.2 = false) ∧
      (y.getLsbD p = true → Tab.find? ((s.xfenceAfter y).pathBuf core p) k = some e → e.2 = true)) ∧
    (x.getLsbD 0 = true → ∀ u ∈ (s.xfenceBefore x c.toNat).uoq, u.who.gid ≠ g) ∧
    (x.getLsbD 1 = true → ∀ u ∈ (s.xfenceBefore x c.toNat).contribs, (s.group u.owner.gid).core ≠ core) ∧
    (y.getLsbD 0 = true → (s.xfenceAfter y).grp.scrOld = []) ∧
    (∀ p : UoStore → Bool, (s.drainUo p).uoq = s.uoq.filter fun u => !p u) ∧
    (∀ (u : UoStore) (b : Nat), b < u.bytes.length → Memory.wf s.mem = true → s.targetUp (u.key + b) = true → s.targetUp u.key = true →
      (s.performUo u).homeByte (u.key + b) = u.bytes.getD b 0) ∧
    (∀ k v, Tab.find? (s.l1Of core) k = some (v, true) → s.targetUp k = true →
      (s.l1Of core).Pairwise (fun d e => d.1 < e.1) → (s.clOf (Config.clusterOf core)).Pairwise (fun d e => d.1 < e.1) →
      Memory.wf s.mem = true →
      (s.releaseLsu core 2).homeByte k = v) ∧
    (∀ k e, Tab.find? ((s.releaseLsu core 2).l1Of core) k = some e → e.2 = false) ∧
    (∀ k e, Tab.find? ((s.releaseLsu core 2).clOf (Config.clusterOf core)) k = some e → e.2 = false) ∧
    (∀ k e, 1 ≤ c.toNat → Tab.find? ((s.acquireLsu core c.toNat).l1Of core) k = some e → e.2 = true) ∧
    (∀ k e, 2 ≤ c.toNat → Tab.find? ((s.acquireLsu core c.toNat).clOf (Config.clusterOf core)) k = some e → e.2 = true) ∧
    (s.commitBuf g).grp.cbuf = [] ∧ (1 ≤ c.toNat → (s.releaseGroup g c.toNat).grp.cbuf = [])

/-- R169, R170, R171: SPILL enters the register into the forwarding table with the bytes it will write, and stalls while 16 are there; entries
leave the oldest first; FILL takes the newest entry of its slot from there, and a slot's format and bytes give back the value in every lane
with its tag. -/
def Obligations.SpillAndFill : Prop :=
  ∀ (s : State) (r k : BitVec 7) (va : DWord) (x y : Xlat),
    let m := s.tick.touchArea [0x140]
    (s.slotAcc k.toNat 2 = .ok (va, x, y) → s.bun.fwd.length < 16 →
      let t := (m.touch s.cluster x 2).touch s.cluster y 2
      let b := slotBytes s.grp.w (s.readV r.toNat)
      let e : Fwd := { slot := k.toNat, val := s.readV r.toNat, clause := s.str.clause.id,
                       data := [(x.key, decide (x.ord = 0), b.2), (y.key, decide (y.ord = 0), [BitVec.ofNat 8 b.1])] }
      completes s (.spill k r) (t.setBun { s.bun with fwd := e :: s.bun.fwd })) ∧
    (s.slotAcc k.toNat 2 = .ok (va, x, y) → 16 ≤ s.bun.fwd.length → s.clear (.spill k r) = true →
      exec (.spill k r) s = .next (s.tick.setStr { s.str with wait := .room })) ∧
    (∀ n, (s.drainFwd s.cur.gid s.cur.bid n).bun.fwd = s.bun.fwd.take (s.bun.fwd.length - n)) ∧
    (∀ e, s.slotAcc k.toNat 1 = .ok (va, x, y) → s.bun.fwd.find? (fun e => e.slot = k.toNat) = some e →
      completes s (.fill r k) (m.setWhole r.toNat e.val)) ∧
    (∀ v, s.slotAcc k.toNat 1 = .ok (va, x, y) → s.bun.fwd.find? (fun e => e.slot = k.toNat) = none →
      let fmt := leNat (s.areaBytes y 1)
      s.areaPoison y 1 = false → s.areaPoison x (slotLen s.grp.w fmt) = false →
      slotVal s.grp.w fmt (s.areaBytes x (slotLen s.grp.w fmt)) = some v →
      completes s (.fill r k) ((((m.touch s.cluster x 1).touch s.cluster y 1).backRuns [(x.key, slotLen s.grp.w fmt), (y.key, 1)]).setWhole
        r.toNat v)) ∧
    (∀ (w : Nat) (v : Val), 0 < w → ∃ u, slotVal w (slotBytes w v).1 (slotBytes w v).2 = some u ∧
      (slotBytes w v).2.length = slotLen w (slotBytes w v).1 ∧ u.tag = v.tag ∧ ∀ j, j < w → u.lane j = v.lane j)

/-- R184, R185, R186, R187, R189: WAITA reads its word at home and goes on where it differs from e, else waits, with a record of the pool unless it
polls already; WAKE, a direct global write, takes the first n waiters of the address, in arrival order, out of the pool; WAITP goes on once its scratchpad word
meets the condition, at issue or at a write while it waits, with an acquire at group scope. -/
def Obligations.Waits : Prop :=
  ∀ (s : State) (e a : BitVec 7) (c : BitVec 2) (y : Xlat) (g : Graph),
    let va := pairLane (s.readN a 2) 0
    let want := (s.read e).lane 0
    let t := (s.tick.touch s.cluster y 1).flush s.grp.core y.key 4
    let t := t.setStr { s.str with waiter := false, wakeTry := false }
    let off := ((s.read a).lane 0).toNat
    let met := fun (w : Word) => if c = 0#2 then w = want else if c = 1#2 then w ≠ want else want.toNat ≤ w.toNat
    let polls := s.str.wait.isWaita = true ∧ s.str.waiter = false
    let hit := s.str.wait.isWaitp && s.grp.hits.contains (s.cur.bid, s.cur.acc)
    (s.waitWord va = .ok y → s.viewPoison s.grp.core y.key 4 true = false → s.str.asleep = false →
      (t.homeWord y.key ≠ want → completes s (.waita e a) (t.acquireGroup s.cur.gid 2)) ∧
      (t.homeWord y.key = want → s.clear (.waita e a) = true → t.graph = some g →
        ∃ u, exec (.waita e a) s = .next u ∧ u.str.wait = .waita va.toNat want ∧ u.str.pc = s.str.pc ∧
          (u.str.waiter = true ↔ ¬ polls ∧ g.pool.length < g.poolSize) ∧
          (polls ∨ g.poolSize ≤ g.pool.length → u.graph = some g) ∧
          (¬ polls → g.pool.length < g.poolSize → ∃ h, u.graph = some h ∧ h.pool = g.pool ++ [(y.key, s.cur, g.poolSeq)]))) ∧
    (s.waitWord va = .ok y →
      let u := ((s.tick.touch s.cluster y 1).releaseGroup s.cur.gid 2).directWrite s.cur.gid
      u.graph = some g → ∃ v, completes s (.wake e a) v ∧
        let mine := (g.pool.filter fun p => p.1 = y.key).take want.toNat
        v.graph = some { g with pool := g.pool.filter fun p => !mine.contains p } ∧
        (∀ p ∈ mine, (v.stream p.2.1).wakeTry = true) ∧ v.mem = u.mem ∧ (s.contains s.grp = true → v.grp.committed = true)) ∧
    (off % 4 = 0 → off + 4 ≤ s.grp.scrSize →
      (met (s.grp.scrWord off) ∨ hit = true → completes s (.waitp e a c) (s.tick.clearHit.acquireGroup s.cur.gid 0)) ∧
      (¬ met (s.grp.scrWord off) → hit = false → waits s (.waitp e a c) (.waitp off want c.toNat) s.tick.clearHit)) ∧
    (∀ (h : Group) (b : Bundle) (bid o k d : Nat) (acc : Bool) (w : Word) (bs : List Byte), (bid, b) ∈ h.bundles →
      (b.stream acc).wait = .waitp o w d → k < o + 4 → o < k + bs.length → waitpHolds d ((h.scrPut k bs).scrWord o) w = true →
      (bid, acc) ∈ (h.scrPut k bs).hits)

/-! ## Exact words and estimators -/

/-- R231, R233, R234: additions to a cell give the same cell in every order; a word loaded after one store is the value stored, a zero without
its sign; a load rounds the exact sum once. -/
def Obligations.ExactCells : Prop :=
  (∀ (c : Nat) (xs ys : List Word), xs.Perm ys → xs.foldl exactAdd c = ys.foldl exactAdd c) ∧
  (∀ x : Word, Rules.finite F32 x.toNat = true → exactLoad (exactStore x) = if x = 0x80000000#32 then 0 else x) ∧
  (∀ xs : List Word, (∀ x ∈ xs, Rules.finite F32 x.toNat = true) → xs.length < 2 ^ 64 →
    ∀ n m e, exactSum (xs.map fun x => f32Of x) = .fin n m e → m ≠ 0 →
      exactLoad (xs.foldl exactAdd 0) = BitVec.ofNat 32 (F32.encode .rne (.fin n m e)))

/-- R233, R238, R241, R242: XADD and ESAMPLE hand one contribution a lane to the estimator path, in lane order, with the lane's operands;
ELOAD writes the four statistics of each lane's cell, its stream's own contributions applied; an unbound slot traps. -/
def Obligations.EstimatorAccess : Prop :=
  ∀ (s : State) (d a : BitVec 7) (c : BitVec 2) (n : BitVec 4) (ls : List (Nat × MLoc)) (ra : DWord) (rd : List Word),
    let u := if ls.isEmpty then s.tick else s.tick.directWrite s.cur.gid
    let t := ls.foldl (fun t l => t.touchLoc l.2 3) u
    (gather (s.activeLanes.map fun j => (j, s.xaddAns (pairLane (s.readN a 2) j))) = .ok ls →
      ∃ cs : List Contrib, completes s (.xadd d a c) { t with contribs := t.contribs ++ cs } ∧
        cs.map (fun k => (k.sample, k.keys, k.x, k.owner)) = ls.map fun l => (false, l.2.keys, (s.read d).lane l.1, s.cur)) ∧
    (Tab.find? s.grp.regions n.toNat = none →
      traps s (.esample d a n) { cause := 0x06 } ∧ traps s (.eload d a n) { cause := 0x06 } ∧ traps s (.edecay d n) { cause := 0x06 } ∧
      traps s (.esweep n) { cause := 0x06 }) ∧
    (Tab.find? s.grp.regions n.toNat = some (ra, rd) →
      (gather (s.activeLanes.map fun j => (j, s.estAns rd ((s.read a).lane j).toNat 3)) = .ok ls →
        ∃ cs : List Contrib, completes s (.esample d a n) { t with contribs := t.contribs ++ cs } ∧
          cs.map (fun k => (k.sample, k.region, k.x, k.y)) =
            ls.map fun l => (true, ra, (s.readWord d.toNat 0).lane l.1, (s.readWord d.toNat 1).lane l.1)) ∧
      (gather (s.activeLanes.map fun j => (j, s.estAns rd ((s.read a).lane j).toNat 1)) = .ok ls →
        let v := (s.tick.commitBuf s.cur.gid).drainContribs fun k => k.owner = s.cur
        let v := ls.foldl (fun t l => (t.touchLoc l.2 1).backInv l.2.key 32) v
        (∀ k ∈ v.contribs, k.owner ≠ s.cur) ∧
        ∃ vs : List Val, vs.length = 4 ∧ completes s (.eload d a n) (v.writeN d vs) ∧ ∀ l ∈ ls, ∀ k, k < 4 →
          (vs.getD k (.u 0)).lane l.1 = wordAt (((ECell.ofNat (leNat (v.homeBytes l.2.key 32))).decay (v.regionCache ra).1.toNat
            (rDshift rd)).stats rd) k))

/-- R189, R238, R240, R243, R245: EREGION binds a valid descriptor and takes its epoch; EDECAY advances the epoch modulo 64, in the slices and
in word 4; both move the rejected count to word 9, saturating, and leave 0, which sets COMMITTED in a CONTAIN group. ESWEEP visits the
cells in index order: a cell takes its decay, and where it lags and has no REQ it takes REQ and its record goes to SPROUT, or waits for room
behind the sweep's earlier records; a poisoned cell ends the sweep with an engine trap. That the whole sweep is one step, that records without room wait, and that ESWEEP itself
never waits are the model's reading (log 42). -/
def Obligations.EstimatorRegions : Prop :=
  ∀ (s : State) (a t : BitVec 7) (n : BitVec 4) (x : Xlat) (ra : DWord) (rd : List Word),
    let g := s.cur.gid
    let va := pairLane (s.readN a 2) 0
    let u := ((s.tick.touch s.cluster x 1).commitBuf g).flush s.grp.core x.key 64
    let d := u.homeWords x.key 16
    let b := u.setGrp { u.grp with regions := Tab.put u.grp.regions n.toNat (va, d) }
    let steps := ((s.read t).lane 0).toNat
    let v := ((((s.tick.touch s.cluster x 1).directWrite g).touch s.cluster x 2).flush s.grp.core (x.key + 16) 4)
    (s.descAcc va = .ok x → regionError d = none →
      completes s (.eregion a n) ((b.setRegion va (wordAt d 4 &&& 0x3F, (b.regionCache va).2)).flushReject va x)) ∧
    (∀ k, s.descAcc va = .ok x → regionError d = some k →
      traps s (.eregion a n) { cause := 0x06, info := BitVec.ofNat 32 (k * 4096), addr := va }) ∧
    (Tab.find? s.grp.regions n.toNat = some (ra, rd) → s.descAcc ra = .ok x →
      (steps = 0 → completes s (.edecay t n) (((s.tick.touch s.cluster x 1).commitBuf g).flushReject ra x)) ∧
      (0 < steps → ∃ w : State, completes s (.edecay t n) (w.flushReject ra x) ∧
        (let ep := BitVec.ofNat 32 (((s.regionCache ra).1.toNat + steps) % 64)
         w.regionCache ra = (ep, (s.regionCache ra).2) ∧
           (Memory.wf v.mem = true → v.targetUp (x.key + 16) = true →
             w.homeWord (x.key + 16) = (v.homeWord (x.key + 16) &&& ~~~ 0x3F#32) ||| ep)))) ∧
    (∀ w : State,
      let rej := (w.regionCache ra).2
      let m := ((w.directWrite w.cur.gid).touch w.cluster x 2).flush w.grp.core (x.key + 36) 4
      ((w.flushReject ra x).regionCache ra) = ((w.regionCache ra).1, 0) ∧
        (0 < rej → Memory.wf m.mem = true → m.targetUp (x.key + 36) = true → (w.flushReject ra x).homeWord (x.key + 36) =
          BitVec.ofNat 32 (min ((m.homeWord (x.key + 36)).toNat + rej) (2 ^ 32 - 1))) ∧
        (0 < rej → w.contains w.grp = true → (w.flushReject ra x).grp.committed = true)) ∧
    (∀ ls, Tab.find? s.grp.regions n.toNat = some (ra, rd) →
      gather ((sweepPages rd).map fun p => (0, s.cellAns p 3)) = .ok ls →
      let w : State := ls.foldl (fun (w : State) l => w.touchLoc l.2 3) ((s.tick.directWrite g).drainContribs fun k => k.owner = s.cur)
      ∃ place : Nat → Nat, completes s (.esweep n) (w.sweepFrom rd (w.regionCache ra).1.toNat n.toNat place (rCcount rd) 0) ∧
        ∀ j, j < rCcount rd →
          let at_ := (rCbase rd).toNat + 32 * j
          let page := at_ / 4096 - (rCbase rd).toNat / 4096
          ∀ l, ls[page]? = some l → place j = l.2.key + if page = 0 then 32 * j else at_ % 4096) ∧
    (∀ (w : State) (ep sl m j : Nat) (place : Nat → Nat),
      let c := (ECell.ofNat (leNat (w.homeBytes (place j) 32))).decay ep (rDshift rd)
      let st := c.stats rd
      let due := bit (wordAt st 3) 27 && !c.req
      let y := w.homeWrite (place j) (leBytes 32 ({ c with req := c.req || due } : ECell).toNat)
      let rcd := [BitVec.ofNat 32 sl, BitVec.ofNat 32 j, BitVec.ofNat 32 c.n, wordAt st 2]
      (w.poisonedIn (place j) 32 = false → due = false →
        w.sweepFrom rd ep sl place (m + 1) j = y.sweepFrom rd ep sl place m (j + 1)) ∧
      (w.poisonedIn (place j) 32 = false → due = true →
        w.sweepFrom rd ep sl place (m + 1) j = (y.sprout (rSprout rd) rcd).sweepFrom rd ep sl place m (j + 1)) ∧
      (w.poisonedIn (place j) 32 = true → w.sweepFrom rd ep sl place (m + 1) j = w.setStr { w.str with due := w.str.due ++
        [{ cause := 0x10, info := BitVec.ofNat 32 (2 ^ 31 + 0x30 + sl), addr := rCbase rd + BitVec.ofNat 64 (32 * j) }] })) ∧
    (∀ (w : State) (h : Word) (r : List Word),
      let me : Sprout := { who := w.cur, clause := w.str.clause.id, node := w.grp.node, handle := h, rcd := r }
      let behind := ∃ p ∈ w.sprouts, p.who = w.cur ∧ p.clause = w.str.clause.id
      (¬ behind → ∀ y, w.sendRecord w.grp.node h r = some y → w.sprout h r = y) ∧
      (behind ∨ w.sendRecord w.grp.node h r = none → w.sprout h r = { w with sprouts := w.sprouts ++ [me] }))

/-- R141, R142, R144, R160: EMIT releases at device scope and sends one record a lane of EXEC, in ascending order, each appended, or
waiting for room behind its clause's earlier records as ESWEEP's do (the last clause of EstimatorRegions); the word itself waits for none
(log 42), and with EXEC empty sends none; CYCLES gives the clock at issue to every lane; a clock of the model is one step (log 2). -/
def Obligations.Records : Prop :=
  ∀ (s : State) (f h d : BitVec 7) (c : BitVec 5),
    let u := s.tick.releaseGroup s.cur.gid 2
    let recs := s.activeLanes.map fun j => (List.range (c.toNat + 1)).map fun k => (s.readWord f.toNat k).lane j
    completes s (.emit f h c) (recs.foldl (fun t r => t.sprout ((s.read h).lane 0) r) u) ∧
    (∀ r, recs = [r] → (∀ p ∈ u.sprouts, p.who = s.cur → p.clause ≠ s.str.clause.id) →
      (∀ t, u.sendRecord s.grp.node ((s.read h).lane 0) r = some t → completes s (.emit f h c) t) ∧
      (u.sendRecord s.grp.node ((s.read h).lane 0) r = none → completes s (.emit f h c) { u with sprouts := u.sprouts ++
        [{ who := s.cur, clause := s.str.clause.id, node := s.grp.node, handle := (s.read h).lane 0, rcd := r }] })) ∧
    (s.exec0 = 0 → completes s (.emit f h c) u) ∧
    (∃ t, completes s (.cycles d) t ∧ (s.cur.acc = false → d.toNat < 0x5F → ∀ k, k < 2 →
      t.bun.vreg (d.toNat + k) = .val (.u (BitVec.ofNat 32 ((s.clock + 1) % 2 ^ 64 / 2 ^ (32 * k))))))

/-! ## Matrix engine and special functions -/

/-- R276, R277, R279, R280, R281: MZERO, TKGIVE, ACCRD and ACCWR act on a tile whose owner is VEC and trap on any other; TKTAKE stalls
while the tile is BUSY; a row that is not admitted traps with ILLOPND; MSTAT tells the owners and the commands pending. -/
def Obligations.MatrixTokens : Prop :=
  ∀ (s : State) (d v r : BitVec 7) (h : BitVec 1) (t : BitVec 3),
    let x := s.grp.tile t.toNat
    let code := match x.owner with
      | .vec => 0
      | .mxe => 1
      | .busy => 2
    let token : Trap := { cause := 0x09, info := BitVec.ofNat 32 (t.toNat * 16 + code * 128) }
    let y := ((s.read r).lane 0).toNat
    let row := y % 128
    let col := 64 * h.toNat + y / 256 % 64
    let good := y / 128 % 2 = 0 ∧ y < 2 ^ 14 ∧ y / 256 % 64 + s.grp.w ≤ 64
    (x.owner = .vec →
      completes s (.mzero t) (s.tick.setTile t.toNat { x with elems := [] }) ∧
      completes s (.tkgive t) (s.tick.setTile t.toNat { x with owner := .mxe }) ∧
      (good → (∃ l : List Word, completes s (.accrd d r h t) (s.tick.write d (.g l)) ∧
          ∀ j, j < s.grp.w → wordAt l j = x.elem row (col + j)) ∧
        ∃ z : Tile, completes s (.accwr v r h t) (s.tick.setTile t.toNat z) ∧ z.owner = .vec ∧
          ∀ m n, n < 128 → z.elem m n =
            if m = row ∧ col ≤ n ∧ n < col + s.lanes ∧ s.exec0.getLsbD (n - col) = true then (s.read v).lane (n - col)
            else x.elem m n)) ∧
    (x.owner ≠ .vec → traps s (.mzero t) token ∧ traps s (.tkgive t) token ∧
      (good → traps s (.accrd d r h t) token ∧ traps s (.accwr v r h t) token)) ∧
    (¬ good → traps s (.accrd d r h t) { cause := 0x03 } ∧ traps s (.accwr v r h t) { cause := 0x03 }) ∧
    (x.owner ≠ .busy → completes s (.tktake t) (s.tick.setTile t.toNat { x with owner := .vec })) ∧
    (x.owner = .busy → waits s (.tktake t) (.tile t.toNat) s.tick) ∧
    (∀ z : Tile, (s.setTile t.toNat z).grp.tile t.toNat = z ∧
      ∀ k, k ≠ t.toNat → (s.setTile t.toNat z).grp.tile k = s.grp.tile k) ∧
    ∃ n : Word, completes s (.mstat d) (s.tick.writeAll d.toNat 0 n) ∧ n.toNat / 65536 = min 15 s.grp.mcmds.length ∧
      ∀ k, k < 8 → n.toNat / 4 ^ k % 4 = if k < nTiles (s.nodeRec s.grp.node) then (match (s.grp.tile k).owner with
        | .vec => 0
        | .mxe => 1
        | .busy => 2) else 3

/-- R276, R277, R283, R284, R286, R288, R292, R293: MMA and MDRAIN read their 64-byte block, as the scratchpad holds it where the MXE path
keeps nothing older (what it may keep is log 54), trap on the first word that breaks its rules, trap
where the tile's owner is VEC and stall while it is BUSY; else, with EXEC not empty, the tile is BUSY and the command stands at the
block's cursor. Under STO an MDRAIN advances the bundle's generator, whatever EXEC holds. -/
def Obligations.MatrixCommands : Prop :=
  ∀ (s : State) (a : BitVec 7) (b ta tb : List Word) (w : Nat) (c : MCmd),
    let off := ((s.read a).lane 0).toNat
    let n := nTiles (s.nodeRec s.grp.node)
    let t := mTile b
    let x := s.grp.tile t
    let token : Trap := { cause := 0x09, info := BitVec.ofNat 32 (t * 16) }
    let field := fun (w : Nat) => ({ cause := 0x06, info := BitVec.ofNat 32 (w * 4096), addr := BitVec.ofNat 64 off } : Trap)
    let sr := if dRnd b = 5 then srNext s.bun.sr else s.bun.sr
    let u := s.tick.setBun { s.bun with sr := sr }
    (off % 64 = 0 → off + 64 ≤ s.grp.scrSize → Tab.get [] s.grp.engOld 3 = [] →
      s.block off 3 = .ok ((List.range 16).map fun k => s.grp.scrWord (off + 4 * k))) ∧
    (off % 64 ≠ 0 → ∀ i ∈ [Instr.mma a, .mdrain a], traps s i { cause := 0x04, addr := BitVec.ofNat 64 off }) ∧
    (s.block off 3 = .ok b → mmaBad b n = some w → traps s (.mma a) (field w)) ∧
    (s.block off 3 = .ok b → drainBad b n = some w → traps s (.mdrain a) (field w)) ∧
    (s.block off 3 = .ok b → mmaBad b n = none → s.tensor (mAtid b) = .ok ta → s.tensor (mBtid b) = .ok tb →
      mmaTensorsBad b ta tb = false →
      (x.owner = .vec → traps s (.mma a) token) ∧ (x.owner = .busy → waits s (.mma a) (.tile t) s.tick) ∧
      (x.owner = .mxe → s.exec0 = 0 → completes s (.mma a) s.tick) ∧
      (x.owner = .mxe → s.exec0 ≠ 0 → completes s (.mma a) (s.tick.startCmd t x
        { drain := false, block := off, blk := b, descs := [ta, tb], bid := s.cur.bid, acc := s.cur.acc,
          clause := s.str.clause.id, cur := (wordAt b 3).toNat }))) ∧
    (s.block off 3 = .ok b → drainBad b n = none → s.tensor (mAtid b) = .ok ta →
      tFmt ta = dFmt b → tScale ta = 0 → tUnfold ta = false →
      (x.owner = .vec → traps s (.mdrain a) token) ∧ (x.owner = .busy → waits s (.mdrain a) (.tile t) s.tick) ∧
      (x.owner = .mxe → s.exec0 = 0 → completes s (.mdrain a) u) ∧
      (x.owner = .mxe → s.exec0 ≠ 0 → completes s (.mdrain a) (u.startCmd t x
        { drain := true, block := off, blk := b, descs := [ta], bid := s.cur.bid, acc := s.cur.acc,
          clause := s.str.clause.id, cur := (wordAt b 7).toNat, s0 := sr }))) ∧
    ((s.startCmd t x c).grp.tile t).owner = .busy ∧ ((s.startCmd t x c).grp.tile t).elems = x.elems ∧
    Tab.find? (s.startCmd t x c).grp.mcmds t = some c ∧ (∀ k, k ≠ t → (s.startCmd t x c).grp.tile k = s.grp.tile k)

/-- R276, R286, R293: an MMA_CHUNK whose operands can be read adds to every element the exact sum of the chunk's products, rounded once,
leaves every other element, and moves its cursor in the block; an MDRAIN_ROW into scratchpad writes each element scaled and rounded
once; the last of either returns the tile to MXE, or to VEC where the block says so. -/
def Obligations.MatrixWork : Prop :=
  ∀ (s u : State) (g t : Nat) (c : MCmd) (as bs : List (List Machine.Num)),
    let b := c.blk
    let ch := mmaChunk (mAtype b) (mBtype b)
    let x := (s.group g).tile t
    let back := if (if c.drain then bit (wordAt b 0) 13 else bit (wordAt b 1) 16) then Owner.vec else .mxe
    let word := fun (v : State) k => leNat ((List.range 4).map fun j => (v.group g).scrByte (k + j))
    Tab.find? (s.group g).mcmds t = some c → c.parked = false → s.resident g = true → Memory.wf (s.group g).scr = true →
    mRows b ≤ 128 → mCols b ≤ 128 →
    (c.drain = false → c.cur < mK b → 0 < ch → chunkReads s.tick g c = .ok (as, bs) u →
      ∃ v, exec (.mmaChunk g t) s = .next v ∧
        (∀ m n, n < 128 → ((v.group g).tile t).elem m n =
          if m < mRows b ∧ n < mCols b then BitVec.ofNat 32 (F32.encode .rne (exactSum
            ((if mAcc b = false ∧ c.cur = 0 then .fin true 0 0 else f32Of (x.elem m n)) ::
              (as.getD m []).zipWith Machine.Num.mul (bs.getD n []))))
          else x.elem m n) ∧
        word v (c.block + 12) = (c.cur + ch) % 2 ^ 32 ∧
        (c.cur + ch < mK b → Tab.find? (v.group g).mcmds t = some { c with cur := c.cur + ch } ∧
          ((v.group g).tile t).owner = x.owner) ∧
        (mK b ≤ c.cur + ch → Tab.find? (v.group g).mcmds t = none ∧ ((v.group g).tile t).owner = back) ∧
        v.bundle g = s.bundle g) ∧
    (let d := c.descs.headD []
     let z := elemSize (tFmt d)
     let ix := fun n => [(wordAt b 3).toNat + n, (wordAt b 2).toNat + c.cur]
     let w := srWord (c.s0 + BitVec.ofNat 64 c.cur * 0x9E3779B97F4A7C15#64)
     let a := fun n => (elemPlace d (ix n)).1.toNat % 2 ^ 32
     c.drain = true → c.cur < mRows b → tSpace d = true → tPack d = false → (∀ n, n < mCols b → tInside d (ix n) = true) →
     (∀ n, n < mCols b → a n = a 0 + n * z) → a 0 + mCols b * z ≤ (s.group g).scrSize →
     (c.block + 32 ≤ a 0 ∨ a 0 + mCols b * z ≤ c.block + 28) → (c.cur + 1 = mRows b → dAmax b = false) →
      ∃ v, exec (.mdrainRow g t) s = .next v ∧
        (∀ n, n < mCols b → leNat ((List.range z).map fun j => (v.group g).scrByte (a n + j)) =
          ((tyOf (dFmt b)).encode (rndOf (dRnd b) (srBits w (n % 64) (n / 64)))
            (match f32Of (x.elem c.cur n) with
             | .fin neg m e => .fin neg m (e + ((wordAt b 4).setWidth 8).toInt)
             | y => y)).toNat % 256 ^ z) ∧
        (∀ k, (k < a 0 ∨ a 0 + mCols b * z ≤ k) → (k < c.block + 28 ∨ c.block + 32 ≤ k) →
          (v.group g).scrByte k = (s.group g).scrByte k) ∧
        word v (c.block + 28) = (c.cur + 1) % 2 ^ 32 ∧ ((v.group g).tile t).elems = x.elems ∧
        (c.cur + 1 < mRows b → ((v.group g).tile t).owner = x.owner ∧
          ∃ y, Tab.find? (v.group g).mcmds t = some y ∧ y.cur = c.cur + 1) ∧
        (c.cur + 1 = mRows b → Tab.find? (v.group g).mcmds t = none ∧ ((v.group g).tile t).owner = back))

/-- R97, R98, R99, R114, R296, R297, R298, R299: SFI makes its token pending with the operand as it stands, and traps where the token is pending; the
result is written to its destination in the lanes EXEC had; SFWAIT waits for the results of the tokens it names and frees them,
SFPOLL tells whether all have arrived. The special functions have the values of R97 and R98 at the infinities and zeros, at NaNs and
outside their domains, at integers and halves for SINPI and COSPI, and at the arguments where EXP2, LOG2 and RCP are exact. The accuracy
elsewhere is the model's reading (log 21). -/
def Obligations.SpecialQueue : Prop :=
  ∀ (s : State) (z : BitVec 3) (d a : BitVec 7) (f : BitVec 5) (m : BitVec 8) (k : BitVec 4) (g b : Nat),
    let x := s.bun
    let tok := Tab.get {} x.toks z.toNat
    let new : Token := { pending := true, dest := d.toNat, fn := f.toNat, opnd := s.read a, exec := s.exec0,
                         written := decide (s.exec0 = 0), clause := s.str.clause.id }
    let here := ∀ e ∈ x.toks, e.2.pending = true → m.toNat.testBit e.1 = true → e.2.written = true
    let y := s.bundle g b
    let t := Tab.get {} y.toks z.toNat
    let u := { s with cur := { gid := g, bid := b } }
    (tok.pending = true → traps s (.sfi z d a f) { cause := 0x09, info := BitVec.ofNat 32 (z.toNat * 16 + 384) }) ∧
    (tok.pending = false →
      (s.exec0 = 0 ∨ sfiUniform s.grp.w (s.read a) s.exec0 = true ∨ 0x60 ≤ d.toNat ∨
        s.inPlace d.toNat = true ∧ x.residents.length + (x.coming s.grp.w).length + 1 ≤ s.budget s.grp) →
      completes s (.sfi z d a f) (s.tick.setBun { x with toks := Tab.put x.toks z.toNat new })) ∧
    (here → ∃ l : Tab Token, completes s (.sfwait m) (s.tick.setBun { x with toks := l }) ∧
      ∀ j, (m.toNat.testBit j = true → (Tab.get {} l j).pending = false) ∧
        (m.toNat.testBit j = false → Tab.find? l j = Tab.find? x.toks j)) ∧
    (¬ here → waits s (.sfwait m) (.tokens m.toNat) s.tick) ∧
    (∃ w : DWord, completes s (.sfpoll k m) (s.tick.writeK k.toNat w) ∧ ∀ j, j < 64 → (w.getLsbD j = true ↔ here)) ∧
    (t.pending = true → t.written = false → t.dest < 0x68 → (s.group g).w ≤ 64 →
      ∃ v, exec (.sfiResult g b z.toNat) s = .next v ∧ v.cur = s.cur ∧
        Tab.find? (v.bundle g b).toks z.toNat = some { t with written := true } ∧
        (∀ j, j < (s.group g).w → ({ v with cur := u.cur }.readWord t.dest 0).lane j =
          if t.exec.getLsbD j then specialWord t.fn (t.opnd.lane j) else (u.readWord t.dest 0).lane j) ∧
        (∀ r, r ≠ t.dest → Tab.find? (v.bundle g b).v r = Tab.find? y.v r)) ∧
    (∀ e ∈ edges, ∀ i, i < 4 →
      specialWord e.1 (wordAt [0xFF800000, 0x80000000, 0, 0x7F800000] i) = wordAt e.2.1 i ∧
      ∀ j, j < 4 → specialWord (16 + e.1) (wordAt [0xFC00, 0x8000, 0, 0x7C00] i + 65536 * wordAt [0xFC00, 0x8000, 0, 0x7C00] j) =
        wordAt e.2.2 i + 65536 * wordAt e.2.2 j) ∧
    (∀ (w : Word) (n : Nat), n < 14 → (f32Of w).isNan = true → specialWord n w = 0x7FC00000) ∧
    (∀ (w : Word) (n : Nat), n ∈ [1, 2, 4, 11] → Rules.finite F32 w.toNat = true → valueOf (f32Of w) < 0 → specialWord n w = 0x7FC00000) ∧
    (∀ (w : Word) (i : Int), Rules.finite F32 w.toNat = true →
      (valueOf (f32Of w) = i → i ≠ 0 → specialWord 5 w = (if 0 < i then 0 else 0x80000000) ∧
        specialWord 6 w = if i % 2 = 0 then 0x3F800000 else 0xBF800000) ∧
      (valueOf (f32Of w) = i + 1 / 2 → specialWord 6 w = 0 ∧ specialWord 5 w = if i % 2 = 0 then 0x3F800000 else 0xBF800000) ∧
      (valueOf (f32Of w) = i → -126 ≤ i → i ≤ 127 → specialWord 3 w = BitVec.ofInt 32 ((i + 127) * 2 ^ 23)) ∧
      (-126 ≤ i → i ≤ 127 → valueOf (f32Of w) = (2 : ℚ) ^ i → f32Of (specialWord 4 w) = F32.decode (F32.encode .rne (.fin (decide (i < 0)) i.natAbs 0)) ∧
        specialWord 0 w = BitVec.ofNat 32 (F32.encode .rne (.fin false 1 (-i)))) ∧
      (valueOf (f32Of w) = 1 → specialWord 4 w = 0 ∧ specialWord 11 w = 0))

/-! ## Queues, walks and stream contexts -/

/-- R258, R261, R262, R263: AGDIM and AGBASE set the bundle's pattern; AGLD and AGST start a walk with a copy of it, a fifth one stalls;
TIDSET reads its descriptor at home, after the writes of the STE path, writes a valid one into the table, and traps on the first word of one that is not; QSTAT tells what its queue holds. -/
def Obligations.QueuesAndPatterns : Prop :=
  ∀ (s : State) (a c v l d q : BitVec 7) (j z : BitVec 2) (n : BitVec 4) (tid : BitVec 8) (y : Xlat) (k : Nat),
    let b := s.bun
    let va := pairLane (s.readN a 2) 0
    let cnt := ((s.read l).lane 0).toNat
    let walk : Bool → Walk := fun store =>
      { pat := b.pat, store := store, n := 2 ^ z.toNat, q := q.toNat - 0x70, ls := (s.read v).lane 0, point := 0,
        acc := s.cur.acc, clause := s.str.clause.id, handler := s.str.handler }
    let u := (s.tick.touch s.cluster y 1).wbPath s.grp.core 2
    let desc := u.homeWords y.key 16
    let x := b.queue n.toNat
    let o := b.stream (!s.cur.acc)
    completes s (.agdim c v j) (s.tick.setBun { b with pat := { b.pat with
      cs := b.pat.cs.set j.toNat (((s.read c).lane 0).toNat, (s.read v).lane 0) } }) ∧
    completes s (.agbase l a) (s.tick.setBun { b with pat := { b.pat with
      base := va, l := if cnt = 0 then s.grp.w else min cnt s.grp.w } }) ∧
    (s.str.clause.id ≠ 0 → b.walks.length < 4 →
      completes s (.agld q v z) (s.tick.setBun { b with walks := b.walks ++ [walk false] }) ∧
      completes s (.agst q v z) (s.tick.setBun { b with walks := b.walks ++ [walk true] })) ∧
    (s.str.clause.id ≠ 0 → 4 ≤ b.walks.length → waits s (.agld q v z) .room s.tick ∧ waits s (.agst q v z) .room s.tick) ∧
    (s.memAcc s.party va 64 1 [0] = .ok (.mem y) → u.poisonedIn y.key 64 = false →
      (tensorBad desc = none → completes s (.tidset a tid) { u.backInv y.key 64 with graph := s.graph.map fun g => { g with
        tids := Tab.put g.tids tid.toNat desc } }) ∧
      (tensorBad desc = some k →
        traps s (.tidset a tid) { cause := 0x06, info := BitVec.ofNat 32 (k * 4096), addr := va })) ∧
    ∃ w : Word, completes s (.qstat d n) (s.tick.writeAll d.toNat 0 w) ∧
      (x.ents.length + x.heldX.length + x.heldA.length ≤ 4 →
        w.toNat % 8 = (x.ents.filter fun e => e.pop.isNone).length ∧ w.toNat / 8 % 8 = x.heldX.length + x.heldA.length ∧
        w.toNat / 64 % 8 = (x.ents.filter fun e => e.pop.isSome).length ∧
        (w.getLsbD 9 = true ↔ ∃ y ∈ b.walks, y.q = n.toNat) ∧
        (w.getLsbD 10 = true ↔ o.present = true ∧ o.ended = true) ∧ w.toNat < 2 ^ 11)

/-- R254, R262: a walk visits its points with dimension 0 fastest; at each, in the order of walks on its queue, a load reads the words of
every lane and pushes them where they are visible at once, zero in lanes at and above its count, and a store takes the oldest visible entries and
writes their lanes; nothing else of its bundle changes. -/
def Obligations.WalkPoints : Prop :=
  (∀ (w : Walk) (c0 c1 c2 c3 i0 i1 i2 i3 i : Nat) (v0 v1 v2 v3 : Word), w.pat.cs = [(c0, v0), (c1, v1), (c2, v2), (c3, v3)] →
    i0 < c0 → i1 < c1 → i2 < c2 → i3 < c3 → w.point = i0 + c0 * (i1 + c1 * (i2 + c2 * i3)) →
    w.point < w.pat.points ∧ w.laneVa i = BitVec.ofInt 64 (w.pat.base.toNat + i0 * v0.toInt + i1 * v1.toInt + i2 * v2.toInt + i3 * v3.toInt + i * w.ls.toInt)) ∧
  ∀ (s : State) (g b k : Nat) (w : Walk) (ls : List (Nat × MLoc)),
    let u : State := { s.tick with cur := { gid := g, bid := b, acc := true } }
    let x := s.bundle g b
    let q := x.queue w.q
    let next := if w.point + 1 < w.pat.points then x.walks.set k { w with point := w.point + 1 } else x.walks.eraseIdx k
    x.walks[k]? = some w → w.parked = false → s.resident g = true → (∀ v ∈ x.walks.take k, v.q ≠ w.q) → w.point < w.pat.points →
    u.walkPlaces w = .ok ls →
    (w.store = false → w.n ≤ q.room → ∃ (v : State) (es : List QEnt), exec (.walkPoint g b k) s = .next v ∧ v.cur = s.cur ∧
      v.bundle g b = { x with walks := next, queues := Tab.put x.queues w.q { q with ents := q.ents ++ es } } ∧
      es.length = w.n ∧ (∀ e ∈ es, e.pop = none ∧ ∀ i, w.pat.l ≤ i → e.val.lane i = 0) ∧
      ((∀ l ∈ ls, plainPlace u 1 l.2) → ∀ l ∈ ls, l.1 < (s.group g).w → ∀ j e, es[j]? = some e →
        e.val.lane l.1 = BitVec.ofNat 32 (leNat ((List.range 4).map fun i => placeByte u l.2 (4 * j + i))))) ∧
    (w.store = true → w.n ≤ q.avail.length → q.popBad w.n = false → x.fwd = [] → ∃ (v : State) (es : List QEnt), exec (.walkPoint g b k) s = .next v ∧ v.cur = s.cur ∧
      v.bundle g b = { x with walks := next, queues := Tab.put x.queues w.q { q with ents := es } } ∧
      (es.filter fun e => e.pop.isNone).map (·.val) = q.avail.drop w.n ∧
      ((∀ l ∈ ls, plainPlace u 2 l.2) → (s.group g).cbuf = [] → Memory.wf (s.group g).scr = true →
        let t := { v with cur := u.cur }
        (∀ (m : Nat) (l : Nat × MLoc) (j : Nat), ls[m]? = some l → j < 4 * w.n →
          (∀ (p : Nat) (r : Nat × MLoc), m < p → ls[p]? = some r → covers (4 * w.n) j l.2 r.2 = false) →
          placeByte t l.2 j = BitVec.ofNat 8 (((q.avail.getD (j / 4) (.u 0)).lane l.1).toNat / 256 ^ (j % 4))) ∧
        (∀ p, (∀ l ∈ ls, hasScr (4 * w.n) p l.2 = false) → t.grp.scrByte p = u.grp.scrByte p) ∧
        (∀ p, (∀ l ∈ ls, hasMem (4 * w.n) p l.2 = false) → t.viewByte t.grp.core p = s.viewByte t.grp.core p) ∧ t.mem = s.mem))

/-- R256, R264, R265, R267, R268, R269, R270, R400: SOPEN and COPY open a closed context on a layout record that keeps its rules and set the arrival word,
SGO starts a held one, SSLOT moves slots within their bounds, SCLOSE closes a context or leaves the slots already handed over to end, and
no other; SORT, BIN and COLL start
on a closed one; each traps with QUEUE in any other state; SSTAT tells the state. The
count that BIN writes is the model's reading (log 22). -/
def Obligations.Contexts : Prop :=
  ∀ (s : State) (a c d : BitVec 7) (n : BitVec 4) (blk ten : List Word) (w : Nat),
    let gid := s.cur.gid
    let x := s.grp.ctx n.toNat
    let off := ((s.read a).lane 0).toNat
    let scr := s.grp.scrSize
    let set := fun (t : State) (y : Ctx) => t.setCtx gid n.toNat y
    let queue := fun (e : Nat) => ({ cause := 0x0F, info := BitVec.ofNat 32 (n.toNat * 16 + e * 512) } : Trap)
    let field : Trap := { cause := 0x06, info := BitVec.ofNat 32 (w * 4096), addr := BitVec.ofNat 64 off }
    let opened := s.tick.engWord gid (lArrival blk) (lAbase blk)
    let ctx : CtxKind → Nat → Ctx → Ctx := fun kind total rest =>
      { rest with kind := kind, block := off, total := total, bid := s.cur.bid, acc := s.cur.acc }
    let k := ((s.read c).lane 0).toNat
    let moved := completes s (.sslot c n) (set s.tick { x with released := x.released + k })
    (x.st ≠ .closed → ∀ i ∈ [Instr.sopen a n, .copy a n, .sort a n, .bin a n, .coll a n], traps s i (queue 2)) ∧
    (x.st = .closed → s.block off = .ok blk → s.tensor (lTid blk) = .ok ten →
      (layoutBad blk ten false scr = some w → traps s (.sopen a n) field) ∧
      (layoutBad blk ten false scr = none →
        completes s (.sopen a n) (set opened (ctx .stream (slotTotal blk ten false) { st := .held, blk := blk, desc := ten }))) ∧
      (layoutBad blk ten true scr = some w → traps s (.copy a n) field) ∧
      (layoutBad blk ten true scr = none →
        completes s (.copy a n) (set opened (ctx .copy (slotTotal blk ten true)
          { st := if slotTotal blk ten true = 0 then .done else .running, blk := blk, desc := ten,
            released := if lDrain blk then 1 else 0, clause := s.str.clause.id })))) ∧
    (x.st = .held → completes s (.sgo n) (set s.tick
      { x with st := if x.total = 0 then .done else .running, bid := s.cur.bid, acc := s.cur.acc })) ∧
    (x.st ≠ .held → traps s (.sgo n) (queue 2)) ∧
    (x.st ≠ .running → traps s (.sslot c n) (queue 2)) ∧
    (x.st = .running → x.kind = .stream →
      (if lDrain x.blk = true then
        (if 1 ≤ k ∧ k + x.released ≤ x.total ∧ x.released - x.done + k ≤ bits (wordAt x.blk 0) 19 12 then moved
         else traps s (.sslot c n) (queue 3))
       else if 1 ≤ k ∧ k + x.released ≤ x.done then moved else traps s (.sslot c n) (queue 3))) ∧
    (x.st ≠ .running → completes s (.sclose n) (set s.tick {})) ∧
    (x.st = .running → x.kind = .stream →
      let upTo := if x.closing = true then x.bound else x.released
      (if (if lDrain x.blk = true then x.done < upTo else x.begun = true) then
        completes s (.sclose n) (set s.tick { x with closing := true, bound := upTo, closers := (s.cur, s.str.clause.id) :: x.closers })
       else completes s (.sclose n) (set s.tick {}))) ∧
    (x.kind = .stream → x.closing = true →
      (lDrain x.blk = true → x.bound ≤ x.done → x.slotReady = false) ∧ (lDrain x.blk = false → x.begun = false → x.slotReady = false)) ∧
    (x.st = .closed → s.block off = .ok blk →
      ((sKeys blk).toNat % sKey blk = 0 → (sVals blk).toNat % 4 = 0 → (sTemp blk).toNat % sKey blk = 0 → sArrival blk % 4 = 0 →
        sortBad blk scr = false → completes s (.sort a n) (set s.tick (ctx .sort (sCount blk)
          { st := .running, blk := blk, clause := s.str.clause.id }))) ∧
      (let all := blk ++ s.grp.scrWords (bPatch blk) (4 * bNpatch blk)
       (bKeys blk).toNat % 4 = 0 → (bCounts blk).toNat % 4 = 0 → bPatch blk % 16 = 0 → bArrival blk % 4 = 0 → binBad blk scr = none →
        s.patchTrap all (bNbin blk) (bNpatch blk) 0 = none → completes s (.bin a n) (set s.tick (ctx .bin (bNbin blk)
          { st := .running, blk := all, clause := s.str.clause.id }))) ∧
      (∀ t, let e := s.collEntry (kGroup blk)
       (kSrc blk).toNat % 4 = 0 → (kDst blk).toNat % 4 = 0 → kArrival blk % 4 = 0 → collBad blk e scr = false →
        s.collCtx (kGroup blk) (kId blk) = none →
        s.tick.rangePages s.grp.engine 1 0 (srcBytes blk e + 1) (kSrc blk) (srcBytes blk e) = .ok () s.tick →
        s.tick.rangePages s.grp.engine (if kOp blk = 0 then 3 else 2) (if kOp blk = 0 then 3 else 0) (dstBytes blk e + 1) (kDst blk)
          (dstBytes blk e) = .ok () s.tick →
        t = set ((s.tick.releaseGroup gid 3).wbPath s.grp.core 5) (ctx .coll (kCount blk) { st := .running, blk := blk, clause := s.str.clause.id }) →
        completes s (.coll a n) (t.collStep gid n.toNat))) ∧
    ∃ y : Word, completes s (.sstat d n) (s.tick.writeAll d.toNat 0 y) ∧
      y.toNat / 2 ^ 29 = (match x.st with
        | .closed => 0
        | .held => 1
        | .running => 2
        | .done => 3
        | .error => 4) ∧
      y.toNat / 2 ^ 24 % 32 = (if x.st = .error then x.cause % 32 else 0) ∧
      (x.kind = .stream → y.toNat / 65536 % 256 = (if lDrain x.blk then x.released - x.done else x.done - x.released) % 256 ∧
        y.toNat % 65536 = x.done % 65536)

/-- R194, R195, R214, R264, R266, R269, R270, R399, R400: an engine path reads what it sees there, and sees what it writes. A slot filled holds
its tile's elements, zero outside the tensor, then its arrival word counts it; a slot drained moves its elements out and counts likewise.
A pass of a SORT reads its pairs, orders them by the pass's digit and writes them; all passes leave the pairs in ascending order of key,
equal keys as they stood. BIN counts the keys of every bin. A transfer is discarded where its tag has come before, else kept for the COLL
it belongs to, which waits for more, ends with PROT where it is unexpected, or, once all members of a BARRIER have come to the tree's
root, completes; cells merge as their additions do. What a kept transfer holds is the model's choice (log 24), and so is what a path keeps (log 54). -/
def Obligations.ContextWork : Prop :=
  (∀ (s : State) (g : Nat) (path : Path) (va : DWord) (n : Nat) (bs : List Byte) (x : Xlat),
    let core := (s.group g).core
    (0 < n → engPlain s g path 1 va n x → ∃ t, s.engRead g path va n = .ok ((List.range n).map fun i => s.pathByte core path (x.key + i)) t ∧
      t.mem = s.mem ∧ t.groups = s.groups ∧ ∀ k, t.pathByte core path k = s.pathByte core path k) ∧
    (bs ≠ [] → engPlain s g path 2 va bs.length x → (s.group g).cbuf = [] → s.targetUp x.key = true → Memory.wf s.mem = true →
      ∃ t, s.engWrite g path va bs = .ok () t ∧ (t.group g).scr = (s.group g).scr ∧
        (∀ i, i < bs.length → t.pathByte core path (x.key + i) = bs.getD i 0) ∧
        ∀ k, (k < x.key ∨ x.key + bs.length ≤ k) → t.pathByte core path k = s.pathByte core path k)) ∧
  (∀ (s u : State) (g n : Nat),
    let x := (s.group g).ctx n
    let b := x.blk
    let d := x.desc
    let slots := if x.kind = .copy then 1 else bits (wordAt b 0) 19 12
    let pos := (wordAt b 1).toNat + x.done % slots * (wordAt b 2).toNat
    let m := tileElems b d
    let len := if tPack d then 3 * ((m + 3) / 4) else m * elemSize (tFmt d)
    let word := fun (v : State) k => BitVec.ofNat 32 (leNat ((List.range 4).map fun j => (v.group g).scrByte (k + j)))
    let arr := (wordAt b 4).toNat
    let field := fun (bytes n sh : Nat) => bytes / 2 ^ sh % if tPack d then 64 else 256 ^ n
    let ix := tileIndex b d x.done
    s.resident g = true → x.slotReady = true →
    (lDrain b = false → tSpace d = false → x.curA = 0 → Memory.wf (s.group g).scr = true → pos + len ≤ (s.group g).scrSize →
      (arr + 4 ≤ pos ∨ pos + len ≤ arr) →
      (∀ j, j < m → tInside d (ix j) = true → ∃ y, engPlain s g 2 1 (elemPlace d (ix j)).1 (elemPlace d (ix j)).2.1 y) →
      ∃ v, exec (.slotFill g n) s = .next v ∧ (v.group g).ctx n = x.slotDone ∧ v.mem = s.mem ∧
        word v arr = wordAt b 5 + BitVec.ofNat 32 (x.done + 1) ∧
        (∀ k, (k < pos ∨ pos + len ≤ k) → (k < arr ∨ arr + 4 ≤ k) → (v.group g).scrByte k = (s.group g).scrByte k) ∧
        ∀ j, j < m →
          let here := slotPlace d pos j
          let e := elemPlace d (ix j)
          let val := field (leNat ((List.range here.2.1).map fun i => (v.group g).scrByte (here.1 + i))) here.2.1 here.2.2
          (tInside d (ix j) = false → val = 0) ∧
          ∀ y, tInside d (ix j) = true → engPlain s g 2 1 e.1 e.2.1 y → val = field (engNat s g 2 y.key e.2.1) e.2.1 e.2.2) ∧
    (lDrain b = false → s.tick.moveElems (fillElem g x pos) g n x (m - x.curA) x.curA = .ok u →
      exec (.slotFill g n) s = .next ((u.engWord g arr (wordAt b 5 + BitVec.ofNat 32 (x.done + 1))).setCtx g n x.slotDone)) ∧
    (lDrain b = true → s.tick.moveElems (drainElem1 g x pos) g n x (m - x.curA) x.curA = .ok u →
      exec (.slotDrain g n) s = .next (((u.wbPath (s.group g).core 2).engWord g arr
        (wordAt b 5 + BitVec.ofNat 32 (x.done + 1))).setCtx g n x.slotDone)) ∧
    (∀ (p : State) (j : Nat) (y : Xlat), (p.group g).cbuf = [] → Tab.get [] (p.group g).engOld 2 = [] → Memory.wf p.mem = true →
      let here := slotPlace d pos j
      let e := elemPlace d (ix j)
      tPack d = false → tSpace d = false → here.1 + here.2.1 ≤ (p.group g).scrSize →
      (tInside d (ix j) = false → drainElem1 g x pos p j = .ok () p) ∧
      (tInside d (ix j) = true → engPlain p g 2 2 e.1 e.2.1 y → p.targetUp y.key = true →
        ∃ t, drainElem1 g x pos p j = .ok () t ∧ (t.group g).scr = (p.group g).scr ∧
          (∀ i, i < e.2.1 → t.pathByte (p.group g).core 2 (y.key + i) = (p.group g).scrByte (here.1 + i)) ∧
          ∀ k, (k < y.key ∨ y.key + e.2.1 ≤ k) → t.pathByte (p.group g).core 2 k = p.pathByte (p.group g).core 2 k))) ∧
  (∀ x : Ctx, x.slotDone =
    let y := { x with done := x.done + 1, curA := 0, begun := false }
    if x.total ≤ x.done + 1 then (if x.kind = .copy ∨ x.closing = true then {} else { y with st := .done })
    else if x.closing = true ∧ y.unfinished = false then {} else y) ∧
  (∀ (k : Nat) (l : List (Nat × Nat)), (∀ e ∈ l, e.1 < 256 ^ k) →
    let r := (List.range k).foldl byDigit l
    r.Perm l ∧ r.Pairwise (fun e f => e.1 ≤ f.1) ∧ ∀ key, (r.filter fun e => e.1 = key) = l.filter fun e => e.1 = key) ∧
  (∀ (s : State) (g n : Nat),
    let x := (s.group g).ctx n
    let b := x.blk
    let size := sCount b
    let src := sortSide b (decide (x.done % 2 = 1))
    s.resident g = true → x.st = .running → x.kind = .sort → x.parked = false → x.curA = 0 → x.work = [] →
    ∀ ks vs : Nat → Xlat, (∀ i, i < size → engPlain s g 2 1 (elemAt src.1 i (sKey b)) (sKey b) (ks i) ∧
      engPlain s g 2 1 (elemAt src.2 i 4) 4 (vs i)) →
    let l := (List.range size).map fun i => (engNat s g 2 (ks i).key (sKey b), engNat s g 2 (vs i).key 4)
    ∃ (u : State) (y : Ctx), s.tick.sortReads g n x size = .ok (u, y) ∧ y.elems = l ∧ u.mem = s.mem ∧
      ∀ (w : State) (z : Ctx), u.sortWrites g n (byDigit l x.done) y size = .ok (w, z) →
        ∃ v, exec (.sortPass g n) s = .next v ∧
          (x.done + 1 < sKey b → v.mem = w.mem ∧ (v.group g).ctx n = { x with done := x.done + 1 }) ∧
          (sKey b ≤ x.done + 1 → v.mem = (w.wbPath (s.group g).core 2).mem ∧ (v.group g).ctx n = {} ∧
            (Memory.wf (w.group g).scr = true → (v.group g).scrWord (wordAt b 8).toNat = wordAt b 9))) ∧
  (∀ (p : State) (g n m : Nat) (l : List (Nat × Nat)) (x : Ctx),
    let i := x.curA - sCount x.blk
    let dst := sortSide x.blk (decide (x.done % 2 = 0))
    ∀ t u : State, p.engWrite g 2 (elemAt dst.1 i (sKey x.blk)) (leBytes (sKey x.blk) (l.getD i (0, 0)).1) = .ok () t →
      t.engWrite g 2 (elemAt dst.2 i 4) (leBytes 4 (l.getD i (0, 0)).2) = .ok () u →
      p.sortWrites g n l x (m + 1) = u.sortWrites g n l { x with curA := x.curA + 1 } m) ∧
  (∀ (s : State) (g n : Nat),
    let x := (s.group g).ctx n
    let b := x.blk
    s.resident g = true → x.st = .running → x.kind = .bin → x.parked = false → x.work = [] → x.done = 0 → x.curA = 0 → x.curB = 0 →
    x.skip = 0 → bNpatch b = 0 → bNbin b ≤ 4096 →
    ∀ ks : Nat → Xlat, (∀ i, i < bCount b → engPlain s g 2 1 (elemAt (bKeys b) i 4) 4 (ks i)) →
    let keys := (List.range (bCount b)).map fun i => engNat s g 2 (ks i).key 4
    ∃ (u : State) (y : Ctx), s.tick.binKeys g n { x with work := List.replicate (bNbin b + 1) 0 } (bCount b) = .ok (u, y) ∧ u.mem = s.mem ∧
      (∀ k, k < bNbin b → y.work.getD k 0 = keys.countP (· = k)) ∧ y.work.getD (bNbin b) 0 = keys.countP (bNbin b ≤ ·) ∧
      ∀ (w : State) (z : Ctx), u.binCounts g n { y with done := 1, curA := 0 } (bNbin b) = .ok (w, z) →
        ∃ v, exec (.binCompletion g n) s = .next v ∧ v.mem = (w.wbPath (s.group g).core 2).mem ∧ (v.group g).ctx n = {} ∧
          (Memory.wf (w.group g).scr = true → (v.group g).scrWord (wordAt b 7).toNat = wordAt b 8)) ∧
  (∀ (p t : State) (g n m : Nat) (x : Ctx),
    p.engWrite g 2 (elemAt (bCounts x.blk) x.curA 4) (leBytes 4 (x.work.getD x.curA 0)) = .ok () t →
    p.binCounts g n x (m + 1) = t.binCounts g n { x with curA := x.curA + 1 } m) ∧
  (∀ (s : State) (p : Nat) (t : CollXfer),
    let q := Tab.get {} s.dev.ports p
    let run := exec (.collTransfer p t) s
    let u := { s.tick with dev := { s.dev with ports := Tab.put s.dev.ports p { q with tags := t.tag :: q.tags },
                                               collIn := s.dev.collIn ++ [(p, t)] } }
    (s.accepts = false ∨ q.up = false ∨ t.tag ∈ q.tags → run = .next s.tick) ∧
    (s.accepts = true → q.up = true → t.tag ∉ q.tags →
      (s.collCtx t.group t.collid = none → run = .next u) ∧
      ∀ g n, s.collCtx t.group t.collid = some (g, n) →
        let x := (s.group g).ctx n
        let e := u.collEntry (kGroup x.blk)
        let ts := u.collHeld x.blk
        let waiting := s.resident g = true ∧ x.st = .running ∧ x.kind = .coll ∧ x.parked = false ∧ x.curA = 1 ∧ cgUp e = 15 ∧
          u.collOdd x = false ∧ ∀ y ∈ ts, y.1 ≠ sentPort
        (s.resident g = false → run = .next u) ∧
        (s.resident g = true → u.collOdd x = true → ∃ v, run = .next v ∧ (v.group g).ctx n = (if x.closing then {} else
            { x with st := .error, cause := 0x06, clause := 0, parked := false }) ∧
          ∀ y ∈ v.dev.collIn, xferIs y.2 (kGroup x.blk) (kId x.blk) = false) ∧
        (waiting → heldMembers ts 15 ≠ cgSub e → run = .next u) ∧
        (waiting → heldMembers ts 15 = cgSub e → kOp x.blk = 3 → ∃ v, run = .next v ∧ (v.group g).ctx n = {} ∧
          (Memory.wf (s.group g).scr = true → (v.group g).scrWord (wordAt x.blk 8).toNat = wordAt x.blk 9) ∧
          (∀ y ∈ v.dev.collIn, xferIs y.2 (kGroup x.blk) (kId x.blk) = false) ∧
          ∀ d ∈ downPorts e, (Tab.get {} u.dev.ports d).up = true →
            ∃ r, (d, r) ∈ v.dev.collOut ∧ r.group = kGroup x.blk ∧ r.collid = kId x.blk ∧ r.members = cgMembers e))) ∧
  ∀ xs ys : List Word, exactMerge (xs.foldl exactAdd 0) (ys.foldl exactAdd 0) = (xs ++ ys).foldl exactAdd 0

/-! ## Traversal and layered targets -/

/-- R303, R304, R305, R307, R311, R312, R313, R314, R315, R316: CAMSET and BVHSET bind a block whose fields keep their rules and trap on the first that does
not; CAMGEN gives every lane's ray, each step rounded; TRACE begins one traversal a lane, and its results are written once the lanes
have ended; children are entered in ascending order, and a hit is replaced only by a nearer one, or an equal one of lower order. A box is
entered by the slab test, an instance by the transformed ray, and a triangle whose values are finite is hit where its edge functions, zeros
resolved by ownership, have one sign. -/
def Obligations.Traversal : Prop :=
  ∀ (s : State) (d a : BitVec 7) (m n : BitVec 2) (y : Xlat) (e : Nat),
    let va := pairLane (s.readN a 2) 0
    let field : Trap := { cause := 0x06, info := BitVec.ofNat 32 (e * 4096), addr := va }
    let x := s.readN a 8
    let uni := x.all Val.isU && s.fullExec
    let b := s.bun
    let u := (s.tick.touch s.cluster y 1).wbPath s.grp.core 4
    let seen := fun k => u.homeWords y.key k
    (s.memAcc s.party va 128 1 [0] = .ok (.mem y) → u.poisonedIn y.key 128 = false →
      (cameraBad (seen 32) = some e → traps s (.camset a) field) ∧
      (cameraBad (seen 32) = none →
        completes s (.camset a) ((u.backInv y.key 128).setGrp { s.grp with camera := some (va, seen 32) }))) ∧
    (s.memAcc s.party va 64 1 [0] = .ok (.mem y) → u.poisonedIn y.key 64 = false →
      (bvhBad (seen 16) = some e → traps s (.bvhset a n) field) ∧
      (bvhBad (seen 16) = none →
        completes s (.bvhset a n) (((u.backInv y.key 64).setGrp
          { s.grp with bvhs := Tab.put s.grp.bvhs n.toNat (va, seen 16) }).dropPath s.grp.core 4))) ∧
    (s.grp.camera = none → traps s (.camgen d a) { cause := 0x06 }) ∧
    (∀ cva blk, s.grp.camera = some (cva, blk) →
      ∃ vs : List Val, vs.length = 8 ∧ completes s (.camgen d a) (s.tick.writeN d vs) ∧ ∀ j, j < s.lanes → ∀ k, k < 8 →
        (vs.getD k (.u 0)).lane j = rayWord (wordAt blk) ((s.readWord a.toNat 0).lane j) ((s.readWord a.toNat 1).lane j)
          ((s.readWord a.toNat 2).lane j) ((s.readWord a.toNat 3).lane j) k) ∧
    (Tab.find? s.grp.bvhs n.toNat = none → traps s (.trace d a m n) { cause := 0x06 }) ∧
    (∀ bva blk, Tab.find? s.grp.bvhs n.toNat = some (bva, blk) →
      (s.exec0 = 0 → completes s (.trace d a m n) s.tick) ∧
      (s.exec0 ≠ 0 → (uni = true ∨ (∀ k, k < 6 → s.inPlace (d.toNat + k) = true) ∧
          b.residents.length + (b.coming s.grp.w).length + 6 ≤ s.budget s.grp) →
        ∃ t : Trace, completes s (.trace d a m n) (s.tick.setBun { b with traces := b.traces ++ [t] }) ∧
          t.slot = n.toNat ∧ t.desc = blk ∧ t.mode = m.toNat ∧ t.d = d.toNat ∧ t.uni = uni ∧ t.exec = s.exec0 ∧
          t.clause = s.str.clause.id ∧
          t.lanes.map (fun l => (l.lane, l.ray)) = (if uni then [0] else s.activeLanes).map fun j => (j, x.map fun v => v.lane j)) ∧
          (∀ l : TLane, l.hit = none → l.ovf = false → l.bad = false → l.fault = none →
            l.words = [0x7F800000#32, 0, 0, 0xFFFFFFFF#32, 0xFFFFFFFF#32, 0])) ∧
    (∀ (g b k : Nat) (t : Trace), (s.bundle g b).traces[k]? = some t → t.parked = false → t.uni = false → t.d + 6 ≤ 0x60 →
      (s.group g).w ≤ 64 → (∀ l ∈ t.lanes, l.stack = [] ∧ l.fault = none) →
      (∀ j, j < 6 → ∃ x, (s.bundle g b).vreg (t.d + j) = .val x) →
      let u := { s with cur := { gid := g, bid := b } }
      ∃ v, exec (.traceCompletion g b k) s = .next v ∧ v.cur = s.cur ∧ (v.bundle g b).traces = (s.bundle g b).traces.eraseIdx k ∧
        ∀ i j, i < (s.group g).w → j < 6 → (∀ l, t.lanes.find? (fun l => l.lane = i) = some l →
          (({ v with cur := u.cur } : State).readV (t.d + j)).lane i =
            if t.exec.getLsbD i then wordAt l.words j else (u.readV (t.d + j)).lane i)) ∧
    (∀ es : List TEnt, let r := es.foldl (fun t x => insertEnt x t) []
      r.Perm es ∧ r.Pairwise (fun p q => orderKey p.te ≤ orderKey q.te) ∧
      ∀ k, (r.filter fun p => orderKey p.te = k) = es.filter fun p => orderKey p.te = k) ∧
    (∀ (l : TLane) (f : TFrame) (tri : List Byte) (p q : THit), l.hit = some p → (l.meet m.toNat f tri).hit = some q → q ≠ p →
      m ≠ 1#2 ∧ ((f32Of q.t).lt (f32Of p.t) = true ∨ (f32Of q.t).eq (f32Of p.t) = true ∧
        (q.inst < p.inst ∨ q.inst = p.inst ∧ q.prim.toNat < p.prim.toNat))) ∧
    (∀ (l : TLane) (f : TFrame) (node : List Byte) (i : Nat),
      let bound := fun (c : Rnd) (k o : Nat) => BitVec.ofNat 32 (F32.encode c ((f32Of (leWordAt node (4 * k))).add
        (.fin false (node.getD (16 + 6 * i + o + k) 0).toNat (node.getD (12 + k) 0).toInt)))
      let side := fun k => slab (wordAt f.o k) (wordAt f.d k) (bound .rdn k 0) (bound .rup k 3)
      let tin := fmax32 (fmax32 (fmax32 (side 0).1 (side 1).1) (side 2).1) (wordAt l.ray 3)
      let tout := fmin32 (fmin32 (fmin32 (side 0).2 (side 1).2) (side 2).2) (match l.hit with
        | some h => h.t
        | none => wordAt l.ray 7)
      let lim := F32.encode .rup ((f32Of tout).add ((f32Of (tout &&& 0x7FFFFFFF#32)).mul (.fin false 1 (-20))))
      boxEnter l f node i = if (f32Of tin).le (F32.decode lim) then some tin else none) ∧
    (∀ (ray : List Word) (ix : Nat) (blk : List Byte),
      let at_ := fun r c => leWordAt blk (16 * r + 4 * c)
      let turn := fun r (v : Nat → Word) => add1 (add1 (mul1 (at_ r 0) (v 0)) (mul1 (at_ r 1) (v 1))) (mul1 (at_ r 2) (v 2))
      let o := fun r => add1 (turn r fun k => wordAt ray k) (at_ r 3)
      let d := fun r => turn r fun k => wordAt ray (4 + k)
      (instFrame ray ix blk = none ↔ (∀ r, r < 3 → d r &&& 0x7FFFFFFF#32 = 0) ∨ ∃ r, r < 3 ∧ Rules.finite F32 (d r).toNat = false) ∧
      ∀ f, instFrame ray ix blk = some f → f.top = false ∧ f.inst = ix ∧ f.o = [o 0, o 1, o 2] ∧ f.d = [d 0, d 1, d 2]) ∧
    (∀ d : List Word,
      let (kx, ky, kz, sx, sy, sz) := shear d
      let size := fun k => (wordAt d k &&& 0x7FFFFFFF#32).toNat
      kz < 3 ∧ (∀ k, k < 3 → size k ≤ size kz ∧ (size k = size kz → k ≤ kz)) ∧
        (if (f32Of (wordAt d kz)).lt (.fin false 0 0) = true then ky = (kz + 1) % 3 ∧ kx = (kz + 2) % 3
         else kx = (kz + 1) % 3 ∧ ky = (kz + 2) % 3) ∧
        sx = fdiv32 (wordAt d kx) (wordAt d kz) ∧ sy = fdiv32 (wordAt d ky) (wordAt d kz) ∧ sz = fdiv32 0x3F800000#32 (wordAt d kz)) ∧
    (∀ (f : TFrame) (tri : List Byte),
      let p := sheared f tri
      let fn := fun wide => [edgeOf wide (p 2) (p 1), edgeOf wide (p 0) (p 2), edgeOf wide (p 1) (p 0)]
      let fine := fun x : Machine.Num => ∃ neg m e, x = .fin neg m e
      let wide := (fn false).any fun x => decide (valueOf x = 0)
      let val := fun k => (fn wide).getD k (.fin false 0 0)
      let total := valueOf (val 0) + valueOf (val 1) + valueOf (val 2)
      let up := fun k => edgeUp total (valueOf (val k)) (p ((k + 1) % 3)) (p ((k + 2) % 3))
      let r := fun k => rd (val k)
      let t := add1 (add1 (mul1 (r 0) (p 0).2.2) (mul1 (r 1) (p 1).2.2)) (mul1 (r 2) (p 2).2.2)
      let d := add1 (add1 (r 0) (r 1)) (r 2)
      let size := fun x : Word => x &&& 0x7FFFFFFF#32
      (∀ j, j < 3 → fine (f32Of (p j).1) ∧ fine (f32Of (p j).2.1)) → (∀ x ∈ fn false, fine x) →
      ((total ≠ 0 ∧ ∀ k, k < 3 → (up k ↔ 0 < total)) →
        triTest f tri = some (fdiv32 t d, fdiv32 (size (r 1)) (size d), fdiv32 (size (r 2)) (size d), d)) ∧
      (¬ (total ≠ 0 ∧ ∀ k, k < 3 → (up k ↔ 0 < total)) → triTest f tri = none))

/-- R303, R318, R320, R321, R322, R323, R324, R325: MLTSET binds a valid target; the list operations trap where none is bound, do nothing with
EXEC empty, and else run behind those of their bundle. A list stays ordered by depth and payload, −0 below +0. FRAGINS links its fragment in
before the first entry that comes after it, and writes in a full list the entries with the closest pair merged, the lowest of equally
close ones: the front entry's depth, both payloads merged, the counts added, in the front entry's node, or the back one's where the front
entry is the new fragment; the node freed is the new fragment's. LPOP gives the front entry and unlinks it; LRESOLVE blends the whole list, and empties it
as LCLEAR does; a merge rounds each channel once, or takes the front payload, or the larger channel as FMAX does. -/
def Obligations.ListOperations : Prop :=
  ∀ (s : State) (d a : BitVec 7) (n : BitVec 2) (y : Xlat) (e : Nat),
    let va := pairLane (s.readN a 2) 0
    let ops := [Instr.fragins a n, .lpop d a n, .lresolve d a n, .lclear a n]
    let lanes := fun k => s.activeLanes.map fun i => (i, (s.readN a k).map fun v => v.lane i)
    let back := (s.tick.touch s.cluster y 1).wbPath s.grp.core 4
    let blk := back.homeWords y.key 16
    (s.memAcc s.party va 64 1 [2] = .ok (.mem y) → back.poisonedIn y.key 64 = false →
      (layerBad blk = some e → traps s (.mltset a n) { cause := 0x06, info := BitVec.ofNat 32 (e * 4096), addr := va }) ∧
      (layerBad blk = none →
        ∃ t, completes s (.mltset a n) t ∧ t.grp = { s.grp with layers := Tab.put s.grp.layers n.toNat (va, blk) })) ∧
    (Tab.find? s.grp.layers n.toNat = none → ∀ i ∈ ops, traps s i { cause := 0x06 }) ∧
    (∀ tva desc k, Tab.find? s.grp.layers n.toNat = some (tva, desc) →
      (s.exec0 = 0 → ∀ i ∈ ops, completes s i s.tick) ∧
      (let op : Nat → Nat → Nat → List Nat → ListOp := fun kind w dd res =>
        { kind := kind, slot := n.toNat, va := tva, desc := desc, lanes := lanes w, outs := [], d := dd, res := res,
          handler := s.str.handler, clause := s.str.clause.id }
       let run := fun (u : State) (p : ListOp) => (u.setBun { u.bun with lists := u.bun.lists ++ [p] }).listStep (s.bun.lists.length + 1)
       let slots := fun k => (∀ j, j < k → s.inPlace (d.toNat + j) = true) ∧ d.toNat + k ≤ 0x60 ∧
         s.bun.residents.length + (s.bun.coming s.grp.w).length + k ≤ s.budget s.grp
       s.exec0 ≠ 0 → (s.bun.lists = [] ∨ ∃ p, s.bun.lists.head? = some p ∧ p.parked = true) →
        (s.listPlaces 3 tva desc (lanes 1) = (.ok k, []) → completes s (.lclear a n) (run s.tick (op 3 1 0 []))) ∧
        (s.listPlaces 1 tva desc (lanes 1) = (.ok k, []) → slots 4 → completes s (.lpop d a n) (run s.tick (op 1 1 d.toNat []))) ∧
        (s.listPlaces 2 tva desc (lanes 1) = (.ok k, []) → slots 2 →
          completes s (.lresolve d a n) (run s.tick (op 2 1 d.toNat []))) ∧
        (∀ res u, s.listPlaces 0 tva desc (lanes 4) = (.ok k, []) →
          s.tick.reserveNodes { p := s.party, va := tva, desc := desc, dkey := k } (lanes 4).length n.toNat [] = .ok (res, u) →
          completes s (.fragins a n) (run u (op 0 4 0 res))))) ∧
    (∀ es : List LEnt, (sortEnts es).Perm es ∧ (sortEnts es).Pairwise (fun p q => q.before p = false)) ∧
    (∀ p q : LEnt, (f32Of p.depth).isNan = false → (f32Of q.depth).isNan = false →
      (p.before q = true ↔ below (f32Of p.depth) (f32Of q.depth) ∨
        ¬ below (f32Of q.depth) (f32Of p.depth) ∧ p.pay.toNat < q.pay.toNat)) ∧
    (∀ (rule : Nat) (l : List LEnt), 2 ≤ l.length → l.Pairwise (fun p q => q.before p = false) → (∀ p ∈ l, p.w.length = 4) →
      let at_ := fun k => l.getD k { node := none, w := [] }
      let gap := fun k => let d := f32Of (rd ((f32Of (at_ (k + 1)).depth).add (f32Of (at_ k).depth).negate))
        if d.isNan then Machine.Num.inf false else d
      let news := (l.filter fun p => p.node.isNone).length
      ∃ j, j + 1 < l.length ∧ (∀ k, k + 1 < l.length → (gap k).lt (gap j) = false ∧ (k < j → (gap j).lt (gap k) = true)) ∧
        (let r := mergeClosest rule l
         let m := r.getD j { node := none, w := [] }
         let f := at_ j
         let b := at_ (j + 1)
         r.length + 1 = l.length ∧ m.depth = f.depth ∧ m.pay = mergePay rule f.pay b.pay ∧
           m.mcount = min 15 (f.mcount + b.mcount + 1) ∧ (news ≤ 1 → m.node = if f.node.isSome then f.node else b.node) ∧
           ∀ k, k + 1 < l.length → k ≠ j →
             let old := at_ (if k < j then k else k + 1)
             r[k]? = some { old with node := if old.node.isSome then old.node else if f.node.isSome then b.node else none })) ∧
    (∀ (t : Target) (h j : Nat) (z : Word) (pay : DWord) (u : State) (o : List Word),
      h % 4 = 0 → Memory.wf s.mem = true → s.targetUp h = true →
      let w := s.homeWord h
      let len := fun (w : Word) => w.toNat / 2 ^ 24 % 16
      let merged := fun (w : Word) => w.toNat / 2 ^ 28 % 2
      let first := fun (w : Word) => w.toNat % 2 ^ 24
      let new : LEnt := { node := none, w := [z, pay.setWidth 32, BitVec.ofNat 32 (pay.toNat / 2 ^ 32), 0x00FFFFFF#32] }
      let named := fun (l : List LEnt) => (l.head?.bind fun e => e.node).getD 0xFFFFFF
      (∀ es v, s.listWalk t (fun e => new.before e) (len w) (first w) = .ok es v → len w < lMax t.desc →
        s.listInsert t h z pay [j] = .ok [] u →
        let pre := es.filter fun e => !new.before e
        ∃ x, v.writeNode t j (withNext new.w (named (es.filter fun e => new.before e))) = .ok () x ∧
          (pre = [] → first (u.homeWord h) = j % 2 ^ 24) ∧
          (∀ e, pre.getLast? = some e → first (u.homeWord h) = first w ∧
            ∃ y, x.writeNode t (e.node.getD 0) (withNext e.w j) = .ok () y)) ∧
      (∀ es v, s.listWalk t (fun _ => false) (len w) (first w) = .ok es v →
        (lMax t.desc ≤ len w → s.listInsert t h z pay [j] = .ok [j] u →
          let l := mergeClosest (lRule t.desc) (sortEnts (es ++ [new]))
          (∃ x, v.writeChain t es l = .ok () x) ∧ first (u.homeWord h) = named l % 2 ^ 24) ∧
        (s.listResolve t h = .ok o u → pair64 (wordAt o 0) (wordAt o 1) = match es with
          | [] => 0
          | e :: r => r.foldl (fun a x => mergePay (lRule t.desc) a x.pay) e.pay)) ∧
      (∀ n v, 0 < len w → s.readNode t (first w) = .ok n v → s.listPop t h = .ok o u →
        o = [wordAt n 0, wordAt n 1, wordAt n 2, BitVec.ofNat 32 ((wordAt n 3).toNat / 2 ^ 24 + (len w - 1) * 2 ^ 8), 1] ∧
        first (u.homeWord h) = (wordAt n 3).toNat % 2 ^ 24) ∧
      (s.listInsert t h z pay [j] = .ok [] u → len w < lMax t.desc → len (u.homeWord h) = len w + 1 ∧ merged (u.homeWord h) = merged w) ∧
      (s.listInsert t h z pay [j] = .ok [j] u → lMax t.desc ≤ len w → len (u.homeWord h) = len w ∧ merged (u.homeWord h) = 1) ∧
      (len w = 0 → s.listPop t h = .ok [0x7F800000#32, 0, 0, 0, 0] s) ∧
      (0 < len w → s.listPop t h = .ok o u → len (u.homeWord h) = len w - 1 ∧ wordAt o 4 = 1 ∧
        (wordAt o 3).toNat / 2 ^ 8 % 2 ^ 24 = len w - 1 ∧ (len w = 1 → merged (u.homeWord h) = 0)) ∧
      (s.listResolve t h = .ok o u → u.homeWord h = 0x00FFFFFF#32)) ∧
    (∀ (f b : DWord) (k : Nat), k < 4 →
      let c := fun (p : DWord) k => F16.decode (p.toNat / 2 ^ (16 * k) % 2 ^ 16)
      let r := fun rule => (mergePay rule f b).toNat / 2 ^ (16 * k) % 2 ^ 16
      r 0 = F16.encode .rne (exactSum [c f k, ((Machine.Num.fin false 1 0).add (c f 3).negate).mul (c b k)]) ∧
      mergePay 1 f b = f ∧ r 2 = F16.encode .rne ((c f k).add (c b k)) ∧
      r 3 = F16.minmax true (f.toNat / 2 ^ (16 * k) % 2 ^ 16) (b.toNat / 2 ^ (16 * k) % 2 ^ 16))

/-! ## Events of streams and groups -/

/-- R11, R13, R14, R15, R177, R332, R333, R352, R359: a stream that can take up its next clause traps with ILLCLAUSE on a bad header, or waits
on the lowest flag its header names, unless the trap of a command it waited for is due, which it takes at once; once they read zero its region
entry is made, a PREEMPT notice and an engine trap that is due are taken, the lowest source first, a save stops it there, and it waits for room in its flags. A clause nothing stands against then issues with EXEC as it is, raising its flags by
one each, with the translations its words found; reading its sources lowers SETB, completing it SETA, and each clears what it marked. -/
def Obligations.ClauseFlow : Prop :=
  ∀ (s : State) (g b : Nat) (acc : Bool) (c : Nat) (h : Word) (y : Xlat) (ws : List (Word × Instr × Xlat)) (pins : List Xlat),
    let w : Who := { gid := g, bid := b, acc := acc }
    let x := s.stream w
    let u := { s.tick with cur := w }
    let r := if hRgn h = true ∧ x.entryMade = false then u.regionEntry 0 else u
    let run := exec (.clauseIssue g b acc) s
    let plain := longLatency (hClass h) = false ∧ hSeta h = 15 ∧ hSetb h = 15
    let adds := fun f => (if hSeta h = f then 1 else 0) + (if hSetb h = f then 1 else 0)
    let none_due := x.handler = true ∨ x.due = []
    let none_now := x.handler = true ∨ ∀ d ∈ x.due, d.atOnce = false
    let calm := hRgn h = true → x.entryMade = false → x.pnote = false ∨ x.pnoted = true ∨ x.handler = true
    let free := ∀ f, f < 12 → (hWait h).testBit f = true → x.flag f = 0
    let due := fun (v : State) (e : Trap) => (v.setStr { v.str with due := dropTrap e x.due }).takeTrap e (some (hCount h))
    (s.canIssue w = false → run = .next s.tick) ∧
    (s.canIssue w = true → x.pend = none → x.resumeAt = 0 →
      (∀ t, u.fetch x.pc 0 = .trap t → run = .next (u.takeTrap t none)) ∧
      (u.fetch x.pc 0 = .word h y →
        (headerOk acc h = false → run = .next (u.takeTrap { cause := 0x01 } none)) ∧
        (headerOk acc h = true →
          (∀ f, f < 12 → (hWait h).testBit f = true → x.flag f ≠ 0 → (∀ e, e < f → (hWait h).testBit e = true → x.flag e = 0) →
            none_now → run = .next (u.setStr { x with wait := .flags f })) ∧
          (∀ e, x.handler = false → firstDue (x.due.filter (·.atOnce)) = some e → run = .next (due u e)) ∧
          (none_now → free → hRgn h = true → x.entryMade = false → x.pnote = true → x.pnoted = false → x.handler = false →
            s.affected (s.group g) = true →
            run = .next ((r.setStr { r.str with pnoted := true }).takeTrap { cause := 0x11 } (some (hCount h)))) ∧
          (none_now → free → calm → (∀ e, x.handler = false → firstDue x.due = some e → run = .next (due r e)) ∧
            (none_due → hRgn h = true → (s.group g).saving ≠ none → x.mask = false →
              run = .next (r.setStr { r.str with wait := .nothing })) ∧
            (none_due → (hRgn h = true → (s.group g).saving = none ∨ x.mask = true) →
              ((∃ f, f < 12 ∧ 63 < x.flag f + adds f) → run = .next (r.setStr { r.str with wait := .room })) ∧
              ((∀ f, f < 12 → x.flag f + adds f ≤ 63) → issuable r h ws pins → ∃ t, run = .next t ∧ t.cur = w ∧
                t.str.clause.header = h ∧ t.str.clause.words = ws.map (·.1) ∧ t.str.clause.idx = 0 ∧ t.str.clause.pins = pins ∧
                t.str.clause.exec0 = x.exec ∧ t.str.clause.execP = x.exec ∧ t.str.exec = x.exec ∧ t.str.pc = x.pc ∧
                t.str.wait = .nothing ∧ (plain → t.str.flags = x.flags ∧ t.str.outst = x.outst ∧ t.str.clause.id = 0) ∧
                (¬ plain → (∀ f, f < 12 → t.str.flag f = x.flag f + adds f) ∧ t.str.clause.id = x.nextId ∧
                  ∃ o : Outst, o.id = x.nextId ∧ o.cls = hClass h ∧ o.seta = hSeta h ∧ o.setb = hSetb h ∧ o.srcsRead = false ∧
                    o.handler = x.handler ∧ t.str.outst = x.outst ++ [o]) ∧
                (hRgn h = true → x.entryMade = false → t.str.rgnPc = x.pc ∧ t.str.rgnCount = x.rgnCount + 1 ∧
                  t.str.entryExec = x.exec ∧ t.bun.srEntry = (s.bundle g b).sr) ∧
                t.bun.v = (s.bundle g b).v ∧ t.bun.o = (s.bundle g b).o ∧ t.str.k = x.k ∧ t.str.x = x.x)))))) ∧
    (∀ e, firstDue x.due = some e → e ∈ x.due ∧ (∀ d ∈ x.due, e.info.toNat % 128 ≤ d.info.toNat % 128) ∧
      x.due.Perm (e :: dropTrap e x.due)) ∧
    (∀ o, x.out? c = some o → c ≠ 0 →
      (s.clauseWorks w c = true → exec (.clauseCompletion g b acc c) s = .next s.tick) ∧
      (s.clauseWorks w c = false → ∃ t, exec (.clauseCompletion g b acc c) s = .next t ∧ (t.stream w).out? c = none ∧
        (∀ f, f < 12 → (t.stream w).flag f =
          x.flag f - ((if o.setb = f ∧ o.srcsRead = false then 1 else 0) + if o.seta = f then 1 else 0)) ∧
        (∀ e ∈ (t.bundle g b).fwd, e.clause ≠ c) ∧ (t.stream w).pc = x.pc ∧ (t.stream w).k = x.k ∧
        (t.bundle g b).v = (s.bundle g b).v) ∧
      (x.clause.id = c → exec (.sourcesRead g b acc c) s = .next s.tick) ∧
      (x.clause.id ≠ c → o.srcsRead = false → ∃ t, exec (.sourcesRead g b acc c) s = .next t ∧
        (∀ f, f < 12 → (t.stream w).flag f = x.flag f - if o.setb = f then 1 else 0) ∧
        (t.stream w).outst = x.outst.map fun p => if p.id = c then { p with srcsRead := true } else p))

/-- R130, R131, R146, R149, R150, R152, R159, R185, R391: a fresh bundle starts with the oldest strands of its bin and their carried
registers; a bin ages, a bundle that has been ready too long is promoted, a poll comes due; an ACQUIRE is granted where the full allotment fits; the next group of a launch
starts where it can, the lowest GROUP first; a bin's timer forms a launch of its records, or waits with its kick set for a Hull; an acknowledged completion frees its group. Where an event is not
due, only the clock moves. That a step is one clock, on which all these times rest, is the model's choice (log 2), and that the registers a
fresh bundle carries are all resident its reading (log 61). -/
def Obligations.GroupEvents : Prop :=
  ∀ (s : State) (g b core : Nat) (acc : Bool) (key : Nat),
    let x := s.group g
    let bins := x.rbins.filter fun e => binReady x e
    let free := (List.range x.nb).find? fun i => (Tab.find? x.bundles i).isNone
    (firstBin bins = none ∨ free = none → exec (.freshBundleDraw g) s = .next s.tick) ∧
    (∀ bin i, firstBin bins = some bin → free = some i →
      let all := sortStrands bin.2
      let got := all.take x.w
      ∃ t, exec (.freshBundleDraw g) s = .next t ∧
        (t.bundle g i).started = true ∧ (t.bundle g i).bundle = i ∧ (t.bundle g i).live = onesMask got.length ∧
        (t.bundle g i).orig = got.map (·.orig) ∧ (t.bundle g i).xs.pc = bin.1 ∧ (t.bundle g i).xs.exec = onesMask got.length ∧
        (∀ r j e, r < nCarry (s.nodeRec x.node) → got[j]? = some e →
          ∃ v, (t.bundle g i).vreg r = .val v ∧ v.lane j = wordAt e.regs r) ∧
        (t.group g).rbins = (x.rbins.filter fun e => e.1 ≠ bin.1) ++ (if (all.drop x.w).isEmpty then [] else [(bin.1, all.drop x.w)]) ∧
        ∀ l : List Strand, (sortStrands l).Perm l ∧ (sortStrands l).Pairwise (fun p q => p.orig ≤ q.orig)) ∧
    (∀ e, x.rbins.find? (fun e => e.1 = BitVec.ofNat 32 key) = some e →
      ∃ t, exec (.reformageExpiry g key) s = .next t ∧
        (nReformAge (s.nodeRec x.node) < s.clock + 1 - binSince e → BitVec.ofNat 32 key ∈ (t.group g).aged) ∧
        (s.clock + 1 - binSince e ≤ nReformAge (s.nodeRec x.node) → t = s.tick)) ∧
    (let p := s.bundle g b
     (p.started = true → p.isReady = true → p.ready + 4096 ≤ s.clock + 1 → ∃ t, exec (.starvationPromotion g b) s = .next t ∧
       t.bundle g b = { p with promoted := true }) ∧
     (p.isReady = false ∨ s.clock + 1 < p.ready + 4096 → exec (.starvationPromotion g b) s = .next s.tick)) ∧
    (let p := s.stream { gid := g, bid := b, acc := acc }
     (p.asleep = true → p.waiter = false → p.since + 1024 ≤ s.clock + 1 → ∃ t, exec (.waitaPoll g b acc) s = .next t ∧
       t.stream { gid := g, bid := b, acc := acc } = { p with wakeTry := true }) ∧
     (p.asleep = false ∨ p.waiter = true ∨ s.clock + 1 < p.since + 1024 → exec (.waitaPoll g b acc) s = .next s.tick)) ∧
    (s.oldestReq core = none → exec (.acquireGrant core) s = .next s.tick) ∧
    (∀ q y, s.oldestReq core = some (q, y) → (s.loadWith core q).fits = true → ∃ t, exec (.acquireGrant core) s = .next t ∧
      t.group q = { y with st := .full, isFull := true, acqReq := none, scrSize := nScratch (s.nodeRec y.node) }) ∧
    (∀ l, s.launch? g = some l → nCohort (s.nodeRec l.node) = false →
      (s.canAdmit l core = false → exec (.groupAdmission g core) s = .next s.tick) ∧
      (∀ a, s.canAdmit l core = true → l.nextUp = some a → ∃ t, exec (.groupAdmission g core) s = .next t ∧
        (let n := t.group s.nextGid
         n.st = .prologue ∧ n.core = core ∧ n.group = a.group ∧ n.serial = g ∧ n.node = l.node ∧ n.w = l.w ∧
         n.nb = nT (s.nodeRec l.node) / l.w ∧ n.scrSize = nProscr (s.nodeRec l.node) ∧ n.sysIdx = s.dev.sysIdx ∧
         t.nextGid = s.nextGid + 1 ∧ (l.again = [] → a.group = l.next) ∧ ∀ c ∈ l.again, a.group ≤ c.group))) ∧
    (∃ t, exec .staggerExpiry s = .next t ∧ t.graph = s.graph.map fun y => { y with
      lastAdm := y.lastAdm.filter fun e => decide (s.clock + 1 < e.2.2 + nStaggern (s.nodeRec e.1)) }) ∧
    (let r := s.nodeRec b
     (s.bin b = [] ∨ nBinTimer r = 0 → exec (.binTimerExpiry b) s = .next s.tick) ∧
     (∀ e rest, s.bin b = e :: rest → s.clock + 1 < e.1 + nBinTimer r * 1024 → exec (.binTimerExpiry b) s = .next s.tick) ∧
     (∀ e rest, s.bin b = e :: rest → nBinTimer r ≠ 0 → e.1 + nBinTimer r * 1024 ≤ s.clock + 1 → s.dev.hulls = 0 →
       ∃ t, exec (.binTimerExpiry b) s = .next t ∧ b ∈ t.dev.kicks ∧ t.graph = s.graph) ∧
     (∀ e rest, s.bin b = e :: rest → nBinTimer r ≠ 0 → e.1 + nBinTimer r * 1024 ≤ s.clock + 1 → 0 < s.dev.hulls →
       ∃ t l, exec (.binTimerExpiry b) s = .next t ∧ t.bin b = [] ∧ t.launch? (s.dev.launchCtr + 1) = some l ∧ l.node = b ∧
         l.records = (e :: rest).map (·.2) ∧ l.total = nGL r ∧ b ∈ t.dev.kicks)) ∧
    (s.dev.fifo = [] ∨ s.dev.hulls = 0 → exec .completionAck s = .next s.tick) ∧
    (∀ e rest, s.dev.fifo = e :: rest → s.dev.hulls ≠ 0 → ∃ t, exec .completionAck s = .next t ∧
      Tab.find? t.groups (wordAt e 3).toNat = none ∧ (∀ q, q ≠ (wordAt e 3).toNat → t.group q = s.group q) ∧
      ((∀ p ∈ s.groups, p.1 = (wordAt e 3).toNat ∨ p.2.st ≠ .exiting ∨ ∃ f ∈ rest, (wordAt f 3).toNat = p.1) → t.dev.fifo = rest))

/-- R353, R354, R355, R357, R358, R365, R367, R370: a group whose save can be made stands SAVED with its Husk, none of its accesses parked
and none of its contributions waiting; saved for a fault it waits for a REPLAYALL of its cluster; restored, it runs on its core, or is lost where the Husk is poisoned; a page waited for too long, a deadline
passed and a context that stands still each have their effect, and before that only the clock moves. Which
bundles spin, one clock a step, where a Husk stands, and that the groups of a lost core wait for no page are the model's (logs 28, 2, 5,
48). -/
def Obligations.SavesAndTimers : Prop :=
  ∀ (s : State) (g core : Nat),
    let x := s.group g
    (s.canSave g = false → exec (.groupSave g) s = .next s.tick) ∧
    (s.canSave g = true → ∃ t, exec (.groupSave g) s = .next t ∧ (t.group g).st = .saved ∧ (t.group g).husk = some (hullVa + s.hullTop) ∧
      (t.group g).saving = some (x.saving.getD 0) ∧ (∀ p ∈ t.parked, p.who.ofGroup g = false) ∧
      (t.group g).awaits = (if x.saving = some 1 ∧ x.core ∉ s.dev.coresOut then some x.cluster else none) ∧
      (∀ c ∈ t.contribs, c.owner.gid ≠ g) ∧ (∀ k, k ≠ g → t.group k = s.group k)) ∧
    (x.awaits.isSome = true → s.canRestore g core = false) ∧
    (s.canRestore g core = false → exec (.groupRestore g core) s = .next s.tick) ∧
    (s.canRestore g core = true →
      let bad := s.poisonedIn (hullKey (x.husk.getD 0)) (huskSize (s.nodeRec x.node) x)
      (bad = false → ∃ t, exec (.groupRestore g core) s = .next t ∧ (t.group g).core = core ∧ (t.group g).husk = none ∧
        (t.group g).saving = none ∧ (t.group g).named = false ∧ (t.group g).st = (if (t.group g).isFull then .full else .prologue) ∧
        ∀ k, k ≠ g → t.group k = s.group k) ∧
      (bad = true → ∃ t, exec (.groupRestore g core) s = .next t ∧ Tab.find? t.groups g = none)) ∧
    (∃ t, exec .faultsaveExpiry s = .next t ∧ ∀ p ∈ s.groups, ∃ q ∈ t.groups, q.1 = p.1 ∧
      q.2 = if (∃ c, p.2.faultAt = some c ∧ c + s.dev.ctl.faultSave.toNat ≤ s.clock + 1) ∧ (p.2.st = .prologue ∨ p.2.st = .full) ∧
          p.2.saving = none ∧ p.2.drains = false ∧ (∃ b ∈ p.2.bundles, b.2.xs.wait = .parked ∨ b.2.as.wait = .parked)
        then { p.2 with saving := some 1 } else p.2) ∧
    ((∀ p ∈ s.groups, ∀ d, p.2.deadline = some d → s.clock + 1 < d) → exec .deadlineExpiry s = .next s.tick) ∧
    (∀ p rest d, s.groups = p :: rest → (p.2.st = .prologue ∨ p.2.st = .full) → p.2.deadline = some d → d ≤ s.clock + 1 →
      ∃ t, exec .deadlineExpiry s = .next t ∧ (∀ q ∈ t.groups, q.2.st = .exiting) ∧
        t.parked = s.parked.filter (fun q => q.who.gid?.isNone) ∧ t.hangCtr = 0 ∧ t.dev.kicks = []) ∧
    (s.hangCtr < s.dev.ctl.hangLimit.toNat → exec .hangDetection s = .next s.tick) ∧
    (s.dev.ctl.hangLimit.toNat ≤ s.hangCtr → s.hangIdle = true → s.hangOut = true → exec .hangDetection s = .next { s.tick with hangCtr := 0 }) ∧
    (∀ e0 es e, s.dev.ctl.hangLimit.toNat ≤ s.hangCtr → s.hangIdle = true → s.hangOut = false → s.dev.ctl.hangBuf = 0 →
      s.dev.ctl.svec ≠ 0xFFFFFFFF#32 → s.edges = e0 :: es → (e0 :: es).find? (fun e => !e.who.acc) = some e →
      (∀ o ∈ (s.stream e.who).outst, o.cls = .mxe ∨ o.cls = .ste ∨ o.id = (s.stream e.who).clause.id ∧ o.id ≠ 0) →
      (s.stream e.who).handler = false →
      ∃ t, exec .hangDetection s = .next t ∧ t.hangCtr = 0 ∧ t.hangOut = true ∧ t.cur = s.cur ∧
        (t.stream e.who).trapCause = 0x12 ∧ (t.stream e.who).handler = true ∧ (t.stream e.who).pc = s.dev.ctl.svec ∧
        (t.stream e.who).trapPc = (s.stream e.who).pc)

/-- R198, R214, R231, R235, R350, R394, R395, R396, R397: a contribution is applied once and leaves the buffer; an overlay line goes to its
backing; a line leaves a cache, its dirty bytes kept; an uncorrectable error poisons its 8 bytes; the host's and the peers' accesses perform
at home, a request with a tag already seen not at all; a link counts its retries, drops and counts what is outstanding when it goes down, and comes up. After
a failure of the sole Hull controller no access is taken. The slice of a peer's request is the model's choice (log 25). -/
def Obligations.MemoryEvents : Prop :=
  ∀ (s : State) (k line unit addr p : Nat) (bs : List Byte) (req : PeerReq) (peer : BitVec 12),
    let x := Tab.get {} s.dev.ports p
    (s.contribs[k]? = none → exec (.estContributionApply k) s = .next s.tick) ∧
    (∀ c, s.contribs[k]? = some c → ∃ t, exec (.estContributionApply k) s = .next t ∧ t.contribs = s.contribs.eraseIdx k ∧
      (c.sample = false → s.targetUp (c.keys.headD 0) = true → c.keys.length = 48 → c.keys.Nodup →
        t.readCell c.line c.keys = exactAdd (s.readCell c.line c.keys) c.x ∧ t.mem = s.mem ∧
        ∀ ks, (∀ j ∈ ks, j ∉ c.keys) → t.readCell c.line ks = s.readCell c.line ks)) ∧
    (let o := Tab.get [] s.overlay line
     ∃ t, exec (.overlayEviction line) s = .next t ∧ Tab.find? t.overlay line = none ∧ (∀ j, j ≠ line → Tab.find? t.overlay j = Tab.find? s.overlay j) ∧
      (Memory.wf s.mem = true → (o.map (·.1)).Pairwise (· < ·) → (∀ e ∈ o, keyTarget e.1 = 0) →
        (∀ e ∈ o, t.homeByte e.1 = e.2) ∧ ∀ j, j ∉ o.map (·.1) → t.homeByte j = s.homeByte j)) ∧
    (∃ t, exec (.lineEviction false unit line) s = .next t ∧ t.mem = s.mem ∧
      (∀ j e, j / 64 = line → (s.l1Of unit).Pairwise (fun d e => d.1 < e.1) → Tab.find? (s.l1Of unit) j = some e →
        Tab.find? (t.l1Of unit) j = none ∧ (e.2 = true → t.viewByte unit j = e.1)) ∧
      ∀ j, j / 64 ≠ line → t.viewByte unit j = s.viewByte unit j) ∧
    (∃ t, exec (.lineEviction true unit line) s = .next t ∧
      (∀ j, j / 64 = line → Tab.find? (t.clOf unit) j = none) ∧ (∀ j, j / 64 ≠ line → Tab.find? (t.clOf unit) j = Tab.find? (s.clOf unit) j) ∧
      ∀ j e, j / 64 = line → Memory.wf s.mem = true → (s.clOf unit).Pairwise (fun d e => d.1 < e.1) →
        Tab.find? (s.clOf unit) j = some (e, true) → s.targetUp j = true → t.homeByte j = e) ∧
    (∃ t, exec (.uncorrectableError addr) s = .next t ∧ t.poisonedAt addr = true ∧
      (∀ j, j / 8 ≠ addr / 8 → t.poisonedAt j = s.poisonedAt j) ∧ t.mem = s.mem) ∧
    (bs = [] ∨ s.inHdm addr bs.length = false ∨ s.accepts = false → ∀ w, exec (.hostHdmAccess w addr bs) s = .next s.tick) ∧
    (bs ≠ [] → s.accepts = true → s.inHdm addr bs.length = true → addr + bs.length ≤ 2 ^ 52 → Memory.wf s.mem = true →
      ∃ t u, exec (.hostHdmAccess true addr bs) s = .next t ∧ exec (.hostHdmAccess false addr bs) s = .next u ∧
        (∀ j, j < bs.length → t.homeByte (addr + j) = bs.getD j 0 ∧ (addr + j) / 64 ∈ t.dev.hostHeld ∧ (addr + j) / 64 ∈ u.dev.hostHeld) ∧
        (∀ j, (j < addr ∨ addr + bs.length ≤ j) → t.homeByte j = s.homeByte j) ∧ u.mem = s.mem) ∧
    (x.up = false ∨ req.tag ∈ x.tags ∨ s.dev.mode ≠ 0 ∨ s.accepts = false → exec (.peerRequest p req) s = .next s.tick) ∧
    (x.up = true → req.tag ∉ x.tags → s.dev.mode = 0 → s.accepts = true → ∃ t, exec (.peerRequest p req) s = .next t ∧ req.tag ∈ (Tab.get {} t.dev.ports p).tags ∧
      (∀ n, req.op = .read addr n → t.mem = s.mem) ∧
      (req.op = .write addr bs → s.peerValid addr bs.length = true → addr + bs.length ≤ 2 ^ 52 → Memory.wf s.mem = true →
        (∀ j, j < bs.length → t.homeByte (addr + j) = bs.getD j 0) ∧
        ∀ j, (j < addr ∨ addr + bs.length ≤ j) → t.homeByte j = s.homeByte j)) ∧
    (x.up = true → exec (.flitReplay p) s = .next { s.tick with dev := { s.dev with
      ports := Tab.put s.dev.ports p { x with retries := min (x.retries + 1) (2 ^ 32 - 1) } } }) ∧
    (x.up = false → exec (.flitReplay p) s = .next s.tick ∧ exec (.linkDown p) s = .next s.tick) ∧
    (x.up = true →
      let goes := fun (c : Contrib) => keyTarget (c.keys.headD 0) % 16 = 2 + p
      let out := (s.contribs.filter fun c => goes c).length + (s.uoq.filter fun u => keyTarget u.key % 16 = 2 + p ∧ u.load = none).length
      ∃ t, exec (.linkDown p) s = .next t ∧ Tab.get {} t.dev.ports p = { x with up := false, dropwr := min (x.dropwr + out) (2 ^ 32 - 1) } ∧
        t.contribs = s.contribs.filter (fun c => ¬ goes c) ∧ t.mem = s.mem) ∧
    (x.up = false → p < 12 → s.dev.mode = 0 → s.accepts = true → ∃ t, exec (.linkUp p peer) s = .next t ∧ Tab.get {} t.dev.ports p = { x with up := true, peer := peer })

/-! ## The host interface, faults, loads and reset -/

/-- R381, R382, R383, R384, R386, R392, R351, R407, R408: a seal that cannot be taken changes nothing; one taken is judged by its SEQ,
its seal, its type and its mailbox, each failure with its own code; a message in order does what its type says and is replied to. A
RECORD that finds no room keeps the mailbox BUSY, and enters the bin once there is room. ATTEST's hash and signature functions, MINIMAL
before the DONE of REPLYCFG, and the bits of a message that are ignored are the model's (logs 13, 37, 60). -/
def Obligations.Messages : Prop :=
  ∀ (s : State) (m : Nat) (hdr : DWord) (ws : List Word) (n : Nat), 1 ≤ n → n ≤ 8 →
    let x := s.mbox m
    let ty := (wordAt ws 0).toNat / 2 ^ 24
    let seq := hdr.toNat % 2 ^ 16
    let len := hdr.toNat / 2 ^ 16 % 256
    let word := fun k => if k < len then wordAt ws k else 0
    let words := (List.range 62).map word
    let run := exec (messageOf n m hdr ws) s
    let answers := fun (seq' code : Nat) => ∃ t, run = .next t ∧ replied s t m seq code [] ∧ (t.mbox m).seq = seq'
    let mine := ty = n ∨ n = 1 ∧ (ty = 0 ∨ 8 < ty)
    let pa := (word 9).toNat + (word 10).toNat * 2 ^ 32
    let arg := (word 1).toNat
    (x.held = [] → ¬ mine ∨ s.mboxOpen m = false ∨ x.isBusy = true → run = .next s.tick) ∧
    (mine → s.mboxOpen m = true → x.isBusy = false →
      (seq ≠ (x.seq + 1) % 65536 → answers x.seq 1) ∧
      (seq = (x.seq + 1) % 65536 →
        (2 ^ 24 ≤ hdr.toNat ∨ len = 0 ∨ 62 < len → answers seq 2) ∧
        (hdr.toNat < 2 ^ 24 → len ≠ 0 → len ≤ 62 →
          (s.dev.mode = 1 → n ≠ 3 → n ≠ 7 → n ≠ 8 → answers seq 3) ∧
          (s.dev.mode = 0 → ty ≠ n → answers seq 2) ∧
          (s.dev.mode = 0 → ty = n → 2 ≤ n → m ≠ 0 → answers seq 3) ∧
          (s.dev.mode = 0 → ty = 1 → n = 1 →
            (x.bound = none → answers seq 4) ∧ (∀ h, x.bound = some h → s.liveNode h = none → answers seq 5) ∧
            (∀ h b, x.bound = some h → s.liveNode h = some b →
              let k := nRecw (s.nodeRec b)
              let nrec := (word 0).toNat % 256
              (nrec = 0 ∨ len < nrec * k + 1 → answers seq 6) ∧
              (nrec = 1 → k < len → nCamera (s.nodeRec b) = false →
                (s.binRoom b = false → ∃ t, run = .next t ∧ (t.mbox m).isBusy = true ∧ t.bin b = s.bin b ∧
                  (t.mbox m).waiting = x.waiting) ∧
                (s.binRoom b = true → ∃ t, run = .next t ∧ filed s t b ((List.range k).map fun i => word (i + 1)))))) ∧
          (s.dev.mode = 0 → ty = 2 → n = 2 → m = 0 →
            let h := (word 2).toNat
            let bad := arg = 0 ∨ 63 < arg ∨ h / 2 ^ 16 = 0 ∨ 4096 ≤ h % 2 ^ 16
            (bad → answers seq 2) ∧
            (¬ bad → ∃ t, run = .next t ∧ replied s t 0 seq 0 [] ∧ (t.mbox arg).bound = some (word 2))) ∧
          (ty = 3 → n = 3 → m = 0 →
            let at' := (word 2).toNat + (word 3).toNat * 2 ^ 32
            let logn := (word 4).toNat
            let bad := 63 < arg ∨ at' % 64 ≠ 0 ∨ logn < 4 ∨ 12 < logn
            (bad → answers seq 2) ∧
            (¬ bad → ∃ t, run = .next t ∧ (t.mbox arg).ring = some (at', logn) ∧ (t.mbox arg).get = 0 ∧ (t.mbox arg).put = 0 ∧
              (arg ≠ 0 → s.dev.mode = 0 → replied s t 0 seq 0 []) ∧
              (arg = 0 → (t.mbox 0).waiting.getLast? = some [1, BitVec.ofNat 32 seq, 0]))) ∧
          (s.dev.mode = 0 → ty = 4 → n = 4 → m = 0 →
            (∀ e, s.loadCheck words = some e → ∃ t, run = .next t ∧ replied s t 0 seq 7 e ∧ t.loading = s.loading ∧ t.graph = s.graph) ∧
            (s.loadCheck words = none → ∃ t, run = .next t ∧ t.loading = some { mbox := 0, seq := seq, words := words } ∧
              t.dev.swap = true ∧ t.preempt = { s.preempt with swap := true } ∧ (t.mbox 0).isBusy = true ∧
              (t.mbox 0).waiting = x.waiting ∧ requested s t fun _ => True)) ∧
          (s.dev.mode = 0 → ty = 5 → n = 5 → m = 0 → ∃ t, run = .next t ∧ replied s t 0 seq 0 [] ∧
            t.preempt = { s.preempt with classes := s.preempt.classes ||| arg % 256 } ∧
            requested s t fun p => arg % 256 / 2 ^ p % 2 = 1) ∧
          (s.dev.mode = 0 → ty = 6 → n = 6 → m = 0 → ∃ t, run = .next t ∧ replied s t 0 seq 0 [] ∧
            t.preempt = { s.preempt with classes := s.preempt.classes &&& (255 ^^^ arg % 256) } ∧
            ∀ p ∈ s.groups, ∃ q ∈ t.groups, q.1 = p.1 ∧
              let prio := nPrio (s.nodeRec p.2.node)
              q.2 = if t.preempt.swap = true ∨ t.preempt.classes / 2 ^ prio % 2 = 1 then p.2
                else { p.2 with deadline := none, drains := false, named := p.2.named && (p.2.st = .saved || p.2.saving.isSome) }) ∧
          (ty = 7 → n = 7 → m = 0 →
            (pa % 64 ≠ 0 → answers seq 2) ∧
            (pa % 64 = 0 → pa + 512 ≤ 2 ^ 52 → Memory.wf s.mem = true → ∃ t, run = .next t ∧ replied s t 0 seq 0 [460] ∧
              t.homeWord (memKey 1 pa) = 1 ∧ t.homeWord (memKey 1 pa + 4) = s.devstat ∧
              (∀ i, i < 8 → t.homeWord (memKey 1 pa + 32 + 4 * i) = word (i + 1)) ∧
              (s.dev.mode = 0 → t.homeWord (memKey 1 pa + 24) = BitVec.ofNat 32 (fwSvn s.dev.running) ∧
                t.homeBytes (memKey 1 pa + 0x40) 64 = sha512 (fwBody s.dev.running)) ∧
              (∀ g, s.graph = some g → t.homeBytes (memKey 1 pa + 0x80) 64 = sha512 g.image) ∧
              t.homeBytes (memKey 1 pa + 0xC0) 132 = keyBytes (ecPublic s.dev.fuses.idKey) ∧
              (∃ k, let sig := ecdsaSign s.dev.fuses.idKey k (t.homeBytes (memKey 1 pa) 0x148)
                t.homeBytes (memKey 1 pa + 0x148) 66 = beBytes 66 sig.1 ∧ t.homeBytes (memKey 1 pa + 0x18A) 66 = beBytes 66 sig.2) ∧
              (s.graph = none → ∀ i, i < 64 → t.homeByte (memKey 1 pa + 0x80 + i) = 0) ∧
              ∀ j, (j < memKey 1 pa ∨ memKey 1 pa + 512 ≤ j) → t.homeByte j = s.homeByte j)) ∧
          (ty = 8 → n = 8 → m = 0 → x.ring = none → x.waiting = [] → ∃ t, run = .next t ∧ t.dev.mode = 2 ∧ t.dev.hulls = 0 ∧
            t.graph = none ∧ t.groups = [] ∧ t.dev.failCount = if arg % 2 = 1 then 0 else s.dev.failCount)))) ∧
    (∀ h b, n = 1 → x.held = [(1, hdr, ws)] → x.bound = some h → s.liveNode h = some b → (wordAt ws 0).toNat % 256 = 1 →
      nRecw (s.nodeRec b) < len → nCamera (s.nodeRec b) = false → s.binRoom b = true →
      ∃ t, run = .next t ∧ (t.mbox m).held = [] ∧ filed s t b ((List.range (nRecw (s.nodeRec b))).map fun i => wordAt ws (i + 1)))

/-- R336, R379, R380, R381, R383, R385, R390, R393, R394, R395: a reply entry is written with its phase where the ring has room, the vector
of its mailbox raised, and a LOAD's own reply, the last that waits, frees its mailbox; each clear clears its own counter and nothing else, and
nothing where the device accepts only a device reset; descriptors and the host's window take writes while no graph is resident; a field of the control block
takes the values it may have and is read back; a write of the seal is the message. Values of the
decoder outside its limits, and the mask, pending bit and raise of an MSI-X vector, are the model's reading (logs 33, 67). -/
def Obligations.ControlWindow : Prop :=
  ∀ (s : State) (m b p off size : Nat) (v : Word) (d e : DWord),
    let x := s.mbox m
    let nn := Tab.get {} s.dev.nstats b
    let port := Tab.get {} s.dev.ports p
    let dev := fun (f : Device → Device) => Host.Outcome.next { s.tick with dev := f s.dev }
    let alive := s.dev.mode = 2 ∨ 0 < s.dev.hulls
    let box := fun (y : Mbox) => if alive ∧ m < 64 then dev fun d => { d with mboxes := Tab.put d.mboxes m y } else .next s.tick
    let node := fun (y : NStat) => if alive ∧ b < 4096 then dev fun d => { d with nstats := Tab.put d.nstats b y } else .next s.tick
    let link := fun (y : Port) => if alive ∧ p < 12 then dev fun d => { d with ports := Tab.put d.ports p y } else .next s.tick
    (x.ring = none ∨ x.waiting = [] ∨ x.full = true → exec (.replyEntryWrite m) s = .next s.tick) ∧
    (∀ base logn y rest, x.ring = some (base, logn) → x.waiting = y :: rest → x.full = false → base + 64 * 2 ^ logn ≤ 2 ^ 52 →
      Memory.wf s.mem = true → ∃ t, exec (.replyEntryWrite m) s = .next t ∧
        (let a := memKey 1 (base + 64 * (x.put.toNat % 2 ^ logn))
         t.homeWord a = BitVec.ofNat 32 ((if x.put.toNat / 2 ^ logn % 2 = 0 then 2 ^ 31 else 0) + (wordAt y 0).toNat * 2 ^ 16 +
           (wordAt y 1).toNat % 2 ^ 16) ∧
         (∀ i, i < 15 → t.homeWord (a + 4 + 4 * i) = wordAt y (i + 2)) ∧
         (∀ j, (j < a ∨ a + 64 ≤ j) → t.homeByte j = s.homeByte j)) ∧
        (t.mbox m).put = x.put + 1 ∧ (t.mbox m).waiting = rest ∧
        (wordAt y 0 = 1 → s.loading = none → (∀ r ∈ rest, wordAt r 0 ≠ 1) → (t.mbox m).busy = false) ∧
        (wordAt y 0 ≠ 1 ∨ s.loading ≠ none ∨ (∃ r ∈ rest, wordAt r 0 = 1) → (t.mbox m).busy = x.busy) ∧
        (let i := Tab.get {} s.dev.msix m
         Tab.get {} t.dev.msix m = if i.masked then { i with pending := true } else { i with raised := i.raised + 1 })) ∧
    exec (.replygetWrite m v) s = box { x with get := v } ∧ exec (.rdropClear m) s = box { x with rdrop := 0 } ∧
    exec (.stalecntClear b) s = node { nn with stale := 0 } ∧ exec (.orderrClear b) s = node { nn with orderr := false } ∧
    exec (.lossesClear b) s = node { nn with ckill := 0, restore := 0 } ∧
    exec (.dropwrClear p) s = link { port with dropwr := 0 } ∧ exec (.retriesClear p) s = link { port with retries := 0 } ∧
    (¬ alive ∨ s.graph ≠ none ∨ 576 * 64 ≤ off ∨ (size ≠ 4 ∧ size ≠ 8) ∨ off % size ≠ 0 →
      exec (.hashDescriptorWrite off size d) s = .next s.tick) ∧
    (alive → s.graph = none → off < 576 * 64 → size = 4 ∨ size = 8 → off % size = 0 →
      let h := Tab.get {} s.dev.hash (off / 64)
      let now := fun k => (wroteWord off size d k).getD (wordAt h.slices k)
      let h' := { h with slices := (List.range 8).map now, valid := ((wroteWord off size d 8).map (·.getLsbD 0)).getD h.valid }
      h.slices.length = 8 →
      ((∀ k, k < 8 → now k = 0) → exec (.hashDescriptorWrite off size d) s = .next s.tick) ∧
      ((∃ k, k < 8 ∧ now k ≠ 0) →
        exec (.hashDescriptorWrite off size d) s = dev fun y => { y with hash := Tab.put y.hash (off / 64) h' })) ∧
    (let bad := ¬ alive ∨ s.graph ≠ none ∨ d.toNat % 2 ^ 30 ≠ 0 ∨ e.toNat % 2 ^ 30 ≠ 0 ∨ e = 0 ∨ 576 * 2 ^ 30 < d.toNat + e.toNat
     (bad → exec (.hdmDecoderWrite d e) s = .next s.tick) ∧
     (¬ bad → exec (.hdmDecoderWrite d e) s = dev fun y => { y with hdmBase := d, hdmLen := e })) ∧
    ((size ≠ 4 ∧ size ≠ 8) ∨ off % size ≠ 0 ∨ 2 ^ 20 < off + size ∨ ¬ alive → exec (.registerWrite off size d) s = .next s.tick) ∧
    (∀ ok, ctlField off = some ok → alive → ∃ t, exec (.registerWrite (0x100 + off) 4 d) s = .next t ∧
      t.readWindow (0x100 + off) 4 = (if ok (d.setWidth 32) then (d.setWidth 32 : Word).setWidth 64 else s.readWindow (0x100 + off) 4) ∧
      ∀ f, f ≠ off → t.dev.ctl.word f = s.dev.ctl.word f) ∧
    (∀ n keep, ctlPair off = some (n, keep) → alive → ∃ t, exec (.registerWrite (0x100 + off) 8 d) s = .next t ∧
      t.readWindow (0x100 + off) 8 = (if d.toNat % n = 0 then d &&& keep else s.readWindow (0x100 + off) 8) ∧
      ∀ f, f ≠ off → f ≠ off + 4 → t.dev.ctl.word f = s.dev.ctl.word f) ∧
    (alive → d.setWidth 32 = 1#32 → exec (.registerWrite 0x12C 4 d) s = exec .tlbInvalidateRange s) ∧
    (alive → d.setWidth 32 = 2#32 → exec (.registerWrite 0x12C 4 d) s = exec .tlbInvalidateAll s) ∧
    (∀ i, alive → m < 64 → x.isBusy = false → i < 62 → ∃ t, exec (.registerWrite (0x1000 + 256 * m + 4 * i) 4 d) s = .next t ∧
      ∀ k, k < 62 → t.readWindow (0x1000 + 256 * m + 4 * k) 4 =
        if k = i then (d.setWidth 32 : Word).setWidth 64 else s.readWindow (0x1000 + 256 * m + 4 * k) 4) ∧
    (∀ n, 1 ≤ n → n ≤ 8 → (wordAt x.words 0).toNat / 2 ^ 24 = n → s.mboxOpen m = true → x.isBusy = false →
      exec (.registerWrite (0x1000 + 256 * m + 248) 8 d) s = exec (messageOf n m d x.words) s)

/-- R344, R345, R347, R348, R370, R371, R390: FBGET is taken where FBPUT - FBGET stays from 0 to 8, FBSTAT clears DROP and its count; an invalidation is BUSY
until it completes, which waits for every access still to perform that was translated with an affected translation, of a clause's word or of
an unordered store, a contribution or a SPILL that waits (logs 52, 54), and then no TLB holds one; REPLAYALL empties the miss table, lets the groups saved for a fault there be restored, and takes a parked clause up again, as after an
acquire; FAIL releases those that wait for its page, each of which traps with PAGE. FBCMD completes
within its write (log 11). -/
def Obligations.PageFaults : Prop :=
  ∀ (s : State) (c : Nat) (v : Word),
    let x := Tab.get {} s.dev.fwins c
    let put := fun (y : FWin) => { s.tick with dev := { s.dev with fwins := Tab.put s.dev.fwins c y } }
    let ctl := fun (y : CtlBlock) => Host.Outcome.next { s.tick with dev := { s.dev with ctl := y } }
    let k := s.dev.ctl
    let gap := (BitVec.ofNat 32 x.put - v).toNat
    let key := x.failVa.toNat % 2 ^ 57 / 4096
    (s.accepts = false → exec (.fbgetWrite c v) s = .next s.tick ∧ exec (.fbstatClear c) s = .next s.tick ∧
      exec .tlbInvalidateRange s = .next s.tick ∧ exec .tlbInvalidateAll s = .next s.tick ∧ exec (.replayall c) s = .next s.tick ∧
      exec (.fail c) s = .next s.tick) ∧
    (8 < gap → exec (.fbgetWrite c v) s = .next s.tick) ∧
    (s.accepts = true → gap ≤ 8 → 8 ≤ x.put → ∃ n, BitVec.ofNat 32 n = v ∧ x.put = n + gap ∧ exec (.fbgetWrite c v) s = .next (put { x with get := n })) ∧
    (s.accepts = true → exec (.fbstatClear c) s = .next (put { x with drop := false, dropCount := 0 })) ∧
    (k.tlbBusy = true → exec .tlbInvalidateRange s = .next s.tick ∧ exec .tlbInvalidateAll s = .next s.tick) ∧
    (s.accepts = true → k.tlbBusy = false →
      exec .tlbInvalidateRange s = ctl { k with tlbBusy := true, tlbPend := some (k.tlbInvVa.toNat % 2 ^ 57, k.tlbInvSz.toNat) } ∧
      exec .tlbInvalidateAll s = ctl { k with tlbBusy := true, tlbPend := some (0, 64) }) ∧
    (k.tlbPend = none → exec .tlbInvalidationComplete s = .next s.tick) ∧
    (∀ base n, k.tlbPend = some (base, n) →
      let apart := fun (from' size : Nat) => ∀ a, base ≤ a → a < base + 2 ^ n → ¬ (from' ≤ a ∧ a < from' + 2 ^ size)
      let uses := fun (y : Stream) => (∃ p ∈ y.clause.pins, ¬ apart p.base p.size) ∧
        ¬ (y.wait.isWaita = true ∧ y.clause.words.length ≤ y.clause.idx + 1)
      let pends := (∃ u ∈ s.uoq, ¬ apart u.page.1 u.page.2) ∨ (∃ k ∈ s.contribs, ∃ p ∈ k.pages, ¬ apart p.1 p.2) ∨
        ∃ g ∈ s.groups, ∃ b ∈ g.2.bundles, b.2.fwd ≠ [] ∧ ¬ apart (b.2.spillBase.toNat * 65536) 16
      (pends ∨ (∃ g ∈ s.groups, ∃ b ∈ g.2.bundles, uses b.2.xs ∨ uses b.2.as) → exec .tlbInvalidationComplete s = .next s.tick) ∧
      (¬ pends → (∀ g ∈ s.groups, ∀ b ∈ g.2.bundles, ¬ uses b.2.xs ∧ ¬ uses b.2.as) → ∃ t, exec .tlbInvalidationComplete s = .next t ∧
        t.dev.ctl = { k with tlbBusy := false, tlbPend := none } ∧ t.mem = s.mem ∧
        (∀ w, let y := t.stream w; let y0 := s.stream w
          y = { y0 with clause := { y0.clause with pins := y.clause.pins } } ∧
            ∀ p, p ∈ y.clause.pins ↔ p ∈ y0.clause.pins ∧ apart p.base p.size) ∧
        ∀ e, e ∈ t.tlb ↔ e ∈ s.tlb ∧ apart e.base e.size)) ∧
    (∀ g, ((s.replayed c).group g).awaits = if (s.group g).awaits = some c then none else (s.group g).awaits) ∧
    (∀ p w, p.who = .clause w ∨ p.who = .fetch w → p.path = 0 ∨ (∃ e ∈ p.misses, e.path = some 0) →
      (∀ e ∈ (s.acquireFor p).l1Of p.core, e.2.2 = true) ∧ (∀ e ∈ (s.acquireFor p).clOf (Config.clusterOf p.core), e.2.2 = true) ∧
        ((s.acquireFor p).group w.gid).scrOld = []) ∧
    (s.accepts = true → (∀ p ∈ s.parked, p.cluster ≠ c) →
      exec (.replayall c) s = .next ((put { x with keys := [] }).replayed c).settleFaults) ∧
    (∀ p w, s.accepts = true → s.parked = [p] → p.cluster = c → p.who = .clause w ∨ p.who = .fetch w → (s.stream w).wait = .parked →
      (s.stream w).clause.words = [] → s.stopped w = false →
      let u := { (({ (put { x with keys := [] }) with parked := [] }).replayed c).acquireFor p with cur := w }
      exec (.replayall c) s = .next { (u.setStr { s.stream w with wait := .nothing }).issue with cur := s.cur }.settleFaults) ∧
    (s.accepts = true → (∀ p ∈ s.parked, p.cluster = c → ∀ e ∈ p.misses, e.vpn ≠ key) →
      exec (.fail c) s = .next (put { x with keys := x.keys.filter fun e => e.1 ≠ key }).settleFaults) ∧
    (∀ p w e, s.accepts = true → s.parked = [p] → p.cluster = c → p.who = .clause w ∨ p.who = .fetch w → p.misses = [e] → e.vpn = key → e.word < 16 →
      e.lane < 64 → (s.stream w).clause = {} → (s.stream w).outst = [] → (s.stream w).held = none → (s.stream w).handler = false →
      let vec := if w.acc then k.tveca else k.tvecx
      vec ≠ 0xFFFFFFFF#32 → ∃ t, exec (.fail c) s = .next t ∧ t.parked = [] ∧ t.cur = s.cur ∧
        (Tab.get {} t.dev.fwins c).keys = x.keys.filter (fun f => f.1 ≠ key) ∧
        (let y := t.stream w
         y.trapCause = 0x05 ∧ y.trapAddr = e.va ∧ y.trapPc = (s.stream w).pc ∧ y.pc = vec ∧ y.handler = true ∧ y.mask = true ∧
         y.trapInfo = if p.who = .fetch w then BitVec.ofNat 32 (2 ^ 30 + e.word) else BitVec.ofNat 32 (e.lane * 16 + e.word)))

/-- R358, R379, R390, R392, R402, R403, R404, R405, R418: a load installs once every group stands saved, the old graph discarded, or kept
whole under RETAIN and found again by RESUME; the third firing of a timing detector loses the core, the first two do not; a corrected
error is recorded and classified; a migration sets the bit of its chunk; the standby takes over once, performing what stood unperformed; a lone controller's failure leaves the device accepting only a device
reset; a device reset leaves the reset state and runs the start sequence, which reads both copies of the firmware. The length of a freeze
image, which entry of the table of corrected errors names a pattern, what a controller leaves unperformed, the failure counter, that the groups of a lost core are saved with reason 01, and the firmware field
that is compared are the model's readings (logs 30, 32, 37, 64, 48, 13). -/
def Obligations.LoadsAndReset : Prop :=
  ∀ (s : State) (core n stack bank row col : Nat),
    let dev := fun (f : Device → Device) => { s.tick with dev := f s.dev }
    let running := fun (p : Nat × Group) => p.2.core = core ∧ (p.2.st = .prologue ∨ p.2.st = .full)
    let tab := Tab.get [] s.dev.cetab stack ++ [(bank, row, col)]
    let keep := tab.drop (tab.length - 64)
    let es := (keep.filter fun e => e.1 = bank).map (·.2)
    let isBank := 8 ≤ (es.map (·.1)).toFinset.card ∧ 8 ≤ (es.map (·.2)).toFinset.card
    let rowAt := fun (e : Nat × Nat) => 3 ≤ ((es.filter fun f => f.1 = e.1).map (·.2)).toFinset.card
    let colAt := fun (e : Nat × Nat) => 3 ≤ ((es.filter fun f => f.2 = e.2).map (·.1)).toFinset.card
    let cellAt := fun (e : Nat × Nat) => 2 ≤ es.count e
    let isRow := ∃ e ∈ es, rowAt e
    let isCol := ∃ e ∈ es, colAt e
    let oldest := fun (p : Nat × Nat → Prop) (e : Nat × Nat) => ∃ l r, es = l ++ e :: r ∧ p e ∧ ∀ f ∈ l, ¬ p f
    let u := dev fun d => { d with cetab := Tab.put d.cetab stack keep }
    let repair := fun (t : State) (cls k : Nat) => t.postStatus 9 (BitVec.ofNat 32 stack) (BitVec.ofNat 32 (cls * 2 ^ 24 + k % 2 ^ 24)) 0
    let spent := fun kind => Config.spareCount kind ≤ s.sparesUsed stack bank kind
    let subs := Tab.get [] s.dev.banksUsed stack
    let fix := exec (.correctedError stack bank row col) s
    let line := fun (kind : Nat) (gone : Nat × Nat × Nat → Bool) => { u with dev := { u.dev with
      spares := Tab.put s.dev.spares stack ((bank, kind) :: Tab.get [] s.dev.spares stack),
      cetab := Tab.put u.dev.cetab stack (keep.filter fun e => !gone e) } }
    (s.loading = none ∨ (∃ p ∈ s.groups, p.2.st ≠ .saved) → exec .loadInstall s = .next s.tick) ∧
    (∀ q, s.loading = some q → (∀ p ∈ s.groups, p.2.st = .saved) →
      let m := q.words
      let done := fun (t : State) => t.loading = none ∧ t.dev.swap = false ∧ t.preempt = { s.preempt with swap := false }
      let said := fun (t : State) (gen : Nat) => (s.mbox q.mbox).ring ≠ none →
        (t.mbox q.mbox).waiting.getLast? = some [1, BitVec.ofNat 32 q.seq, 0, BitVec.ofNat 32 gen]
      (∀ g0, s.graph = some g0 → mRetain m = true → mFreezeSize m < (Config.freezeImage s.freeCtr).length →
        ∃ t, exec .loadInstall s = .next t ∧ done t ∧ t.graph = some g0 ∧ t.groups.map (·.1) = s.groups.map (·.1) ∧
          replied s t q.mbox q.seq 7 (loadErr 9 13 (wordAt m 13))) ∧
      (mRetain m = false → mResume m = false → ∃ t g, exec .loadInstall s = .next t ∧ done t ∧ t.graph = some g ∧ said t g.gen ∧
        g.header = s.imageHeader m ∧ g.nodes = s.imageNodes m ∧ g.codeWin = mCodeWin m ∧ g.bins = [] ∧ g.launches = [] ∧ g.pool = [] ∧
        (s.graph ≠ none → t.groups = [] ∧ t.dev.nstats = [] ∧ t.dev.kicks = []) ∧
        ((∀ g0, s.graph = some g0 → g0.gen ≠ s.loads % 65535 + 1) → (∀ f ∈ s.frozen, f.live = true → f.graph.gen ≠ s.loads % 65535 + 1) →
          g.gen = s.loads % 65535 + 1 ∧ t.loads = g.gen) ∧
        t.dev.ctl.tvecx = 0xFFFFFFFF ∧ t.dev.ctl.tveca = 0xFFFFFFFF ∧ t.dev.ctl.svec = 0xFFFFFFFF) ∧
      (∀ g0, s.graph = some g0 → mRetain m = true → (Config.freezeImage s.freeCtr).length ≤ mFreezeSize m → mResume m = false →
        ∃ t f, exec .loadInstall s = .next t ∧ done t ∧ f ∈ t.frozen ∧ f.pa = mFreeze m ∧ f.graph = g0 ∧ f.groups = s.groups ∧
          f.nstats = s.dev.nstats ∧ f.vecs = (s.dev.ctl.tvecx, s.dev.ctl.tveca, s.dev.ctl.svec) ∧ f.live = true) ∧
      (∀ f, mRetain m = false → mResume m = true → s.frozen.find? (fun f => f.pa = mImage m) = some f →
        ∃ t g, exec .loadInstall s = .next t ∧ done t ∧ t.graph = some g ∧ said t f.graph.gen ∧
          g = { f.graph with spill := mSpill m, spillSize := mSpillSize m, poolVa := mPool m, poolSize := mPoolSize m, pool := [] } ∧
          t.groups.map (·.1) = f.groups.map (·.1) ∧ (t.dev.ctl.tvecx, t.dev.ctl.tveca, t.dev.ctl.svec) = f.vecs)) ∧
    (n < 3 ∨ core ∈ s.dev.coresOut ∨ Config.cores ≤ core ∨ s.dev.mode ≠ 0 → exec (.timingDetectorFire core n) s = .next s.tick) ∧
    (3 ≤ n → core ∉ s.dev.coresOut → core < Config.cores → s.dev.mode = 0 → ∃ t, exec (.timingDetectorFire core n) s = .next t ∧
      t.dev.coresOut = core :: s.dev.coresOut ∧ t.coreIn core = false ∧ ∀ p ∈ s.groups, ∃ q ∈ t.groups, q.1 = p.1 ∧ q.2.st = p.2.st ∧
        (¬ running p → q.2 = p.2) ∧ (running p → q.2.saving = some (p.2.saving.getD 1))) ∧
    (s.dev.mode ≠ 0 ∨ 12 ≤ stack → fix = .next s.tick) ∧
    (s.dev.mode = 0 → stack < 12 → s.dev.hulls = 0 → fix = .next u) ∧
    (s.dev.mode = 0 → stack < 12 → 0 < s.dev.hulls →
      let bankOut := isBank ∨ isRow ∧ spent 1 ∨ ¬ isRow ∧ isCol ∧ spent 2
      (¬ isBank → ¬ isRow → ¬ isCol → (∀ e ∈ es, ¬ cellAt e) → fix = .next u) ∧
      (∀ e, ¬ isBank → ¬ isRow → ¬ isCol → oldest cellAt e → fix = .next (repair u 0 e.1)) ∧
      (∀ e, ¬ isBank → oldest rowAt e → ¬ spent 1 → fix = .next (repair (line 1 fun f => f.1 = bank && f.2.1 = e.1) 1 e.1)) ∧
      (∀ e, ¬ isBank → ¬ isRow → oldest colAt e → ¬ spent 2 → fix = .next (repair (line 2 fun f => f.1 = bank && f.2.2 = e.2) 2 e.2)) ∧
      (bankOut → (∃ r ∈ subs, r.1 = bank) → fix = .next u) ∧
      (bankOut → (∀ r ∈ subs, r.1 ≠ bank) → 2 ≤ subs.length ∨ 64 ≤ bank →
        fix = .next (u.postStatus 10 (BitVec.ofNat 32 stack) (BitVec.ofNat 32 bank) 0)) ∧
      (bankOut → (∀ r ∈ subs, r.1 ≠ bank) → subs.length < 2 → bank < 64 → fix = .next (repair { u with dev := { u.dev with
        banksUsed := Tab.put s.dev.banksUsed stack (subs ++ [(bank, 64 + subs.length)]),
        bankMig := Tab.put s.dev.bankMig stack (Tab.get [] s.dev.bankMig stack ++ [(bank, 64 + subs.length, 0)]) } } 3 bank))) ∧
    (Tab.get [] s.dev.bankMig stack = [] ∨ s.dev.hulls = 0 → exec (.bankMigrationChunk stack) s = .next s.tick) ∧
    (∀ old new k rest, 0 < s.dev.hulls → Tab.get [] s.dev.bankMig stack = (old, new, k) :: rest → ∃ t, exec (.bankMigrationChunk stack) s = .next t ∧
      (let d := Tab.get {} s.dev.hash (48 * stack + k / 128)
       let e := Tab.get {} t.dev.hash (48 * stack + k / 128)
       e.repair = BitVec.ofNat 32 ((if k % 128 = 127 then 2 ^ 30 else 2 ^ 31) + new * 2 ^ 8 + old) ∧
       e.done = (if k % 128 = 0 then 1 else d.done + 2 ^ (k % 128)) ∧ e.slices = d.slices ∧ e.valid = d.valid) ∧
      (∀ r, r ≠ 48 * stack + k / 128 → Tab.get {} t.dev.hash r = Tab.get {} s.dev.hash r) ∧
      Tab.get [] t.dev.bankMig stack = if k + 1 = 48 * 128 then rest else (old, new, k + 1) :: rest) ∧
    (s.dev.hulls ≠ 2 → exec .hullTakeover s = .next s.tick) ∧
    (s.dev.hulls = 2 →
      let v := (Config.unperformed s.freeCtr).foldl State.decide1 { s.tick with freeCtr := s.freeCtr + 1 }
      ∃ t, exec .hullTakeover s = .next t ∧ t.dev.hulls = 1 ∧ t.dev.standby = false ∧ t.mem = v.mem ∧
        (v.dev.fifo.length ≤ s.dev.fifo.length → (∀ p ∈ v.groups, p.2.st ≠ .exiting) → t.dev.fifo = [])) ∧
    (s.dev.hulls ≠ 1 → exec .hullFailure s = .next s.tick) ∧
    (s.dev.hulls = 1 → ∃ t, exec .hullFailure s = .next t ∧ t.dev.hulls = 0 ∧ (∀ q ∈ t.groups, q.2.st = .exiting) ∧
      t.parked = s.parked.filter (fun q => q.who.gid?.isNone) ∧ t.dev.kicks = [] ∧
      (s.dev.mode ≠ 2 → (∀ off size v, exec (.registerWrite off size v) t = .next t.tick) ∧
        (∀ p q, exec (.linkUp p q) t = .next t.tick) ∧ ∀ w a bs, exec (.hostHdmAccess w a bs) t = .next t.tick)) ∧
    (∀ runs, ∃ t, exec (.deviceReset runs) s = .next t ∧ t.graph = none ∧ t.groups = [] ∧ t.loading = none ∧ t.preempt = {} ∧ t.parked = [] ∧
      t.contribs = [] ∧ t.tlb = [] ∧ t.dev.ctl = {} ∧ t.dev.mboxes = [] ∧ t.dev.serial = 0 ∧ t.dev.spares = s.dev.spares ∧
      t.dev.banksUsed = s.dev.banksUsed ∧ (Memory.wf s.mem = true → ∀ k, keyTarget k ≠ 0 → t.homeByte k = s.homeByte k) ∧
      (runs = [] → t.dev.mode = 2 ∧ t.dev.hulls = 0 ∧ t.dev.failCount = s.dev.failCount) ∧
      ∀ r, runs = [r] →
        let f := s.dev.failCount
        let failed := fun (stage code : Nat) => t.dev.mode = 2 ∧ t.dev.hulls = 0 ∧ t.dev.failCount = min 3 (f + 1) ∧
          t.dev.bootStage = stage ∧ t.dev.bootCode = code
        let rom := r.romOk = true ∧ r.fusesOk = true
        let copy := s.dev.fwCode 0 = 0 ∨ s.dev.fwCode 1 = 0
        (t.dev.mode ≠ 0 → ∀ k, Tab.get {} t.dev.hash k = {}) ∧
        (r.romOk = false → failed 1 1) ∧ (r.romOk = true → r.fusesOk = false → failed 2 1) ∧
        (rom → f = 3 → t.dev.mode = 1 ∧ t.dev.hulls = 1 ∧ t.dev.failCount = 3) ∧
        (rom → f ≠ 3 → ¬ copy → failed 3 (s.dev.fwCode 1)) ∧ (∀ i, rom → f ≠ 3 → copy → r.stack = some i → failed 4 (16 + i)) ∧
        (rom → f ≠ 3 → copy → r.stack = none → r.primaryOk = false → failed 5 1) ∧
        (rom → f ≠ 3 → copy → r.stack = none → r.primaryOk = true → r.standbyOk = false → failed 5 2) ∧
        (rom → f ≠ 3 → copy → r.stack = none → r.primaryOk = true → r.standbyOk = true →
          t.dev.mode = 0 ∧ t.dev.hulls = 2 ∧ t.dev.standby = true ∧ t.dev.failCount = 0 ∧
          t.dev.fw = (if s.dev.fwCode 0 = 0 then 0 else 1) ∧
          ∀ k used old new i, Tab.find? s.dev.banksUsed k = some used → used.getLast? = some (old, new) → i < 48 →
            (Tab.get {} t.dev.hash (48 * k + i)).repair = BitVec.ofNat 32 (2 ^ 30 + new * 2 ^ 8 + old) ∧
            (Tab.get {} t.dev.hash (48 * k + i)).done = 2 ^ 128 - 1))

/-! ## The whole machine -/

/-- 15 R332: no state stops the machine: every step answers a next state, a trap among them, whatever the clause, the agenda or the
schedule. -/
def Obligations.EveryStepGoesOn : Prop := ∀ s : State, s.goesOn

/-- R27 to R45: every word of a clause decodes, from the bits the encoder gives it, to itself with every operand at every value; and a
word that decodes is the one the encoder gives. -/
def Obligations.DecodeEncode : Prop :=
  (∀ i : Instr, (classOf i).isSome = true → ∃ w, encode i = some w ∧ decode w = some i) ∧
  ∀ (w : Word) (i : Instr), decode w = some i → encode i = some w

/-- R27 to R45: words put together field by field, as the tables give them, decode to the instructions they stand for, the two of the
worked clause among them; reserved values and fields that must be zero do not decode. -/
def Obligations.DecodesSpecWords : Prop :=
  decode 0x88041402 = some (.ld32 0 4 10 2) ∧ decode 0x930515FF = some (.st32 2 5 10 0x1FF) ∧
  decode (0b00#2 ++ 0x00#6 ++ 0#1 ++ 1#2 ++ 4#7 ++ 10#7 ++ 11#7) = some (.iadd 0 1 4 10 11) ∧
  decode (0b00#2 ++ 0x35#6 ++ 1#1 ++ 3#2 ++ 4#7 ++ 0x70#7 ++ 12#7) = some (.redadd 1 3 4 0x70 12) ∧
  decode (0b01#2 ++ 0x00#5 ++ 3#7 ++ 2#7 ++ 0x7FF#11) = some (.iaddi 3 2 0x7FF) ∧
  decode (0b01#2 ++ 0x10#5 ++ 3#7 ++ 0x2ABCD#18) = some (.ldiLo 3 0x2ABCD) ∧
  decode (0b01#2 ++ 0x14#5 ++ 6#7 ++ 8#7 ++ 0xA#4 ++ 0xB#4 ++ 5#3) = some (.cvt 6 8 0xA 0xB 5) ∧
  decode (0b01#2 ++ 0x15#5 ++ 1#4 ++ 2#4 ++ 3#4 ++ 2#3 ++ 0#10) = some (.kopXor 1 2 3) ∧
  decode (0b01#2 ++ 0x19#5 ++ 9#4 ++ 0x1FFFFE#21) = some (.brany 9 0x1FFFFE) ∧
  decode (0b01#2 ++ 0x1F#5 ++ 0x01#6 ++ 63#6 ++ 8191#13) = some (.barInit 63 8191) ∧
  decode (0b10#2 ++ 0x1A#5 ++ 3#2 ++ 2#2 ++ 4#7 ++ 10#7 ++ 12#7) = some (.atomCas 3 2 4 10 12) ∧
  decode (0b10#2 ++ 0x1D#5 ++ 0x25#6 ++ 0#1 ++ 0#0 ++ 7#6 ++ 9#7 ++ 17#5) = some (.sfi 5 7 9 17) ∧
  decode (0b10#2 ++ 0x1F#5 ++ 0x00#6 ++ 0#0 ++ 5#7 ++ 6#7 ++ 15#5) = some (.emit 5 6 15) ∧
  decode 0xC0000001 = none ∧ decode (0b00#2 ++ 0x3D#6 ++ 0#24) = none ∧ decode (0b01#2 ++ 0x1F#5 ++ 0#6 ++ 1#19) = none

/-- R19, R27, R46: a step of a state whose current stream stands before a word runs the instruction the word decodes to, and only the hang
counter is kept beside it; where no word is due, it is noted which bundles are ready, and the event that the outside world delivers first
happens; a word placed for a step is
the word of that step. The agenda and the placing are the model's (log 3, 8). -/
def Obligations.StepRunsTheWord : Prop :=
  ∀ (s : State) (w : Word),
    (∀ i, s.wordNow = some w → decode w = some i → step s = s.accounted (exec i s)) ∧
    (∀ i rest, s.wordNow = none → s.agenda = i :: rest → classOf i = none →
      step s = s.accounted (exec i { s.noteReady with agenda := rest })) ∧
    (∀ g b, Tab.find? (s.group g).bundles b ≠ none →
      let p := s.bundle g b
      let q := s.noteReady.bundle g b
      q = { p with isReady := q.isReady, ready := q.ready } ∧ q.ready = if q.isReady then p.ready else s.clock) ∧
    (∀ t, ∃ u, s.accounted (.next t) = .next u ∧ { u with hangCtr := t.hangCtr } = t) ∧
    (s.withFetchWord 32 w.toNat).wordNow = some w ∧ (∀ nbits v, (s.withFetchWord nbits v).mem = s.mem) ∧
    decodeTableWord 32 w.toNat = decode w

/-- R365, R154: in every state a step leads to, the hang counter is 0 unless every stream of the context waits, or a bundle of an ORDERED
node spins. Which bundle spins, and that a wait for a queue counts as a wait, are the model's readings (logs 28, 11). -/
def Obligations.HangCounterKept : Prop := ∀ s t : State, step s = .next t → t.hangInv

/-- R336, R355, R365, R379, R380, R381, R383, R389, R390, R405: what the spec gives the machine right after reset, the start sequence passed; the
invariants hold there. Registers whose reset value the spec does not give are not named here; that STANDBY
is set and no ring or node bound at a mailbox are the model's choices (log 12). -/
def Obligations.ResetState : Prop :=
  let s := State.reset
  s.graph = none ∧ s.groups = [] ∧ s.parked = [] ∧ s.hangCtr = 0 ∧ s.hangInv ∧ Memory.wf s.mem = true ∧ s.poisoned = [] ∧
    s.readWindow 0x000 4 = 0x8 ∧ s.readWindow 0x100 4 = 0xFFFFFFFF ∧ s.readWindow 0x104 4 = 0xFFFFFFFF ∧
    s.readWindow 0x108 4 = 0xFFFFFFFF ∧ s.readWindow 0x10C 4 = 0x1000000 ∧ s.readWindow 0x110 8 = 0 ∧ s.readWindow 0x130 4 = 4096 ∧
    (∀ m, m < 64 → (s.mbox m).seq = 0xFFFF ∧ (s.mbox m).isBusy = false ∧ (s.mbox m).ring = none ∧ (s.mbox m).bound = none) ∧
    (∀ r, r < 576 → (s.hashOf r).slices = List.replicate 8 0xFFFFFFFF ∧ (s.hashOf r).valid = true)

/-- 07 R162, 00 R5: memory keeps its one canonical form under every write; a byte written reads as written, every other one as before;
equal contents are equal memories. The form is the model's (log 1). -/
def Obligations.MemoryForm : Prop :=
  ∀ (m n : Bytes) (k : Nat) (bs : List Byte), Memory.wf m = true →
    Memory.wf (Bytes.writeList m k bs) = true ∧
    (∀ i, i < bs.length → Bytes.read (Bytes.writeList m k bs) (k + i) = bs.getD i 0) ∧
    (∀ j, (j < k ∨ k + bs.length ≤ j) → Bytes.read (Bytes.writeList m k bs) j = Bytes.read m j) ∧
    (Memory.wf n = true → (∀ j, Bytes.read m j = Bytes.read n j) → m = n)

/-- 07 R162: every step, of whatever instruction or event, keeps memory in its canonical form. The form is the model's (log 1). -/
def Obligations.MemoryKept : Prop := ∀ s t : State, Memory.wf s.mem = true → step s = .next t → Memory.wf t.mem = true

end
end

