-- ==== Sys2Proof/Laws/Tab.lean ====
section
/-!
SUPPORT. Tables and bytes: a read after a write, and that every write of bytes keeps the canonical form of memory.
-/
namespace Sys2Proof.Machine

@[simp] theorem Tab.find?_put_self {α : Type} (t : Tab α) (k : Nat) (x : α) : Tab.find? (Tab.put t k x) k = some x := by
  induction t with
  | nil => simp [Tab.put, Tab.find?]
  | cons e t ih =>
    obtain ⟨j, y⟩ := e
    simp only [Tab.put]
    split
    · simp [Tab.find?]
    · split
      · simp [Tab.find?]
      · rename_i h1 h2
        simp [Tab.find?, h2, ih]

theorem Tab.find?_put_ne {α : Type} (t : Tab α) {j k : Nat} (x : α) (h : j ≠ k) :
    Tab.find? (Tab.put t k x) j = Tab.find? t j := by
  induction t with
  | nil => simp [Tab.put, Tab.find?, Ne.symm h]
  | cons e t ih =>
    obtain ⟨i, y⟩ := e
    simp only [Tab.put]
    split
    · simp [Tab.find?, Ne.symm h]
    · split
      · subst_vars; simp [Tab.find?, Ne.symm h]
      · by_cases hi : i = j <;> simp [Tab.find?, hi, ih]

@[simp] theorem Tab.get_put_self {α : Type} (d : α) (t : Tab α) (k : Nat) (x : α) : Tab.get d (Tab.put t k x) k = x := by
  simp [Tab.get]

theorem Tab.get_put_ne {α : Type} (d : α) (t : Tab α) {j k : Nat} (x : α) (h : j ≠ k) :
    Tab.get d (Tab.put t k x) j = Tab.get d t j := by
  simp [Tab.get, Tab.find?_put_ne t x h]

@[simp] theorem Tab.put_put {α : Type} (t : Tab α) (k : Nat) (x y : α) : Tab.put (Tab.put t k x) k y = Tab.put t k y := by
  induction t with
  | nil => simp [Tab.put]
  | cons e t ih =>
    obtain ⟨j, z⟩ := e
    by_cases h1 : k < j
    · simp [Tab.put, h1]
    · by_cases h2 : j = k
      · simp [Tab.put, h2]
      · simp [Tab.put, h1, h2, ih]

/-! ## Bytes -/

theorem Bytes.wfFrom_mono {b c : Nat} (h : b ≤ c) : ∀ {m : Bytes}, Bytes.wfFrom c m = true → Bytes.wfFrom b m = true
  | [], _ => rfl
  | (j, x) :: t, hw => by
    simp only [Bytes.wfFrom, Bool.and_eq_true, decide_eq_true_eq] at hw ⊢
    exact ⟨⟨by omega, hw.1.2⟩, hw.2⟩

/-- An address below every cell reads as the unlisted value. -/
theorem Bytes.read_below {a : Nat} : ∀ {b : Nat} {m : Bytes}, Bytes.wfFrom b m = true → a < b → Bytes.read m a = unlistedByte
  | _, [], _, _ => rfl
  | b, (j, x) :: t, hw, h => by
    simp only [Bytes.wfFrom, Bool.and_eq_true, decide_eq_true_eq] at hw
    have : j ≠ a := by omega
    simp only [Bytes.read, this, if_false]
    exact Bytes.read_below hw.2 (by omega)

/-- A write keeps the canonical form. -/
theorem Bytes.wfFrom_write {a : Nat} {x : Byte} : ∀ {b : Nat} {m : Bytes}, Bytes.wfFrom b m = true → b ≤ a →
    Bytes.wfFrom b (Bytes.write m a x) = true
  | b, [], _, hb => by by_cases h : x = unlistedByte <;> simp [Bytes.write, Bytes.wfFrom, h, hb]
  | b, (j, y) :: t, hw, hb => by
    simp only [Bytes.wfFrom, Bool.and_eq_true, decide_eq_true_eq] at hw
    obtain ⟨⟨h1, h2⟩, h3⟩ := hw
    simp only [Bytes.write]
    split
    · split
      · simp [Bytes.wfFrom, h1, h2, h3]
      · rename_i h4 h5
        simp [Bytes.wfFrom, hb, h5, h2, h3]; omega
    · split
      · split
        · exact Bytes.wfFrom_mono (by omega) h3
        · rename_i h4 h5 h6
          subst h5; simp [Bytes.wfFrom, hb, h6, h3]
      · simp only [Bytes.wfFrom, Bool.and_eq_true, decide_eq_true_eq]
        exact ⟨⟨h1, h2⟩, Bytes.wfFrom_write h3 (by omega)⟩

/-- A write keeps the canonical form of memory. -/
theorem Memory.wf_write {m : Bytes} (a : Nat) (x : Byte) (h : Memory.wf m = true) : Memory.wf (Bytes.write m a x) = true :=
  Bytes.wfFrom_write h (Nat.zero_le a)

/-- A write of bytes keeps the canonical form of memory. -/
theorem Memory.wf_writeList : ∀ {m : Bytes} {a : Nat} {xs : List Byte}, Memory.wf m = true →
    Memory.wf (Bytes.writeList m a xs) = true
  | _, _, [], h => h
  | m, a, x :: xs, h => Memory.wf_writeList (m := Bytes.write m a x) (xs := xs) (Memory.wf_write a x h)

/-- A byte read after it was written gives the value written. -/
theorem Bytes.read_write_from {a : Nat} {x : Byte} : ∀ {b : Nat} {m : Bytes}, Bytes.wfFrom b m = true →
    Bytes.read (Bytes.write m a x) a = x
  | _, [], _ => by by_cases h : x = unlistedByte <;> simp [Bytes.write, Bytes.read, h]
  | b, (j, y) :: t, hw => by
    simp only [Bytes.wfFrom, Bool.and_eq_true, decide_eq_true_eq] at hw
    simp only [Bytes.write]
    split
    · split
      · rename_i h1 h2
        have : j ≠ a := by omega
        simp only [Bytes.read, this, if_false, h2]
        exact Bytes.read_below hw.2 (by omega)
      · simp [Bytes.read]
    · split
      · split
        · rename_i h1 h2 h3
          rw [h3]; exact Bytes.read_below hw.2 (by omega)
        · simp [Bytes.read]
      · rename_i h1 h2
        simp only [Bytes.read, h2, if_false]
        exact Bytes.read_write_from hw.2

theorem Bytes.read_write {m : Bytes} (h : Memory.wf m = true) (a : Nat) (x : Byte) : Bytes.read (Bytes.write m a x) a = x :=
  Bytes.read_write_from h

/-- A write leaves every other byte. -/
theorem Bytes.read_write_ne {a c : Nat} {x : Byte} (hc : c ≠ a) : ∀ {m : Bytes}, Bytes.read (Bytes.write m a x) c = Bytes.read m c
  | [] => by by_cases h : x = unlistedByte <;> simp [Bytes.write, Bytes.read, h, Ne.symm hc]
  | (j, y) :: t => by
    simp only [Bytes.write]
    split
    · split <;> simp [Bytes.read, Ne.symm hc]
    · split
      · rename_i h1 h2
        subst h2
        split <;> simp [Bytes.read, Ne.symm hc]
      · by_cases hj : j = c <;> simp [Bytes.read, hj, Bytes.read_write_ne hc]

/-- A write of bytes leaves every byte outside them. -/
theorem Bytes.read_writeList_out {c : Nat} : ∀ {m : Bytes} {a : Nat} {xs : List Byte}, (c < a ∨ a + xs.length ≤ c) →
    Bytes.read (Bytes.writeList m a xs) c = Bytes.read m c
  | _, _, [], _ => rfl
  | m, a, x :: xs, h => by
    simp only [Bytes.writeList, List.length_cons] at h ⊢
    rw [Bytes.read_writeList_out (by omega), Bytes.read_write_ne (by omega)]

/-- Byte i of a write of bytes. -/
theorem Bytes.read_writeList {i : Nat} : ∀ {m : Bytes} {a : Nat} {xs : List Byte}, Memory.wf m = true → (h : i < xs.length) →
    Bytes.read (Bytes.writeList m a xs) (a + i) = xs[i]
  | _, _, [], _, h => by simp at h
  | m, a, x :: xs, hw, h => by
    simp only [Bytes.writeList]
    cases i with
    | zero => rw [Bytes.read_writeList_out (by omega)]; simpa using Bytes.read_write hw a x
    | succ i =>
      have := Bytes.read_writeList (m := Bytes.write m a x) (a := a + 1) (xs := xs) (i := i) (Memory.wf_write a x hw) (by simpa using h)
      simpa [Nat.add_assoc, Nat.add_comm 1 i] using this

@[simp] theorem leBytes_length : ∀ n v, (leBytes n v).length = n
  | 0, _ => rfl
  | n + 1, v => by simp [leBytes, leBytes_length n]

/-- Little-endian bytes stand for their number, cut to their length. -/
theorem leNat_leBytes : ∀ n v, leNat (leBytes n v) = v % 256 ^ n
  | 0, v => by simp [leBytes, leNat, Nat.mod_one]
  | n + 1, v => by
    have h : leNat (leBytes (n + 1) v) = v % 256 + 256 * (v / 256 % 256 ^ n) := by
      show (BitVec.ofNat 8 v).toNat + 256 * leNat (leBytes n (v / 256)) = _
      rw [leNat_leBytes n, BitVec.toNat_ofNat]
    rw [h, Nat.pow_succ, Nat.mul_comm (256 ^ n) 256, Nat.mod_mul]

end Sys2Proof.Machine
end

