-- ==== Sys2Proof/Laws/State.lean ====
section
/-!
SUPPORT. What each named update of State leaves: one lemma a field, and a read of a group, bundle or stream after a write of one.
-/
namespace Sys2Proof.Machine

/-! ## State.setGroup -/

@[simp] theorem State.setGroup_clock (s : State) (g : Nat) (x : Group) : (s.setGroup g x).clock = s.clock := rfl
@[simp] theorem State.setGroup_dev (s : State) (g : Nat) (x : Group) : (s.setGroup g x).dev = s.dev := rfl
@[simp] theorem State.setGroup_mem (s : State) (g : Nat) (x : Group) : (s.setGroup g x).mem = s.mem := rfl
@[simp] theorem State.setGroup_poisoned (s : State) (g : Nat) (x : Group) : (s.setGroup g x).poisoned = s.poisoned := rfl
@[simp] theorem State.setGroup_l1 (s : State) (g : Nat) (x : Group) : (s.setGroup g x).l1 = s.l1 := rfl
@[simp] theorem State.setGroup_cl (s : State) (g : Nat) (x : Group) : (s.setGroup g x).cl = s.cl := rfl
@[simp] theorem State.setGroup_tlb (s : State) (g : Nat) (x : Group) : (s.setGroup g x).tlb = s.tlb := rfl
@[simp] theorem State.setGroup_ectab (s : State) (g : Nat) (x : Group) : (s.setGroup g x).ectab = s.ectab := rfl
@[simp] theorem State.setGroup_contribs (s : State) (g : Nat) (x : Group) : (s.setGroup g x).contribs = s.contribs := rfl
@[simp] theorem State.setGroup_uoq (s : State) (g : Nat) (x : Group) : (s.setGroup g x).uoq = s.uoq := rfl
@[simp] theorem State.setGroup_sprouts (s : State) (g : Nat) (x : Group) : (s.setGroup g x).sprouts = s.sprouts := rfl
@[simp] theorem State.setGroup_found (s : State) (g : Nat) (x : Group) : (s.setGroup g x).found = s.found := rfl
@[simp] theorem State.setGroup_pbuf (s : State) (g : Nat) (x : Group) : (s.setGroup g x).pbuf = s.pbuf := rfl
@[simp] theorem State.setGroup_overlay (s : State) (g : Nat) (x : Group) : (s.setGroup g x).overlay = s.overlay := rfl
@[simp] theorem State.setGroup_graph (s : State) (g : Nat) (x : Group) : (s.setGroup g x).graph = s.graph := rfl
@[simp] theorem State.setGroup_loads (s : State) (g : Nat) (x : Group) : (s.setGroup g x).loads = s.loads := rfl
@[simp] theorem State.setGroup_frozen (s : State) (g : Nat) (x : Group) : (s.setGroup g x).frozen = s.frozen := rfl
@[simp] theorem State.setGroup_preempt (s : State) (g : Nat) (x : Group) : (s.setGroup g x).preempt = s.preempt := rfl
@[simp] theorem State.setGroup_loading (s : State) (g : Nat) (x : Group) : (s.setGroup g x).loading = s.loading := rfl
@[simp] theorem State.setGroup_hangCtr (s : State) (g : Nat) (x : Group) : (s.setGroup g x).hangCtr = s.hangCtr := rfl
@[simp] theorem State.setGroup_hangOut (s : State) (g : Nat) (x : Group) : (s.setGroup g x).hangOut = s.hangOut := rfl
@[simp] theorem State.setGroup_parked (s : State) (g : Nat) (x : Group) : (s.setGroup g x).parked = s.parked := rfl
@[simp] theorem State.setGroup_cur (s : State) (g : Nat) (x : Group) : (s.setGroup g x).cur = s.cur := rfl
@[simp] theorem State.setGroup_agenda (s : State) (g : Nat) (x : Group) : (s.setGroup g x).agenda = s.agenda := rfl
@[simp] theorem State.setGroup_turn (s : State) (g : Nat) (x : Group) : (s.setGroup g x).turn = s.turn := rfl
@[simp] theorem State.setGroup_freeCtr (s : State) (g : Nat) (x : Group) : (s.setGroup g x).freeCtr = s.freeCtr := rfl
@[simp] theorem State.setGroup_hullTop (s : State) (g : Nat) (x : Group) : (s.setGroup g x).hullTop = s.hullTop := rfl
@[simp] theorem State.setGroup_nextGid (s : State) (g : Nat) (x : Group) : (s.setGroup g x).nextGid = s.nextGid := rfl

/-! ## State.setBundle -/

@[simp] theorem State.setBundle_clock (s : State) (g b : Nat) (x : Bundle) : (s.setBundle g b x).clock = s.clock := rfl
@[simp] theorem State.setBundle_dev (s : State) (g b : Nat) (x : Bundle) : (s.setBundle g b x).dev = s.dev := rfl
@[simp] theorem State.setBundle_mem (s : State) (g b : Nat) (x : Bundle) : (s.setBundle g b x).mem = s.mem := rfl
@[simp] theorem State.setBundle_poisoned (s : State) (g b : Nat) (x : Bundle) : (s.setBundle g b x).poisoned = s.poisoned := rfl
@[simp] theorem State.setBundle_l1 (s : State) (g b : Nat) (x : Bundle) : (s.setBundle g b x).l1 = s.l1 := rfl
@[simp] theorem State.setBundle_cl (s : State) (g b : Nat) (x : Bundle) : (s.setBundle g b x).cl = s.cl := rfl
@[simp] theorem State.setBundle_tlb (s : State) (g b : Nat) (x : Bundle) : (s.setBundle g b x).tlb = s.tlb := rfl
@[simp] theorem State.setBundle_ectab (s : State) (g b : Nat) (x : Bundle) : (s.setBundle g b x).ectab = s.ectab := rfl
@[simp] theorem State.setBundle_contribs (s : State) (g b : Nat) (x : Bundle) : (s.setBundle g b x).contribs = s.contribs := rfl
@[simp] theorem State.setBundle_uoq (s : State) (g b : Nat) (x : Bundle) : (s.setBundle g b x).uoq = s.uoq := rfl
@[simp] theorem State.setBundle_sprouts (s : State) (g b : Nat) (x : Bundle) : (s.setBundle g b x).sprouts = s.sprouts := rfl
@[simp] theorem State.setBundle_found (s : State) (g b : Nat) (x : Bundle) : (s.setBundle g b x).found = s.found := rfl
@[simp] theorem State.setBundle_pbuf (s : State) (g b : Nat) (x : Bundle) : (s.setBundle g b x).pbuf = s.pbuf := rfl
@[simp] theorem State.setBundle_overlay (s : State) (g b : Nat) (x : Bundle) : (s.setBundle g b x).overlay = s.overlay := rfl
@[simp] theorem State.setBundle_graph (s : State) (g b : Nat) (x : Bundle) : (s.setBundle g b x).graph = s.graph := rfl
@[simp] theorem State.setBundle_loads (s : State) (g b : Nat) (x : Bundle) : (s.setBundle g b x).loads = s.loads := rfl
@[simp] theorem State.setBundle_frozen (s : State) (g b : Nat) (x : Bundle) : (s.setBundle g b x).frozen = s.frozen := rfl
@[simp] theorem State.setBundle_preempt (s : State) (g b : Nat) (x : Bundle) : (s.setBundle g b x).preempt = s.preempt := rfl
@[simp] theorem State.setBundle_loading (s : State) (g b : Nat) (x : Bundle) : (s.setBundle g b x).loading = s.loading := rfl
@[simp] theorem State.setBundle_hangCtr (s : State) (g b : Nat) (x : Bundle) : (s.setBundle g b x).hangCtr = s.hangCtr := rfl
@[simp] theorem State.setBundle_hangOut (s : State) (g b : Nat) (x : Bundle) : (s.setBundle g b x).hangOut = s.hangOut := rfl
@[simp] theorem State.setBundle_parked (s : State) (g b : Nat) (x : Bundle) : (s.setBundle g b x).parked = s.parked := rfl
@[simp] theorem State.setBundle_cur (s : State) (g b : Nat) (x : Bundle) : (s.setBundle g b x).cur = s.cur := rfl
@[simp] theorem State.setBundle_agenda (s : State) (g b : Nat) (x : Bundle) : (s.setBundle g b x).agenda = s.agenda := rfl
@[simp] theorem State.setBundle_turn (s : State) (g b : Nat) (x : Bundle) : (s.setBundle g b x).turn = s.turn := rfl
@[simp] theorem State.setBundle_freeCtr (s : State) (g b : Nat) (x : Bundle) : (s.setBundle g b x).freeCtr = s.freeCtr := rfl
@[simp] theorem State.setBundle_hullTop (s : State) (g b : Nat) (x : Bundle) : (s.setBundle g b x).hullTop = s.hullTop := rfl
@[simp] theorem State.setBundle_nextGid (s : State) (g b : Nat) (x : Bundle) : (s.setBundle g b x).nextGid = s.nextGid := rfl

/-! ## State.setStream -/

@[simp] theorem State.setStream_clock (s : State) (w : Who) (x : Stream) : (s.setStream w x).clock = s.clock := rfl
@[simp] theorem State.setStream_dev (s : State) (w : Who) (x : Stream) : (s.setStream w x).dev = s.dev := rfl
@[simp] theorem State.setStream_mem (s : State) (w : Who) (x : Stream) : (s.setStream w x).mem = s.mem := rfl
@[simp] theorem State.setStream_poisoned (s : State) (w : Who) (x : Stream) : (s.setStream w x).poisoned = s.poisoned := rfl
@[simp] theorem State.setStream_l1 (s : State) (w : Who) (x : Stream) : (s.setStream w x).l1 = s.l1 := rfl
@[simp] theorem State.setStream_cl (s : State) (w : Who) (x : Stream) : (s.setStream w x).cl = s.cl := rfl
@[simp] theorem State.setStream_tlb (s : State) (w : Who) (x : Stream) : (s.setStream w x).tlb = s.tlb := rfl
@[simp] theorem State.setStream_ectab (s : State) (w : Who) (x : Stream) : (s.setStream w x).ectab = s.ectab := rfl
@[simp] theorem State.setStream_contribs (s : State) (w : Who) (x : Stream) : (s.setStream w x).contribs = s.contribs := rfl
@[simp] theorem State.setStream_uoq (s : State) (w : Who) (x : Stream) : (s.setStream w x).uoq = s.uoq := rfl
@[simp] theorem State.setStream_sprouts (s : State) (w : Who) (x : Stream) : (s.setStream w x).sprouts = s.sprouts := rfl
@[simp] theorem State.setStream_found (s : State) (w : Who) (x : Stream) : (s.setStream w x).found = s.found := rfl
@[simp] theorem State.setStream_pbuf (s : State) (w : Who) (x : Stream) : (s.setStream w x).pbuf = s.pbuf := rfl
@[simp] theorem State.setStream_overlay (s : State) (w : Who) (x : Stream) : (s.setStream w x).overlay = s.overlay := rfl
@[simp] theorem State.setStream_graph (s : State) (w : Who) (x : Stream) : (s.setStream w x).graph = s.graph := rfl
@[simp] theorem State.setStream_loads (s : State) (w : Who) (x : Stream) : (s.setStream w x).loads = s.loads := rfl
@[simp] theorem State.setStream_frozen (s : State) (w : Who) (x : Stream) : (s.setStream w x).frozen = s.frozen := rfl
@[simp] theorem State.setStream_preempt (s : State) (w : Who) (x : Stream) : (s.setStream w x).preempt = s.preempt := rfl
@[simp] theorem State.setStream_loading (s : State) (w : Who) (x : Stream) : (s.setStream w x).loading = s.loading := rfl
@[simp] theorem State.setStream_hangCtr (s : State) (w : Who) (x : Stream) : (s.setStream w x).hangCtr = s.hangCtr := rfl
@[simp] theorem State.setStream_hangOut (s : State) (w : Who) (x : Stream) : (s.setStream w x).hangOut = s.hangOut := rfl
@[simp] theorem State.setStream_parked (s : State) (w : Who) (x : Stream) : (s.setStream w x).parked = s.parked := rfl
@[simp] theorem State.setStream_cur (s : State) (w : Who) (x : Stream) : (s.setStream w x).cur = s.cur := rfl
@[simp] theorem State.setStream_agenda (s : State) (w : Who) (x : Stream) : (s.setStream w x).agenda = s.agenda := rfl
@[simp] theorem State.setStream_turn (s : State) (w : Who) (x : Stream) : (s.setStream w x).turn = s.turn := rfl
@[simp] theorem State.setStream_freeCtr (s : State) (w : Who) (x : Stream) : (s.setStream w x).freeCtr = s.freeCtr := rfl
@[simp] theorem State.setStream_hullTop (s : State) (w : Who) (x : Stream) : (s.setStream w x).hullTop = s.hullTop := rfl
@[simp] theorem State.setStream_nextGid (s : State) (w : Who) (x : Stream) : (s.setStream w x).nextGid = s.nextGid := rfl

/-! ## State.setGrp -/

@[simp] theorem State.setGrp_clock (s : State) (x : Group) : (s.setGrp x).clock = s.clock := rfl
@[simp] theorem State.setGrp_dev (s : State) (x : Group) : (s.setGrp x).dev = s.dev := rfl
@[simp] theorem State.setGrp_mem (s : State) (x : Group) : (s.setGrp x).mem = s.mem := rfl
@[simp] theorem State.setGrp_poisoned (s : State) (x : Group) : (s.setGrp x).poisoned = s.poisoned := rfl
@[simp] theorem State.setGrp_l1 (s : State) (x : Group) : (s.setGrp x).l1 = s.l1 := rfl
@[simp] theorem State.setGrp_cl (s : State) (x : Group) : (s.setGrp x).cl = s.cl := rfl
@[simp] theorem State.setGrp_tlb (s : State) (x : Group) : (s.setGrp x).tlb = s.tlb := rfl
@[simp] theorem State.setGrp_ectab (s : State) (x : Group) : (s.setGrp x).ectab = s.ectab := rfl
@[simp] theorem State.setGrp_contribs (s : State) (x : Group) : (s.setGrp x).contribs = s.contribs := rfl
@[simp] theorem State.setGrp_uoq (s : State) (x : Group) : (s.setGrp x).uoq = s.uoq := rfl
@[simp] theorem State.setGrp_sprouts (s : State) (x : Group) : (s.setGrp x).sprouts = s.sprouts := rfl
@[simp] theorem State.setGrp_found (s : State) (x : Group) : (s.setGrp x).found = s.found := rfl
@[simp] theorem State.setGrp_pbuf (s : State) (x : Group) : (s.setGrp x).pbuf = s.pbuf := rfl
@[simp] theorem State.setGrp_overlay (s : State) (x : Group) : (s.setGrp x).overlay = s.overlay := rfl
@[simp] theorem State.setGrp_graph (s : State) (x : Group) : (s.setGrp x).graph = s.graph := rfl
@[simp] theorem State.setGrp_loads (s : State) (x : Group) : (s.setGrp x).loads = s.loads := rfl
@[simp] theorem State.setGrp_frozen (s : State) (x : Group) : (s.setGrp x).frozen = s.frozen := rfl
@[simp] theorem State.setGrp_preempt (s : State) (x : Group) : (s.setGrp x).preempt = s.preempt := rfl
@[simp] theorem State.setGrp_loading (s : State) (x : Group) : (s.setGrp x).loading = s.loading := rfl
@[simp] theorem State.setGrp_hangCtr (s : State) (x : Group) : (s.setGrp x).hangCtr = s.hangCtr := rfl
@[simp] theorem State.setGrp_hangOut (s : State) (x : Group) : (s.setGrp x).hangOut = s.hangOut := rfl
@[simp] theorem State.setGrp_parked (s : State) (x : Group) : (s.setGrp x).parked = s.parked := rfl
@[simp] theorem State.setGrp_cur (s : State) (x : Group) : (s.setGrp x).cur = s.cur := rfl
@[simp] theorem State.setGrp_agenda (s : State) (x : Group) : (s.setGrp x).agenda = s.agenda := rfl
@[simp] theorem State.setGrp_turn (s : State) (x : Group) : (s.setGrp x).turn = s.turn := rfl
@[simp] theorem State.setGrp_freeCtr (s : State) (x : Group) : (s.setGrp x).freeCtr = s.freeCtr := rfl
@[simp] theorem State.setGrp_hullTop (s : State) (x : Group) : (s.setGrp x).hullTop = s.hullTop := rfl
@[simp] theorem State.setGrp_nextGid (s : State) (x : Group) : (s.setGrp x).nextGid = s.nextGid := rfl

/-! ## State.setBun -/

@[simp] theorem State.setBun_clock (s : State) (x : Bundle) : (s.setBun x).clock = s.clock := rfl
@[simp] theorem State.setBun_dev (s : State) (x : Bundle) : (s.setBun x).dev = s.dev := rfl
@[simp] theorem State.setBun_mem (s : State) (x : Bundle) : (s.setBun x).mem = s.mem := rfl
@[simp] theorem State.setBun_poisoned (s : State) (x : Bundle) : (s.setBun x).poisoned = s.poisoned := rfl
@[simp] theorem State.setBun_l1 (s : State) (x : Bundle) : (s.setBun x).l1 = s.l1 := rfl
@[simp] theorem State.setBun_cl (s : State) (x : Bundle) : (s.setBun x).cl = s.cl := rfl
@[simp] theorem State.setBun_tlb (s : State) (x : Bundle) : (s.setBun x).tlb = s.tlb := rfl
@[simp] theorem State.setBun_ectab (s : State) (x : Bundle) : (s.setBun x).ectab = s.ectab := rfl
@[simp] theorem State.setBun_contribs (s : State) (x : Bundle) : (s.setBun x).contribs = s.contribs := rfl
@[simp] theorem State.setBun_uoq (s : State) (x : Bundle) : (s.setBun x).uoq = s.uoq := rfl
@[simp] theorem State.setBun_sprouts (s : State) (x : Bundle) : (s.setBun x).sprouts = s.sprouts := rfl
@[simp] theorem State.setBun_found (s : State) (x : Bundle) : (s.setBun x).found = s.found := rfl
@[simp] theorem State.setBun_pbuf (s : State) (x : Bundle) : (s.setBun x).pbuf = s.pbuf := rfl
@[simp] theorem State.setBun_overlay (s : State) (x : Bundle) : (s.setBun x).overlay = s.overlay := rfl
@[simp] theorem State.setBun_graph (s : State) (x : Bundle) : (s.setBun x).graph = s.graph := rfl
@[simp] theorem State.setBun_loads (s : State) (x : Bundle) : (s.setBun x).loads = s.loads := rfl
@[simp] theorem State.setBun_frozen (s : State) (x : Bundle) : (s.setBun x).frozen = s.frozen := rfl
@[simp] theorem State.setBun_preempt (s : State) (x : Bundle) : (s.setBun x).preempt = s.preempt := rfl
@[simp] theorem State.setBun_loading (s : State) (x : Bundle) : (s.setBun x).loading = s.loading := rfl
@[simp] theorem State.setBun_hangCtr (s : State) (x : Bundle) : (s.setBun x).hangCtr = s.hangCtr := rfl
@[simp] theorem State.setBun_hangOut (s : State) (x : Bundle) : (s.setBun x).hangOut = s.hangOut := rfl
@[simp] theorem State.setBun_parked (s : State) (x : Bundle) : (s.setBun x).parked = s.parked := rfl
@[simp] theorem State.setBun_cur (s : State) (x : Bundle) : (s.setBun x).cur = s.cur := rfl
@[simp] theorem State.setBun_agenda (s : State) (x : Bundle) : (s.setBun x).agenda = s.agenda := rfl
@[simp] theorem State.setBun_turn (s : State) (x : Bundle) : (s.setBun x).turn = s.turn := rfl
@[simp] theorem State.setBun_freeCtr (s : State) (x : Bundle) : (s.setBun x).freeCtr = s.freeCtr := rfl
@[simp] theorem State.setBun_hullTop (s : State) (x : Bundle) : (s.setBun x).hullTop = s.hullTop := rfl
@[simp] theorem State.setBun_nextGid (s : State) (x : Bundle) : (s.setBun x).nextGid = s.nextGid := rfl

/-! ## State.setStr -/

@[simp] theorem State.setStr_clock (s : State) (x : Stream) : (s.setStr x).clock = s.clock := rfl
@[simp] theorem State.setStr_dev (s : State) (x : Stream) : (s.setStr x).dev = s.dev := rfl
@[simp] theorem State.setStr_mem (s : State) (x : Stream) : (s.setStr x).mem = s.mem := rfl
@[simp] theorem State.setStr_poisoned (s : State) (x : Stream) : (s.setStr x).poisoned = s.poisoned := rfl
@[simp] theorem State.setStr_l1 (s : State) (x : Stream) : (s.setStr x).l1 = s.l1 := rfl
@[simp] theorem State.setStr_cl (s : State) (x : Stream) : (s.setStr x).cl = s.cl := rfl
@[simp] theorem State.setStr_tlb (s : State) (x : Stream) : (s.setStr x).tlb = s.tlb := rfl
@[simp] theorem State.setStr_ectab (s : State) (x : Stream) : (s.setStr x).ectab = s.ectab := rfl
@[simp] theorem State.setStr_contribs (s : State) (x : Stream) : (s.setStr x).contribs = s.contribs := rfl
@[simp] theorem State.setStr_uoq (s : State) (x : Stream) : (s.setStr x).uoq = s.uoq := rfl
@[simp] theorem State.setStr_sprouts (s : State) (x : Stream) : (s.setStr x).sprouts = s.sprouts := rfl
@[simp] theorem State.setStr_found (s : State) (x : Stream) : (s.setStr x).found = s.found := rfl
@[simp] theorem State.setStr_pbuf (s : State) (x : Stream) : (s.setStr x).pbuf = s.pbuf := rfl
@[simp] theorem State.setStr_overlay (s : State) (x : Stream) : (s.setStr x).overlay = s.overlay := rfl
@[simp] theorem State.setStr_graph (s : State) (x : Stream) : (s.setStr x).graph = s.graph := rfl
@[simp] theorem State.setStr_loads (s : State) (x : Stream) : (s.setStr x).loads = s.loads := rfl
@[simp] theorem State.setStr_frozen (s : State) (x : Stream) : (s.setStr x).frozen = s.frozen := rfl
@[simp] theorem State.setStr_preempt (s : State) (x : Stream) : (s.setStr x).preempt = s.preempt := rfl
@[simp] theorem State.setStr_loading (s : State) (x : Stream) : (s.setStr x).loading = s.loading := rfl
@[simp] theorem State.setStr_hangCtr (s : State) (x : Stream) : (s.setStr x).hangCtr = s.hangCtr := rfl
@[simp] theorem State.setStr_hangOut (s : State) (x : Stream) : (s.setStr x).hangOut = s.hangOut := rfl
@[simp] theorem State.setStr_parked (s : State) (x : Stream) : (s.setStr x).parked = s.parked := rfl
@[simp] theorem State.setStr_cur (s : State) (x : Stream) : (s.setStr x).cur = s.cur := rfl
@[simp] theorem State.setStr_agenda (s : State) (x : Stream) : (s.setStr x).agenda = s.agenda := rfl
@[simp] theorem State.setStr_turn (s : State) (x : Stream) : (s.setStr x).turn = s.turn := rfl
@[simp] theorem State.setStr_freeCtr (s : State) (x : Stream) : (s.setStr x).freeCtr = s.freeCtr := rfl
@[simp] theorem State.setStr_hullTop (s : State) (x : Stream) : (s.setStr x).hullTop = s.hullTop := rfl
@[simp] theorem State.setStr_nextGid (s : State) (x : Stream) : (s.setStr x).nextGid = s.nextGid := rfl

/-! ## State.tick -/

@[simp] theorem State.tick_clock (s : State) : s.tick.clock = s.clock + 1 := rfl
@[simp] theorem State.tick_dev (s : State) : s.tick.dev = s.dev := rfl
@[simp] theorem State.tick_mem (s : State) : s.tick.mem = s.mem := rfl
@[simp] theorem State.tick_poisoned (s : State) : s.tick.poisoned = s.poisoned := rfl
@[simp] theorem State.tick_l1 (s : State) : s.tick.l1 = s.l1 := rfl
@[simp] theorem State.tick_cl (s : State) : s.tick.cl = s.cl := rfl
@[simp] theorem State.tick_tlb (s : State) : s.tick.tlb = s.tlb := rfl
@[simp] theorem State.tick_ectab (s : State) : s.tick.ectab = s.ectab := rfl
@[simp] theorem State.tick_contribs (s : State) : s.tick.contribs = s.contribs := rfl
@[simp] theorem State.tick_uoq (s : State) : s.tick.uoq = s.uoq := rfl
@[simp] theorem State.tick_sprouts (s : State) : s.tick.sprouts = s.sprouts := rfl
@[simp] theorem State.tick_found (s : State) : s.tick.found = s.found := rfl
@[simp] theorem State.tick_pbuf (s : State) : s.tick.pbuf = s.pbuf := rfl
@[simp] theorem State.tick_overlay (s : State) : s.tick.overlay = s.overlay := rfl
@[simp] theorem State.tick_graph (s : State) : s.tick.graph = s.graph := rfl
@[simp] theorem State.tick_loads (s : State) : s.tick.loads = s.loads := rfl
@[simp] theorem State.tick_frozen (s : State) : s.tick.frozen = s.frozen := rfl
@[simp] theorem State.tick_preempt (s : State) : s.tick.preempt = s.preempt := rfl
@[simp] theorem State.tick_loading (s : State) : s.tick.loading = s.loading := rfl
@[simp] theorem State.tick_hangCtr (s : State) : s.tick.hangCtr = s.hangCtr := rfl
@[simp] theorem State.tick_hangOut (s : State) : s.tick.hangOut = s.hangOut := rfl
@[simp] theorem State.tick_groups (s : State) : s.tick.groups = s.groups := rfl
@[simp] theorem State.tick_parked (s : State) : s.tick.parked = s.parked := rfl
@[simp] theorem State.tick_cur (s : State) : s.tick.cur = s.cur := rfl
@[simp] theorem State.tick_agenda (s : State) : s.tick.agenda = s.agenda := rfl
@[simp] theorem State.tick_turn (s : State) : s.tick.turn = s.turn := rfl
@[simp] theorem State.tick_freeCtr (s : State) : s.tick.freeCtr = s.freeCtr := rfl
@[simp] theorem State.tick_hullTop (s : State) : s.tick.hullTop = s.hullTop := rfl
@[simp] theorem State.tick_nextGid (s : State) : s.tick.nextGid = s.nextGid := rfl
@[simp] theorem State.tick_group (s : State) (g : Nat) : s.tick.group g = s.group g := rfl
@[simp] theorem State.tick_bundle (s : State) (g b : Nat) : s.tick.bundle g b = s.bundle g b := rfl
@[simp] theorem State.tick_stream (s : State) (w : Who) : s.tick.stream w = s.stream w := rfl
@[simp] theorem State.tick_grp (s : State) : s.tick.grp = s.grp := rfl
@[simp] theorem State.tick_bun (s : State) : s.tick.bun = s.bun := rfl
@[simp] theorem State.tick_str (s : State) : s.tick.str = s.str := rfl
@[simp] theorem State.tick_exec0 (s : State) : s.tick.exec0 = s.exec0 := rfl
@[simp] theorem State.tick_lanes (s : State) : s.tick.lanes = s.lanes := rfl

/-! ## Groups, bundles and streams read after a write -/

@[simp] theorem State.group_setGroup_self (s : State) (g : Nat) (x : Group) : (s.setGroup g x).group g = x := by
  simp [State.group, State.setGroup]

theorem State.group_setGroup_ne (s : State) {g h : Nat} (x : Group) (hn : h ≠ g) : (s.setGroup g x).group h = s.group h := by
  simp [State.group, State.setGroup, Tab.get_put_ne _ _ _ hn]

@[simp] theorem Group.bundle_setBundle_self (g : Group) (b : Nat) (x : Bundle) : (g.setBundle b x).bundle b = x := by
  simp [Group.bundle, Group.setBundle]

theorem Group.bundle_setBundle_ne (g : Group) {b c : Nat} (x : Bundle) (h : c ≠ b) : (g.setBundle b x).bundle c = g.bundle c := by
  simp [Group.bundle, Group.setBundle, Tab.get_put_ne _ _ _ h]

@[simp] theorem Bundle.stream_setStream_self (b : Bundle) (a : Bool) (x : Stream) : (b.setStream a x).stream a = x := by
  cases a <;> rfl

@[simp] theorem Bundle.stream_setStream_not (b : Bundle) (a : Bool) (x : Stream) : (b.setStream (!a) x).stream a = b.stream a := by
  cases a <;> rfl

@[simp] theorem State.group_setBundle_self (s : State) (g b : Nat) (x : Bundle) :
    (s.setBundle g b x).group g = (s.group g).setBundle b x := by simp [State.setBundle]

theorem State.group_setBundle_ne (s : State) {g h : Nat} (b : Nat) (x : Bundle) (hn : h ≠ g) :
    (s.setBundle g b x).group h = s.group h := by simp [State.setBundle, State.group_setGroup_ne _ _ hn]

@[simp] theorem State.bundle_setBundle_self (s : State) (g b : Nat) (x : Bundle) : (s.setBundle g b x).bundle g b = x := by
  simp [State.bundle]

theorem State.bundle_setBundle_ne (s : State) {g b h c : Nat} (x : Bundle) (hn : (h, c) ≠ (g, b)) :
    (s.setBundle g b x).bundle h c = s.bundle h c := by
  by_cases hg : h = g
  · subst hg
    have hc : c ≠ b := fun e => hn (by rw [e])
    simp [State.bundle, Group.bundle_setBundle_ne _ _ hc]
  · simp [State.bundle, State.group_setBundle_ne _ _ _ hg]

@[simp] theorem State.stream_setStream_self (s : State) (w : Who) (x : Stream) : (s.setStream w x).stream w = x := by
  simp [State.stream, State.setStream]

@[simp] theorem State.bundle_setStream_self (s : State) (w : Who) (x : Stream) :
    (s.setStream w x).bundle w.gid w.bid = (s.bundle w.gid w.bid).setStream w.acc x := by simp [State.setStream]

@[simp] theorem State.grp_setGrp (s : State) (x : Group) : (s.setGrp x).grp = x := by simp [State.grp, State.setGrp]

@[simp] theorem State.bun_setGrp (s : State) (x : Group) : (s.setGrp x).bun = x.bundle s.cur.bid := by
  simp [State.bun, State.bundle, State.setGrp]

@[simp] theorem State.grp_setBun (s : State) (x : Bundle) : (s.setBun x).grp = s.grp.setBundle s.cur.bid x := by
  simp [State.grp, State.setBun]

@[simp] theorem State.bun_setBun (s : State) (x : Bundle) : (s.setBun x).bun = x := by simp [State.bun, State.setBun]

@[simp] theorem State.str_setBun (s : State) (x : Bundle) : (s.setBun x).str = x.stream s.cur.acc := by
  simp [State.str, State.stream, State.setBun]

@[simp] theorem State.str_setStr (s : State) (x : Stream) : (s.setStr x).str = x := by
  simp [State.str, State.setStr]

@[simp] theorem State.bun_setStr (s : State) (x : Stream) : (s.setStr x).bun = s.bun.setStream s.cur.acc x := by
  simp [State.bun, State.setStr]

@[simp] theorem State.grp_setStr (s : State) (x : Stream) :
    (s.setStr x).grp = s.grp.setBundle s.cur.bid (s.bun.setStream s.cur.acc x) := by
  simp [State.grp, State.setStr, State.setStream, State.bun]

/-- The stream of the current bundle by its name. -/
theorem State.bun_stream (s : State) : s.bun.stream s.cur.acc = s.str := rfl

/-- Everything of a group but its bundles is left by a write of a bundle. -/
@[simp] theorem Group.setBundle_w (g : Group) (b : Nat) (x : Bundle) : (g.setBundle b x).w = g.w := rfl
@[simp] theorem Group.setBundle_scr (g : Group) (b : Nat) (x : Bundle) : (g.setBundle b x).scr = g.scr := rfl
@[simp] theorem Group.setBundle_scrSize (g : Group) (b : Nat) (x : Bundle) : (g.setBundle b x).scrSize = g.scrSize := rfl
@[simp] theorem Group.setBundle_core (g : Group) (b : Nat) (x : Bundle) : (g.setBundle b x).core = g.core := rfl
@[simp] theorem Group.setBundle_node (g : Group) (b : Nat) (x : Bundle) : (g.setBundle b x).node = g.node := rfl
@[simp] theorem Group.setBundle_isFull (g : Group) (b : Nat) (x : Bundle) : (g.setBundle b x).isFull = g.isFull := rfl
@[simp] theorem Group.setBundle_bars (g : Group) (b : Nat) (x : Bundle) : (g.setBundle b x).bars = g.bars := rfl
@[simp] theorem Group.setBundle_tiles (g : Group) (b : Nat) (x : Bundle) : (g.setBundle b x).tiles = g.tiles := rfl
@[simp] theorem Group.setBundle_ctxs (g : Group) (b : Nat) (x : Bundle) : (g.setBundle b x).ctxs = g.ctxs := rfl
@[simp] theorem Group.setBundle_sect (g : Group) (b : Nat) (x : Bundle) : (g.setBundle b x).sect = g.sect := rfl

end Sys2Proof.Machine
end

