-- ==== Sys2Proof/Laws/Run.lean ====
section
/-!
SUPPORT. What a word of a clause does around its own effect: runs to the end, waits, stalls, parks or traps (01 R20, R46, 15 R332).
-/
namespace Sys2Proof.Machine

/-- exec runs every word through the frame that the words of a clause share. -/
theorem exec_word (i : Instr) (h : (classOf i).isSome = true) (s : State) : exec i s = s.runWord i (perform i) := by
  cases i <;> first | rfl | simp [classOf] at h

theorem refill_inPlace (s : State) (i : Instr) : ∀ rs : List Nat, rs.all s.inPlace = true → s.refill i rs = .ok s
  | [], _ => rfl
  | r :: rs, h => by
    simp only [List.all_cons, Bool.and_eq_true] at h
    have hr := h.1
    unfold State.refill
    unfold State.inPlace at hr
    split
    · exact refill_inPlace s i rs h.2
    · rename_i j hv; simp [hv] at hr

/-- A clear word does what its own effect does, slots apart. -/
theorem around_clear {s : State} {i : Instr} (h : s.clear i = true) (p : State → Res) :
    s.around i p = match p s with
      | .done t =>
        (match (if t.cur.acc || !t.bun.started then .ok t else t.giveSlots s i : Except Res State) with
         | .error e => e
         | .ok u => .done ((u.doPops i).writeNb i true))
      | r => r := by
  simp only [State.clear, Bool.and_eq_true, decide_eq_true_eq, Option.isNone_iff_eq_none, Bool.or_eq_true] at h
  obtain ⟨⟨⟨⟨⟨_, hq⟩, hp⟩, hw⟩, hd⟩, hs⟩ := h
  have hw : s.walksHold i = false := by simpa using hw
  have hr : s.refill i (if s.cur.acc then [] else (regsOf (usesOf i).rs).filter fun r => decide (r < 0x60)) = .ok s := by
    apply refill_inPlace
    rcases hs with hs | hs
    · simp [hs]
    · split
      · rfl
      · exact hs
  simp only [State.around, hq, hp, hr, hw, hd, Bool.false_eq_true, if_false]
  all_goals (cases p s <;> rfl)

theorem clear_tick (s : State) (i : Instr) : s.tick.clear i = s.clear i := rfl

theorem clear_check {s : State} {i : Instr} (h : s.clear i = true) :
    s.checkWord (hClass s.str.clause.header) (decide (s.str.clause.words.length ≤ s.str.clause.idx + 1)) i = none := by
  simp only [State.clear, Bool.and_eq_true, Option.isNone_iff_eq_none] at h
  exact h.1.1.1.1.1

/-- What a word ends in, from what stands around its own effect. -/
def State.outcome (s : State) (i : Instr) : Res → Host.Outcome State Fault Refusal
  | .done t => .next t.advance
  | .wait w t => .next (t.setStr { t.str with wait := w })
  | .stall w => .next (s.setStr { s.str with wait := w })
  | .trap t => .next (s.wordTrap i (t.atWord (s.str.clause.idx + 1)) s.str.countOf)
  | .cap t u => .next ((s.keepMoves (s.slotMoves u i)).wordTrap i (t.atWord (s.str.clause.idx + 1)) s.str.countOf)
  | .park path ms => .next ((s.parkAccess (.clause s.cur) s.grp.core path ms).setStr { s.str with wait := .parked }).noteParked

/-- A clear word runs. -/
theorem runWord_clear {s : State} {i : Instr} (h : s.clear i = true) (p : State → Res) :
    s.runWord i p = s.tick.outcome i (s.tick.around i p) := by
  have hc : s.tick.checkWord (hClass s.str.clause.header) (decide (s.str.clause.words.length ≤ s.str.clause.idx + 1)) i = none :=
    clear_check h
  unfold State.runWord; dsimp only
  split
  · rename_i c he
    exact absurd (he.symm.trans hc) (by simp)
  · cases s.tick.around i p <;> rfl

/-- Where the budget is kept no register is spilled. -/
theorem giveSlots_fits {t s : State} {i : Instr} (h : t.slotsHeld ≤ t.budget t.grp) :
    t.giveSlots s i = .ok (t.freeSlots s.bun) := by
  have : t.slotsHeld - t.budget t.grp = 0 := by omega
  simp [State.giveSlots, this]

/-- A clear word whose own effect is done runs to its end. -/
theorem runWord_done {s t : State} {i : Instr} {p : State → Res} (h : s.clear i = true) (hp : p s.tick = .done t)
    (hf : t.fits = true) : s.runWord i p = .next (t.close s.tick i) := by
  have ha := around_clear (s := s.tick) h p
  rw [hp] at ha
  have hg : (if t.cur.acc || !t.bun.started then .ok t else t.giveSlots s.tick i : Except Res State) =
      .ok (if t.cur.acc || !t.bun.started then t else t.freeSlots s.tick.bun) := by
    split
    · rfl
    · rename_i hn
      simp only [State.fits, Bool.or_eq_true, decide_eq_true_eq] at hf hn
      exact giveSlots_fits (hf.resolve_left hn)
  simp only [hg] at ha
  rw [runWord_clear h, ha]
  rfl

/-- A clear word whose own effect is a wait stands at it. -/
theorem runWord_wait {s t : State} {i : Instr} {p : State → Res} {w : WaitOn} (h : s.clear i = true) (hp : p s.tick = .wait w t) :
    s.runWord i p = .next (t.setStr { t.str with wait := w }) := by
  have ha := around_clear (s := s.tick) h p
  rw [hp] at ha
  rw [runWord_clear h, ha]
  rfl

/-- A clear word whose own effect is a trap takes it. -/
theorem runWord_trap {s : State} {i : Instr} {p : State → Res} {e : Trap} (h : s.clear i = true) (hp : p s.tick = .trap e) :
    s.runWord i p = .next (s.tick.wordTrap i (e.atWord (s.str.clause.idx + 1)) s.str.countOf) := by
  have ha := around_clear (s := s.tick) h p
  rw [hp] at ha
  rw [runWord_clear h, ha]
  rfl

/-- A word that a check stands against takes the trap of that check (01 R46). -/
theorem runWord_bad {s : State} {i : Instr} {p : State → Res} {c : Nat}
    (h : s.checkWord (hClass s.str.clause.header) (decide (s.str.clause.words.length ≤ s.str.clause.idx + 1)) i = some c) :
    s.runWord i p = .next (s.trapWord { cause := c }) := by
  have hc : s.tick.checkWord (hClass s.str.clause.header) (decide (s.str.clause.words.length ≤ s.str.clause.idx + 1)) i = some c := h
  unfold State.runWord; dsimp only
  split
  · rename_i d he
    have : c = d := Option.some.inj (hc.symm.trans he)
    subst this; rfl
  · rename_i he
    exact absurd (he.symm.trans hc) (by simp)

end Sys2Proof.Machine
end

