-- ==== Sys2Proof/Laws/Regs.lean ====
section
/-!
SUPPORT. What memory operations leave of the groups, and what the bookkeeping around a word leaves of the registers (01 R20, R29,
04 R116, 11 R254).
-/
namespace Sys2Proof.Machine

/-! ## Memory operations leave the groups -/

/-- Groups and the current stream's name. -/
def State.who (s : State) : Tab Group × Who := (s.groups, s.cur)

@[simp] theorem State.who_backInv (s : State) (k n : Nat) : (s.backInv k n).who = s.who := by
  unfold State.backInv; split <;> rfl

@[simp] theorem State.who_homeWrite (s : State) (k : Nat) (bs : List Byte) : (s.homeWrite k bs).who = s.who := by
  unfold State.homeWrite; dsimp only
  split <;> exact State.who_backInv s k bs.length

@[simp] theorem State.who_putL1 (s : State) (c : Nat) (l : List (Nat × Copy)) : (s.putL1 c l).who = s.who := rfl
@[simp] theorem State.who_putCl (s : State) (c : Nat) (l : List (Nat × Copy)) : (s.putCl c l).who = s.who := rfl
@[simp] theorem State.who_storeL1 (s : State) (c k : Nat) (bs : List Byte) : (s.storeL1 c k bs).who = s.who := rfl

/-- A fold of steps that leave the groups leaves them. -/
theorem who_foldl {α : Type} (f : State → α → State) (h : ∀ s a, (f s a).who = s.who) :
    ∀ (l : List α) (s : State), (l.foldl f s).who = s.who
  | [], _ => rfl
  | a :: l, s => by rw [List.foldl_cons, who_foldl f h l, h]

@[simp] theorem State.who_flushL1 (s : State) (c k n : Nat) : (s.flushL1 c k n).who = s.who := by
  unfold State.flushL1; dsimp only
  split
  · split <;> rfl
  · rfl

@[simp] theorem State.who_homeRuns : ∀ (n : Nat) (s : State) (l : List (Nat × Byte)), (s.homeRuns n l).who = s.who
  | 0, _, _ => by simp [State.homeRuns]
  | _ + 1, _, [] => by simp [State.homeRuns]
  | n + 1, s, (k, b) :: t => by simp [State.homeRuns, State.who_homeRuns n]

@[simp] theorem State.who_homeLine (s : State) (l : List (Nat × Byte)) : (s.homeLine l).who = s.who := by
  unfold State.homeLine; repeat' split
  all_goals simp

@[simp] theorem State.who_homeLines : ∀ (n : Nat) (s : State) (l : List (Nat × Byte)), (s.homeLines n l).who = s.who
  | 0, _, _ => by simp [State.homeLines]
  | _ + 1, _, [] => by simp [State.homeLines]
  | n + 1, s, (k, b) :: t => by simp [State.homeLines, State.who_homeLines n]

@[simp] theorem State.who_homePut (s : State) (l : List (Nat × Byte)) : (s.homePut l).who = s.who := by simp [State.homePut]

@[simp] theorem State.who_flush (s : State) (c k n : Nat) : (s.flush c k n).who = s.who := by
  unfold State.flush; dsimp only
  split
  · exact (State.who_homePut _ _).trans (by simp)
  · simp

@[simp] theorem State.who_orEntry (s : State) (m : DWord) (k : Nat) : (s.orEntry m k).who = s.who := by
  simp [State.orEntry]

theorem State.grp_who {s t : State} (h : s.who = t.who) : s.grp = t.grp := by
  have h1 : s.groups = t.groups := congrArg Prod.fst h
  have h2 : s.cur = t.cur := congrArg Prod.snd h
  simp [State.grp, State.group, h1, h2]

theorem State.bun_who {s t : State} (h : s.who = t.who) : s.bun = t.bun := by
  have h1 : s.groups = t.groups := congrArg Prod.fst h
  have h2 : s.cur = t.cur := congrArg Prod.snd h
  simp [State.bun, State.bundle, State.group, h1, h2]

theorem State.str_who {s t : State} (h : s.who = t.who) : s.str = t.str := by
  have h2 : s.cur = t.cur := congrArg Prod.snd h
  have := State.bun_who h
  rw [← State.bun_stream, ← State.bun_stream, this, h2]

/-! ## Bookkeeping around a word leaves the registers -/

/-- The registers of the current stream and bundle but the k registers. -/
def State.regs (s : State) : Tab VReg × Tab (List Word) × List Word × List Word × Tab Word × Word × DWord :=
  (s.bun.v, s.bun.o, s.bun.l0, s.bun.l1, s.str.x, s.bun.ra, s.bun.sr)

theorem State.regs_who {s t : State} (h : s.who = t.who) : s.regs = t.regs := by
  simp [State.regs, State.bun_who h, State.str_who h]

/-- What a write of the spill area leaves: the registers, the current stream's name and the width (07 R168, R171). -/
def State.kept (s : State) : (Tab VReg × Tab (List Word) × List Word × List Word × Tab Word × Word × DWord) × Who × Nat :=
  (s.regs, s.cur, s.grp.w)

theorem State.kept_who {s t : State} (h : s.who = t.who) : s.kept = t.kept := by
  have h2 : s.cur = t.cur := congrArg Prod.snd h
  simp [State.kept, State.regs_who h, State.grp_who h, h2]

theorem State.regs_setStr (s : State) (y : Stream) (h : y.x = s.str.x) : (s.setStr y).regs = s.regs := by
  simp only [State.regs, State.bun_setStr, State.str_setStr, h]
  cases s.cur.acc <;> rfl

@[simp] theorem State.kept_pin (s : State) (x : Xlat) : (s.pin x).kept = s.kept := by
  unfold State.pin
  repeat' split
  all_goals rfl

/-- A bundle whose registers stay, its streams among them, leaves what is kept. -/
theorem State.kept_setBun (s : State) (f : List Fwd) : (s.setBun { s.bun with fwd := f }).kept = s.kept := by
  refine Prod.ext ?_ (Prod.ext rfl (by simp [State.kept, Group.setBundle]))
  simp only [State.kept, State.regs, State.bun_setBun, State.str_setBun]
  rw [← State.bun_stream s]
  cases s.cur.acc <;> rfl

@[simp] theorem State.who_fwdWrite (s : State) (c k : Nat) (rc : Bool) (bs : List Byte) : (s.fwdWrite c k rc bs).who = s.who := by
  unfold State.fwdWrite; split <;> simp

@[simp] theorem State.who_poisonBytes (s : State) (c k n : Nat) : (s.poisonBytes c k n).who = s.who :=
  State.who_flush s c k n

@[simp] theorem State.who_backWalk (s : State) (va : Nat) : (s.backWalk va).who = s.who := by
  unfold State.backWalk
  split
  · rfl
  · exact who_foldl _ (fun s k => State.who_backInv s k 8) _ _

/-- A fold of steps that leave the registers leaves them. -/
theorem kept_foldl {α : Type} (f : State → α → State) (h : ∀ s a, (f s a).kept = s.kept) :
    ∀ (l : List α) (s : State), (l.foldl f s).kept = s.kept
  | [], _ => rfl
  | a :: l, s => by rw [List.foldl_cons, kept_foldl f h l, h]

@[simp] theorem State.kept_unbuffer (s : State) (gid k n : Nat) : (s.unbuffer gid k n).kept = s.kept := by
  unfold State.unbuffer; dsimp only
  split
  · by_cases h : s.cur.gid = gid
    · subst h; simp [State.kept, State.regs, State.bun, State.str, State.grp, State.bundle, State.stream, Group.bundle]
    · simp [State.kept, State.regs, State.bun, State.str, State.grp, State.bundle, State.stream, State.group_setGroup_ne, h]
  · rfl

@[simp] theorem State.kept_drainFwd (s : State) (n : Nat) : (s.drainFwd s.cur.gid s.cur.bid n).kept = s.kept := by
  unfold State.drainFwd; dsimp only
  split
  · rfl
  · generalize hu : List.foldl _ s _ = u
    have h : u.kept = s.kept := by
      rw [← hu]
      refine kept_foldl _ (fun s e => ?_) _ _
      refine (kept_foldl _ (fun s w => State.kept_who (State.who_poisonBytes s _ _ _)) _ _).trans ?_
      exact kept_foldl _ (fun s w => (State.kept_unbuffer _ _ _ _).trans (State.kept_who (State.who_fwdWrite s _ _ _ _))) _ _
    have hc : s.cur = u.cur := (congrArg (·.2.1) h).symm
    rw [hc]
    exact (State.kept_setBun u _).trans h

@[simp] theorem State.kept_touch (s : State) (c : Nat) (x : Xlat) (a : AccBits) : (s.touch c x a).kept = s.kept := by
  unfold State.touch; dsimp only
  have h0 : ((if x.drew = true then { s with freeCtr := s.freeCtr + 1 } else s : State).pin x).kept = s.kept := by
    rw [State.kept_pin]; split <;> rfl
  generalize (if x.drew = true then { s with freeCtr := s.freeCtr + 1 } else s : State).pin x = t at h0 ⊢
  rw [← h0]
  split
  · rfl
  · generalize (State.tlb t).find? (fun u => u.holds c x) = old
    have h1 : (if old.isNone = true then t.backWalk x.base else t).who = t.who := by split <;> simp
    generalize (if old.isNone = true then t.backWalk x.base else t) = u at h1
    rw [← State.kept_who h1]
    repeat' split
    all_goals first
      | rfl
      | exact State.kept_who (who_foldl (fun (s : State) (k : Nat) => s.orEntry _ k) (fun s a => by simp) _ _)

@[simp] theorem State.kept_areaWrite (s : State) (x : Xlat) (bs : List Byte) : (s.areaWrite x bs).kept = s.kept := by
  unfold State.areaWrite; dsimp only
  split
  · exact (State.kept_who (State.who_storeL1 _ _ _ _)).trans (by simp)
  · exact (State.kept_who ((State.who_homeWrite _ _ _).trans (State.who_flush _ _ _ _))).trans (by simp)

@[simp] theorem State.kept_freeAuto (s : State) (j : Nat) : (s.freeAuto j).kept = s.kept := by
  unfold State.freeAuto; dsimp only
  have h : (if (s.bun.fwd? (autoSlot j)).isSome = true then s.drainFwd s.cur.gid s.cur.bid s.bun.fwd.length else s).kept = s.kept := by
    split <;> simp
  generalize (if (s.bun.fwd? (autoSlot j)).isSome = true then s.drainFwd s.cur.gid s.cur.bid s.bun.fwd.length else s) = t at h ⊢
  split
  · exact (State.kept_areaWrite _ _ _).trans h
  · exact h

@[simp] theorem State.kept_freeSlots (s : State) (b : Bundle) : (s.freeSlots b).kept = s.kept := by
  unfold State.freeSlots
  exact kept_foldl _ (fun s j => by simp) _ _

@[simp] theorem Stream.x_wordDone (x : Stream) : x.wordDone.x = x.x := by
  unfold Stream.wordDone; dsimp only; split <;> rfl

theorem State.regs_advance (t : State) : t.advance.regs = t.regs := by
  unfold State.advance; dsimp only
  split
  · rfl
  · split
    · exact State.regs_setStr _ _ (Stream.x_wordDone _)
    · exact State.regs_setStr _ _ (Stream.x_wordDone _)

theorem State.regs_writeK (s : State) (n : Nat) (x : DWord) : (s.writeK n x).regs = s.regs := State.regs_setStr _ _ rfl

theorem State.regs_writeNb (s : State) (i : Instr) (b : Bool) : (s.writeNb i b).regs = s.regs := by
  unfold State.writeNb
  split
  · exact State.regs_writeK _ _ _
  · rfl

theorem State.regs_setQueue (s : State) (q : Nat) (x : Queue) : (s.setBun (s.bun.setQueue q x)).regs = s.regs := by
  simp only [State.regs, State.bun_setBun, State.str_setBun]
  rfl

theorem State.regs_doPops (s : State) (i : Instr) : (s.doPops i).regs = s.regs := by
  unfold State.doPops
  generalize popsOf i = l
  induction l generalizing s with
  | nil => rfl
  | cons p l ih => rw [List.foldl_cons, ih]; exact State.regs_setQueue _ _ _

/-- The registers after a word are those its own effect leaves. -/
theorem State.regs_close (t s : State) (i : Instr) : (t.close s i).regs = t.regs := by
  unfold State.close
  rw [State.regs_advance, State.regs_writeNb, State.regs_doPops]
  split
  · rfl
  · exact congrArg (·.1) (State.kept_freeSlots _ _)

theorem State.cur_advance (t : State) : t.advance.cur = t.cur := by
  unfold State.advance; dsimp only
  split
  · rfl
  · split <;> rfl

theorem State.cur_writeNb (s : State) (i : Instr) (b : Bool) : (s.writeNb i b).cur = s.cur := by
  unfold State.writeNb; split <;> rfl

theorem State.cur_doPops (s : State) (i : Instr) : (s.doPops i).cur = s.cur := by
  unfold State.doPops
  generalize popsOf i = l
  induction l generalizing s with
  | nil => rfl
  | cons p l ih => rw [List.foldl_cons, ih]; rfl

theorem State.cur_close (t s : State) (i : Instr) : (t.close s i).cur = t.cur := by
  unfold State.close
  rw [State.cur_advance, State.cur_writeNb, State.cur_doPops]
  split
  · rfl
  · exact congrArg (·.2.1) (State.kept_freeSlots t s.bun)

end Sys2Proof.Machine
end

