-- ==== Sys2Proof/Laws/Write.lean ====
section
/-!
SUPPORT. What a result leaves in the lanes of its destination (04 R114, 11 R249), and in the k registers (02 R52).
-/
namespace Sys2Proof.Machine

/-! ## Widths -/

@[simp] theorem State.w_setBun (s : State) (x : Bundle) : (s.setBun x).grp.w = s.grp.w := by simp
@[simp] theorem State.w_setStr (s : State) (x : Stream) : (s.setStr x).grp.w = s.grp.w := by simp

theorem State.w_advance (t : State) : t.advance.grp.w = t.grp.w := by
  unfold State.advance; dsimp only
  split
  · rfl
  · split <;> exact State.w_setStr _ _

theorem State.w_writeNb (s : State) (i : Instr) (b : Bool) : (s.writeNb i b).grp.w = s.grp.w := by
  unfold State.writeNb; split
  · exact State.w_setStr _ _
  · rfl

theorem State.w_doPops (s : State) (i : Instr) : (s.doPops i).grp.w = s.grp.w := by
  unfold State.doPops
  generalize popsOf i = l
  induction l generalizing s with
  | nil => rfl
  | cons p l ih => rw [List.foldl_cons, ih]; exact State.w_setBun _ _

theorem State.w_close (t s : State) (i : Instr) : (t.close s i).grp.w = t.grp.w := by
  unfold State.close
  rw [State.w_advance, State.w_writeNb, State.w_doPops]
  split
  · rfl
  · exact congrArg (·.2.2) (State.kept_freeSlots t s.bun)

/-! ## Reading a register -/

theorem not_isQ {d : Nat} (h : d < 0x70) : isQ d = false := by simp [isQ]; omega

/-- Reading a register that stands in place looks at the registers only. -/
theorem State.readWord_congr {s t : State} {d : Nat} (hr : s.regs = t.regs) (hc : s.cur = t.cur) (hw : s.grp.w = t.grp.w)
    (hp : s.plainDes d = true) : s.readWord d 0 = t.readWord d 0 := by
  have hv : s.bun.v = t.bun.v := congrArg (·.1) hr
  have ho : s.bun.o = t.bun.o := congrArg (·.2.1) hr
  have hx : s.str.x = t.str.x := congrArg (·.2.2.2.2.1) hr
  unfold State.plainDes at hp
  unfold State.readWord
  have hq : isQ d = false := by
    apply not_isQ; split at hp <;> simp at hp <;> omega
  simp only [hq, ← hc]
  cases ha : s.cur.acc
  · simp only [ha] at hp ⊢
    simp only [Bool.false_eq_true, if_false, Bool.or_eq_true, Bool.and_eq_true, decide_eq_true_eq] at hp
    by_cases hd : d < 0x60
    · have hin : s.inPlace d = true := by rcases hp with hp | hp; exact hp.2; omega
      simp only [Bool.false_eq_true, if_false, hd, if_true, Nat.add_zero]
      have he : s.bun.vreg d = t.bun.vreg d := by simp [Bundle.vreg, hv]
      unfold State.inPlace at hin
      unfold State.readV
      rw [← he]
      cases hvr : s.bun.vreg d with
      | val x => rfl
      | spilled j => simp [hvr] at hin
    · have h67 : d ≤ 0x67 := by omega
      simp [hd, h67, ho, hw]
  · simp [State.readX, hx]

/-! ## Partial writes -/

theorem onesMask_bit {w j : Nat} (h : j < w) (h64 : j < 64) : (onesMask w).getLsbD j = true := by
  simp [onesMask, BitVec.getLsbD_ofNat, h64, Nat.testBit_two_pow_sub_one, h]

theorem wordAt_map_range {n j : Nat} (f : Nat → Word) (h : j < n) : wordAt ((List.range n).map f) j = f j := by
  simp [wordAt, h]

/-- The lanes of a partial write (04 R114). -/
theorem mergeVal_lane {exec : DWord} {w j : Nat} {old new : Val} (hj : j < w) (h64 : j < 64) :
    (mergeVal exec w old new).lane j = if exec.getLsbD j then new.lane j else old.lane j := by
  unfold mergeVal
  split
  · rename_i h; subst h; simp [onesMask_bit hj h64]
  · split
    · rename_i h; subst h; simp
    · simp only [Val.lane]
      rw [wordAt_map_range _ hj]

/-- A word of a destination, in the lanes EXEC selects; the others keep what they held (04 R114, 11 R249). -/
theorem State.readWord_writeWord {s : State} {d : Nat} {v : Val} {j : Nat} (hd : if s.cur.acc then d < 0x20 else d < 0x68)
    (hj : j < s.lanes) (h64 : j < 64) :
    ((s.writeWord d 0 v).readWord d 0).lane j = if s.exec0.getLsbD j then v.lane j else (s.readWord d 0).lane j := by
  have hq : isQ d = false := by apply not_isQ; split at hd <;> omega
  unfold State.writeWord
  simp only [hq, Bool.false_eq_true, if_false]
  cases ha : s.cur.acc
  · simp only [ha, Bool.false_eq_true, if_false, State.lanes] at hd hj ⊢
    by_cases hv : d < 0x60
    · simp only [hv, if_true, Nat.add_zero]
      by_cases he : s.exec0 = 0
      · simp [State.writeV, he]
      · simp only [State.writeV, he, if_false, State.readWord, hq, Bool.false_eq_true, State.setBun_cur, ha, hv, if_true,
          Nat.add_zero]
        rw [← mergeVal_lane (old := s.readV d) (new := v) (exec := s.exec0) hj h64]
        simp [State.readV, Bundle.vreg]
    · have h67 : d ≤ 0x67 := by omega
      simp only [hv, if_false, h67, if_true, State.writeO, State.readWord, hq, Bool.false_eq_true, State.setBun_cur, ha,
        State.bun_setBun, Tab.get_put_self, Val.lane]
      rw [wordAt_map_range _ hj]
  · simp only [ha, if_true, State.lanes] at hd hj ⊢
    have : j = 0 := by omega
    subst this
    cases he : s.exec0.getLsbD 0
    · simp
    · simp [State.writeX, State.readWord, hq, ha, State.readX, Val.lane]

/-- The last-result file takes a result and leaves every register. -/
theorem State.enterLast_regs (s : State) (v : Val) : (s.enterLast v).bun.v = s.bun.v ∧ (s.enterLast v).bun.o = s.bun.o ∧
    (s.enterLast v).str = s.str ∧ (s.enterLast v).cur = s.cur ∧ (s.enterLast v).grp.w = s.grp.w := by
  unfold State.enterLast
  split
  · exact ⟨rfl, rfl, rfl, rfl, rfl⟩
  · refine ⟨by simp, by simp, ?_, rfl, by simp⟩
    rw [State.str_setBun, ← State.bun_stream]
    cases s.cur.acc <;> rfl

theorem State.enterLasts_regs (vs : List Val) : ∀ s : State, (vs.foldl State.enterLast s).bun.v = s.bun.v ∧
    (vs.foldl State.enterLast s).bun.o = s.bun.o ∧ (vs.foldl State.enterLast s).str = s.str ∧
    (vs.foldl State.enterLast s).cur = s.cur ∧ (vs.foldl State.enterLast s).grp.w = s.grp.w := by
  induction vs with
  | nil => intro s; exact ⟨rfl, rfl, rfl, rfl, rfl⟩
  | cons v vs ih =>
    intro s
    obtain ⟨h1, h2, h3, h4, h5⟩ := ih (s.enterLast v)
    obtain ⟨g1, g2, g3, g4, g5⟩ := s.enterLast_regs v
    exact ⟨h1.trans g1, h2.trans g2, h3.trans g3, h4.trans g4, h5.trans g5⟩

/-! ## The budget of G slots -/

/-- Registers a put may add to those that hold general values. -/
theorem residents_put (t : Tab VReg) (r : Nat) (x : VReg) :
    ((Tab.put t r x).filter fun e => e.2.resident).length ≤ (t.filter fun e => e.2.resident).length + 1 := by
  induction t with
  | nil => simp only [Tab.put, List.filter]; split <;> simp
  | cons e t ih =>
    obtain ⟨j, y⟩ := e
    simp only [Tab.put]
    split
    · simp only [List.filter]; split <;> simp
    · split
      · simp only [List.filter]; split <;> split <;> simp <;> omega
      · simp only [List.filter]; split <;> simp_all

theorem residents_put_plain (t : Tab VReg) (r : Nat) (x : VReg) (hx : x.resident = false) :
    ((Tab.put t r x).filter fun e => e.2.resident).length ≤ (t.filter fun e => e.2.resident).length := by
  induction t with
  | nil => simp [Tab.put, hx]
  | cons e t ih =>
    obtain ⟨j, y⟩ := e
    simp only [Tab.put]
    split
    · simp [hx]
    · split
      · simp only [List.filter, hx]; split <;> simp
      · simp only [List.filter]; split <;> simp_all

theorem Bundle.residents_length (b : Bundle) : b.residents.length = (b.v.filter fun e => e.2.resident).length := by
  simp [Bundle.residents]

/-- A stronger predicate keeps no more members. -/
theorem length_filter_le (l : List Nat) (p q : Nat → Bool) (h : ∀ k ∈ l, q k = true → p k = true) :
    (l.filter q).length ≤ (l.filter p).length := by
  rw [← List.countP_eq_length_filter, ← List.countP_eq_length_filter]
  exact List.countP_mono_left h

/-- A list without repeats of which a predicate gains at most one member. -/
theorem length_filter_le_succ (l : List Nat) (hl : l.Nodup) (p q : Nat → Bool) (r : Nat) (h : ∀ k, k ≠ r → q k = true → p k = true) :
    (l.filter q).length ≤ (l.filter p).length + 1 := by
  induction l with
  | nil => simp
  | cons k l ih =>
    have ⟨hk, hl⟩ := List.nodup_cons.mp hl
    by_cases hr : k = r
    · have := length_filter_le l p q fun j hj hq => h j (fun e => hk (by rw [hr, ← e]; exact hj)) hq
      simp only [List.filter]; cases q k <;> cases p k <;> simp <;> omega
    · have := ih hl
      simp only [List.filter]
      cases hq : q k
      · cases p k <;> simp <;> omega
      · simp [h k hr hq]; omega

/-- The G slots a bundle of width w holds (04 R115). -/
def Bundle.slots (b : Bundle) (w : Nat) : Nat := b.residents.length + (b.coming w).length

/-- A register written takes at most one slot more. -/
theorem Bundle.slots_put (b c : Bundle) (w r : Nat) (x : VReg) (hv : c.v = Tab.put b.v r x) (ht : c.toks = b.toks)
    (hr : c.traces = b.traces) (hl : c.lists = b.lists) : c.slots w ≤ b.slots w + 1 := by
  have ha : ∀ k, c.awaited w k = b.awaited w k := fun k => by simp [Bundle.awaited, ht, hr, hl]
  have hne : ∀ k, k ≠ r → c.vreg k = b.vreg k := fun k hk => by simp [Bundle.vreg, hv, Tab.get_put_ne _ _ _ hk]
  have hself : c.vreg r = x := by simp [Bundle.vreg, hv]
  unfold Bundle.slots Bundle.coming
  rw [Bundle.residents_length, Bundle.residents_length, hv]
  cases hx : x.resident
  · have h1 := residents_put_plain b.v r x hx
    have h2 := length_filter_le_succ (List.range 0x60) List.nodup_range (fun k => b.awaited w k && !(b.vreg k).resident)
      (fun k => c.awaited w k && !(c.vreg k).resident) r (fun k hk hq => by rw [ha, hne k hk] at hq; exact hq)
    omega
  · have h1 := residents_put b.v r x
    have h2 : ((List.range 0x60).filter fun k => c.awaited w k && !(c.vreg k).resident).length ≤
        ((List.range 0x60).filter fun k => b.awaited w k && !(b.vreg k).resident).length := by
      refine length_filter_le _ _ _ (fun k _ hq => ?_)
      by_cases hk : k = r
      · subst hk; simp [hself, hx] at hq
      · rw [ha, hne k hk] at hq; exact hq
    omega

theorem State.slotsHeld_eq (s : State) : s.slotsHeld = s.bun.slots s.grp.w := rfl

/-- What a word may change of what the budget looks at: n more registers that hold or await general values, and nothing else. -/
def State.grows (s t : State) (n : Nat) : Prop :=
  t.cur = s.cur ∧ t.bun.started = s.bun.started ∧ t.budget t.grp = s.budget s.grp ∧ t.slotsHeld ≤ s.slotsHeld + n

theorem State.grows_refl (s : State) : s.grows s 0 := ⟨rfl, rfl, rfl, Nat.le_refl _⟩

theorem State.grows_trans {s t u : State} {m n : Nat} (h : s.grows t m) (g : t.grows u n) : s.grows u (m + n) := by
  obtain ⟨a1, a2, a3, a4⟩ := h
  obtain ⟨b1, b2, b3, b4⟩ := g
  exact ⟨b1.trans a1, b2.trans a2, b3.trans a3, by omega⟩

theorem State.grows.mono {s t : State} {m n : Nat} (h : s.grows t m) (hn : m ≤ n) : s.grows t n :=
  ⟨h.1, h.2.1, h.2.2.1, by have := h.2.2.2; omega⟩

/-- A word for whose results there is room needs no spill. -/
theorem State.fits_room {s t : State} {i : Instr} {n : Nat} (h : s.room i = true) (hg : s.grows t n) (hn : n ≤ vWords i) :
    t.fits = true := by
  obtain ⟨h1, h2, h3, h4⟩ := hg
  simp only [State.room, State.fits, Bool.or_eq_true, decide_eq_true_eq, h1, h2, h3] at h ⊢
  rcases h with h | h
  · exact .inl h
  · exact .inr (by omega)

theorem State.grows_setBun (s : State) (b : Bundle) (hs : b.started = s.bun.started) {n : Nat}
    (hr : b.slots s.grp.w ≤ s.bun.slots s.grp.w + n) : s.grows (s.setBun b) n := by
  refine ⟨rfl, by simp [hs], ?_, ?_⟩
  · simp [State.budget, State.nodeRec]
  · rw [State.slotsHeld_eq, State.slotsHeld_eq]; simpa using hr

theorem State.grows_setBun_v (s : State) (b : Bundle) (hs : b.started = s.bun.started) (hv : b.v = s.bun.v)
    (ht : b.toks = s.bun.toks := by rfl) (hr : b.traces = s.bun.traces := by rfl) (hl : b.lists = s.bun.lists := by rfl) :
    s.grows (s.setBun b) 0 := by
  refine State.grows_setBun s b hs (Nat.le_of_eq ?_)
  simp [Bundle.slots, Bundle.residents, Bundle.coming, Bundle.awaited, Bundle.vreg, hv, ht, hr, hl]

theorem State.grows_setStr (s : State) (y : Stream) : s.grows (s.setStr y) 0 := by
  refine ⟨rfl, ?_, by simp [State.budget, State.nodeRec], ?_⟩
  · simp only [State.bun_setStr]; cases s.cur.acc <;> rfl
  · rw [State.slotsHeld_eq, State.slotsHeld_eq]
    simp only [State.bun_setStr, State.w_setStr, Nat.add_zero]; cases s.cur.acc <;> exact Nat.le_refl _

theorem State.grows_writeK (s : State) (n : Nat) (x : DWord) : s.grows (s.writeK n x) 0 := State.grows_setStr _ _

theorem State.grows_writeWord (s : State) (d j : Nat) (v : Val) : s.grows (s.writeWord d j v) (if d < 0x60 then 1 else 0) := by
  unfold State.writeWord
  split
  · rename_i hq
    have : ¬ d < 0x60 := by simp [isQ] at hq; omega
    simp only [this, if_false]
    exact State.grows_setBun_v _ _ rfl rfl
  · split
    · split
      · exact (State.grows_setStr _ _).mono (Nat.zero_le _)
      · exact (State.grows_refl s).mono (Nat.zero_le _)
    · split
      · rename_i hd
        unfold State.writeV
        split
        · exact (State.grows_refl s).mono (Nat.zero_le _)
        · refine State.grows_setBun s _ (by rfl) ?_
          exact Bundle.slots_put _ _ _ _ _ rfl rfl rfl rfl
      · split
        · exact State.grows_setBun_v _ _ rfl rfl
        · exact State.grows_refl s

theorem State.grows_foldl {α : Type} (f : State → α → State) (n : Nat) (h : ∀ (s : State) a, s.grows (f s a) n) :
    ∀ (l : List α) (s : State), s.grows (l.foldl f s) (n * l.length)
  | [], s => s.grows_refl
  | a :: l, s => by
    rw [List.foldl_cons]
    refine (State.grows_trans (h s a) (State.grows_foldl f n h l _)).mono ?_
    simp only [List.length_cons, Nat.mul_succ]; omega

theorem State.grows_writeN (s : State) (d : BitVec 7) (vs : List Val) :
    s.grows (s.writeN d vs) (if d.toNat < 0x60 then vs.length else 0) := by
  unfold State.writeN
  refine (State.grows_foldl _ (if d.toNat < 0x60 then 1 else 0) (fun s j => State.grows_writeWord s d.toNat j _) _ s).mono ?_
  split <;> simp

theorem State.grows_enterLast (s : State) (v : Val) : s.grows (s.enterLast v) 0 := by
  unfold State.enterLast
  split
  · exact s.grows_refl
  · exact State.grows_setBun_v _ _ rfl rfl

/-- A result written adds to the general values the words of its destination, at most. -/
theorem State.grows_aluWrite (s : State) (d : BitVec 7) (vs : List Val) :
    s.grows (s.aluWrite d vs) (if d.toNat < 0x60 then vs.length else 0) := by
  unfold State.aluWrite
  refine (State.grows_trans (s.grows_writeN d vs)
    (State.grows_foldl _ 0 (fun s v => State.grows_enterLast s v) vs _)).mono ?_
  simp

theorem State.grows_writeAll (s : State) (d j : Nat) (x : Word) : s.grows (s.writeAll d j x) (if isQ d then 0 else 1) := by
  unfold State.writeAll
  split
  · exact State.grows_setBun_v _ _ rfl rfl
  · split
    · exact (State.grows_setStr _ _).mono (Nat.zero_le _)
    · refine State.grows_setBun s _ (by rfl) ?_
      exact Bundle.slots_put _ _ _ _ _ rfl rfl rfl rfl

end Sys2Proof.Machine
end

