-- ==== Sys2Proof/Laws/Alu.lean ====
section
/-!
SUPPORT. Lane by lane, what the shared operations of the ALU class give (02 R57, 04 R112), and that their words complete.
-/
namespace Sys2Proof.Machine

theorem State.lane_map1 (s : State) (f : Word → Word) (x : Val) {j : Nat} (h : j < s.lanes) :
    (s.map1 f x).lane j = f (x.lane j) := by
  cases x <;> simp [State.map1, Val.lane, wordAt_map_range _ h]

theorem State.lane_map2 (s : State) (f : Word → Word → Word) (x y : Val) {j : Nat} (h : j < s.lanes) :
    (s.map2 f x y).lane j = f (x.lane j) (y.lane j) := by
  cases x <;> cases y <;> simp [State.map2, Val.lane, wordAt_map_range _ h]

theorem State.lane_map3 (s : State) (f : Word → Word → Word → Word) (x y z : Val) {j : Nat} (h : j < s.lanes) :
    (s.map3 f x y z).lane j = f (x.lane j) (y.lane j) (z.lane j) := by
  cases x <;> cases y <;> cases z <;> simp [State.map3, Val.lane, wordAt_map_range _ h]

/-- A sum keeps affine shape lane by lane (04 R112). -/
theorem State.lane_affAdd (s : State) (x y : Val) {j : Nat} (h : j < s.lanes) :
    (s.affAdd (· + ·) x y).lane j = x.lane j + y.lane j := by
  cases x <;> cases y <;> first
    | (simp only [State.affAdd, Val.lane]; ring; done)
    | (simp only [State.affAdd]; exact State.lane_map2 s (· + ·) _ _ h)

/-- So does a difference. -/
theorem State.lane_affSub (s : State) (x y : Val) {j : Nat} (h : j < s.lanes) :
    (s.affAdd (· - ·) x y).lane j = x.lane j - y.lane j := by
  cases x <;> cases y <;> first
    | (simp only [State.affAdd, Val.lane]; ring; done)
    | (simp only [State.affAdd]; exact State.lane_map2 s (· - ·) _ _ h)

/-- A product by a uniform factor keeps affine shape. -/
theorem State.lane_affMul (s : State) (x y : Val) {j : Nat} (h : j < s.lanes) :
    (s.affScale (· * ·) x y).lane j = x.lane j * y.lane j := by
  cases x <;> cases y <;> first
    | (simp only [State.affScale, Val.lane]; ring; done)
    | (simp only [State.affScale]; exact State.lane_map2 s (· * ·) _ _ h)

/-- A left shift by a uniform count keeps affine shape. -/
theorem State.lane_affShl (s : State) (x y : Val) {j : Nat} (h : j < s.lanes) :
    (s.affScale shlOp x y).lane j = shlOp (x.lane j) (y.lane j) := by
  cases x <;> cases y <;> first
    | (simp only [State.affScale, Val.lane, shlOp, BitVec.shiftLeft_eq_mul_twoPow]; ring; done)
    | (simp only [State.affScale]; exact State.lane_map2 s shlOp _ _ h)

theorem pair64_halves (x : DWord) : pair64 (x.setWidth 32) (x.extractLsb' 32 32) = x := by
  apply BitVec.eq_of_getLsbD_eq
  intro i hi
  simp only [pair64, BitVec.getLsbD_append, BitVec.getLsbD_setWidth, BitVec.getLsbD_extractLsb']
  by_cases h : i < 32
  · simp [h]
  · have : 32 + (i - 32) = i := by omega
    have : i - 32 < 32 := by omega
    simp [*]

/-- The two words of a 64-bit lane result. -/
theorem State.lane_pairOut (s : State) (u : Bool) (f : Nat → DWord) {j : Nat} (h : j < s.lanes) (hu : u = true → f j = f 0) :
    pairLane (s.pairOut u f) j = f j := by
  cases u
  · simp only [State.pairOut, pairLane, Val.lane, Bool.false_eq_true, if_false, List.getD_cons_zero, List.getD_cons_succ,
      wordAt_map_range _ h, pair64_halves]
  · rw [hu rfl]
    simp only [State.pairOut, pairLane, Val.lane, if_true, List.getD_cons_zero, List.getD_cons_succ, pair64_halves]

/-- An instruction that writes one register result completes. -/
theorem exec_alu {s : State} {i : Instr} {d : BitVec 7} {vs : List Val} (hk : (classOf i).isSome = true)
    (hc : s.clear i = true) (hr : s.room i = true) (hp : perform i s.tick = .done (s.tick.aluWrite d vs))
    (hw : (if d.toNat < 0x60 then vs.length else 0) ≤ vWords i) :
    exec i s = .next ((s.tick.aluWrite d vs).close s.tick i) := by
  rw [exec_word i hk]
  exact runWord_done hc hp (State.fits_room (s := s.tick) (i := i) hr (State.grows_aluWrite s.tick d vs) hw)

/-- An instruction whose own effect adds no general value completes. -/
theorem exec_quiet {s t : State} {i : Instr} (hk : (classOf i).isSome = true) (hc : s.clear i = true) (hr : s.room i = true)
    (hp : perform i s.tick = .done t) (hg : s.tick.grows t 0) : exec i s = .next (t.close s.tick i) := by
  rw [exec_word i hk]
  exact runWord_done hc hp (State.fits_room (s := s.tick) (i := i) hr hg (Nat.zero_le _))

end Sys2Proof.Machine
end

