-- ==== Sys2Proof/Laws/PerInstr.lean ====
section
/-!
SUPPORT. The encoder and the decoder agree, instruction by instruction (01 R28 to R45): family Encoding of LAWS.json.
-/
namespace Sys2Proof.Laws

section
set_option Elab.async false

/-! ## Fields of a word put together from its parts -/

theorem extr_hi {n m : Nat} (x : BitVec n) (y : BitVec m) (l k : Nat) (h : m ≤ l) :
    (x ++ y).extractLsb' l k = x.extractLsb' (l - m) k := by
  ext i hi
  have : ¬ l + i < m := by omega
  simp only [BitVec.getElem_extractLsb', BitVec.getLsbD_append, this, if_false]
  congr 1; omega

theorem extr_lo {n m : Nat} (x : BitVec n) (y : BitVec m) (l k : Nat) (h : l + k ≤ m) :
    (x ++ y).extractLsb' l k = y.extractLsb' l k := by
  ext i hi
  have : l + i < m := by omega
  simp only [BitVec.getElem_extractLsb', BitVec.getLsbD_append, this, if_true]

theorem extr_all {n : Nat} (x : BitVec n) : x.extractLsb' 0 n = x := by
  ext i hi; simp

theorem decode_rrr {w : Word} (h : w.extractLsb' 30 2 = 0#2) : decode w = decodeRRR w := by unfold decode; rw [h]; rfl
theorem decode_01 {w : Word} (h : w.extractLsb' 30 2 = 1#2) : decode w = decode01 w := by unfold decode; rw [h]; rfl
theorem decode_10 {w : Word} (h : w.extractLsb' 30 2 = 2#2) : decode w = decode10 w := by unfold decode; rw [h]; rfl

namespace Encoding

/-- A word of a clause decodes, from the bits the encoder gives it, to itself with every operand it had. -/
def Statement (i : Instr) : Prop := (Machine.classOf i).isSome = true → (encode i).bind decode = some i

theorem clauseIssue (g : Nat) (b : Nat) (acc : Bool) : Statement (.clauseIssue g b acc) := nofun
theorem clauseCompletion (g : Nat) (b : Nat) (acc : Bool) (c : Nat) : Statement (.clauseCompletion g b acc c) := nofun
theorem sourcesRead (g : Nat) (b : Nat) (acc : Bool) (c : Nat) : Statement (.sourcesRead g b acc c) := nofun
theorem estContributionApply (k : Nat) : Statement (.estContributionApply k) := nofun
theorem overlayEviction (line : Nat) : Statement (.overlayEviction line) := nofun
theorem sfiResult (g : Nat) (b : Nat) (z : Nat) : Statement (.sfiResult g b z) := nofun
theorem slotFill (g : Nat) (n : Nat) : Statement (.slotFill g n) := nofun
theorem slotDrain (g : Nat) (n : Nat) : Statement (.slotDrain g n) := nofun
theorem walkPoint (g : Nat) (b : Nat) (w : Nat) : Statement (.walkPoint g b w) := nofun
theorem sortPass (g : Nat) (n : Nat) : Statement (.sortPass g n) := nofun
theorem binCompletion (g : Nat) (n : Nat) : Statement (.binCompletion g n) := nofun
theorem mmaChunk (g : Nat) (t : Nat) : Statement (.mmaChunk g t) := nofun
theorem mdrainRow (g : Nat) (t : Nat) : Statement (.mdrainRow g t) := nofun
theorem traceCompletion (g : Nat) (b : Nat) (n : Nat) : Statement (.traceCompletion g b n) := nofun
theorem freshBundleDraw (g : Nat) : Statement (.freshBundleDraw g) := nofun
theorem reformageExpiry (g : Nat) (key : Nat) : Statement (.reformageExpiry g key) := nofun
theorem starvationPromotion (g : Nat) (b : Nat) : Statement (.starvationPromotion g b) := nofun
theorem waitaPoll (g : Nat) (b : Nat) (acc : Bool) : Statement (.waitaPoll g b acc) := nofun
theorem acquireGrant (core : Nat) : Statement (.acquireGrant core) := nofun
theorem groupAdmission (g : Nat) (core : Nat) : Statement (.groupAdmission g core) := nofun
theorem binTimerExpiry (node : Nat) : Statement (.binTimerExpiry node) := nofun
theorem groupSave (g : Nat) : Statement (.groupSave g) := nofun
theorem groupRestore (g : Nat) (core : Nat) : Statement (.groupRestore g core) := nofun
theorem replyEntryWrite (m : Nat) : Statement (.replyEntryWrite m) := nofun
theorem record (m : Nat) (hdr : DWord) (words : List Word) : Statement (.record m hdr words) := nofun
theorem bind (m : Nat) (hdr : DWord) (words : List Word) : Statement (.bind m hdr words) := nofun
theorem replycfg (m : Nat) (hdr : DWord) (words : List Word) : Statement (.replycfg m hdr words) := nofun
theorem load (m : Nat) (hdr : DWord) (words : List Word) : Statement (.load m hdr words) := nofun
theorem preempt (m : Nat) (hdr : DWord) (words : List Word) : Statement (.preempt m hdr words) := nofun
theorem withdraw (m : Nat) (hdr : DWord) (words : List Word) : Statement (.withdraw m hdr words) := nofun
theorem attest (m : Nat) (hdr : DWord) (words : List Word) : Statement (.attest m hdr words) := nofun
theorem restart (m : Nat) (hdr : DWord) (words : List Word) : Statement (.restart m hdr words) := nofun
theorem replayall (c : Nat) : Statement (.replayall c) := nofun
theorem fail (c : Nat) : Statement (.fail c) := nofun
theorem fbgetWrite (c : Nat) (v : BitVec 32) : Statement (.fbgetWrite c v) := nofun
theorem fbstatClear (c : Nat) : Statement (.fbstatClear c) := nofun
theorem replygetWrite (m : Nat) (v : BitVec 32) : Statement (.replygetWrite m v) := nofun
theorem rdropClear (m : Nat) : Statement (.rdropClear m) := nofun
theorem stalecntClear (n : Nat) : Statement (.stalecntClear n) := nofun
theorem orderrClear (n : Nat) : Statement (.orderrClear n) := nofun
theorem lossesClear (n : Nat) : Statement (.lossesClear n) := nofun
theorem dropwrClear (p : Nat) : Statement (.dropwrClear p) := nofun
theorem retriesClear (p : Nat) : Statement (.retriesClear p) := nofun
theorem hashDescriptorWrite (off : Nat) (size : Nat) (v : DWord) : Statement (.hashDescriptorWrite off size v) := nofun
theorem registerWrite (off : Nat) (size : Nat) (v : DWord) : Statement (.registerWrite off size v) := nofun
theorem peerRequest (p : Nat) (req : PeerReq) : Statement (.peerRequest p req) := nofun
theorem flitReplay (p : Nat) : Statement (.flitReplay p) := nofun
theorem linkDown (p : Nat) : Statement (.linkDown p) := nofun
theorem linkUp (p : Nat) (peer : BitVec 12) : Statement (.linkUp p peer) := nofun
theorem hostHdmAccess (write : Bool) (addr : Nat) (data : List (BitVec 8)) : Statement (.hostHdmAccess write addr data) := nofun
theorem collTransfer (p : Nat) (x : CollXfer) : Statement (.collTransfer p x) := nofun
theorem timingDetectorFire (core : Nat) (n : Nat) : Statement (.timingDetectorFire core n) := nofun
theorem correctedError (stack : Nat) (bank : Nat) (row : Nat) (col : Nat) : Statement (.correctedError stack bank row col) := nofun
theorem bankMigrationChunk (stack : Nat) : Statement (.bankMigrationChunk stack) := nofun
theorem deviceReset (runs : List StartRun) : Statement (.deviceReset runs) := nofun
theorem iadd (n : BitVec 1) (m : BitVec 2) (d : BitVec 7) (a : BitVec 7) (b : BitVec 7) : Statement (.iadd n m d a b) := by
  intro _
  show decode (0x0#8 ++ n ++ m ++ d ++ a ++ b) = _
  generalize hw : (0x0#8 ++ n ++ m ++ d ++ a ++ b) = w
  have h1 : w.extractLsb' 30 2 = 0#2 := by rw [← hw]; simp (disch := decide) only [extr_hi, Nat.reduceSub]; rfl
  have h2 : w.extractLsb' 24 6 = 0#6 := by rw [← hw]; simp (disch := decide) only [extr_hi, Nat.reduceSub]; rfl
  rw [decode_rrr h1]; unfold decodeRRR; rw [h2]
  simp only [BitVec.toNat_ofNat]
  rw [← hw]
  simp (disch := decide) only [extr_hi, extr_lo, extr_all, Nat.reduceSub]
  try rfl
theorem isub (n : BitVec 1) (m : BitVec 2) (d : BitVec 7) (a : BitVec 7) (b : BitVec 7) : Statement (.isub n m d a b) := by
  intro _
  show decode (0x1#8 ++ n ++ m ++ d ++ a ++ b) = _
  generalize hw : (0x1#8 ++ n ++ m ++ d ++ a ++ b) = w
  have h1 : w.extractLsb' 30 2 = 0#2 := by rw [← hw]; simp (disch := decide) only [extr_hi, Nat.reduceSub]; rfl
  have h2 : w.extractLsb' 24 6 = 1#6 := by rw [← hw]; simp (disch := decide) only [extr_hi, Nat.reduceSub]; rfl
  rw [decode_rrr h1]; unfold decodeRRR; rw [h2]
  simp only [BitVec.toNat_ofNat]
  rw [← hw]
  simp (disch := decide) only [extr_hi, extr_lo, extr_all, Nat.reduceSub]
  try rfl
theorem imul (n : BitVec 1) (d : BitVec 7) (a : BitVec 7) (b : BitVec 7) : Statement (.imul n d a b) := by
  intro _
  show decode (0x2#8 ++ n ++ 0x0#2 ++ d ++ a ++ b) = _
  generalize hw : (0x2#8 ++ n ++ 0x0#2 ++ d ++ a ++ b) = w
  have h1 : w.extractLsb' 30 2 = 0#2 := by rw [← hw]; simp (disch := decide) only [extr_hi, Nat.reduceSub]; rfl
  have h2 : w.extractLsb' 24 6 = 2#6 := by rw [← hw]; simp (disch := decide) only [extr_hi, Nat.reduceSub]; rfl
  rw [decode_rrr h1]; unfold decodeRRR; rw [h2]
  simp only [BitVec.toNat_ofNat]
  rw [← hw]
  simp (disch := decide) only [extr_hi, extr_lo, extr_all, Nat.reduceSub]
  try rfl
theorem imulh (n : BitVec 1) (m : BitVec 2) (d : BitVec 7) (a : BitVec 7) (b : BitVec 7) : Statement (.imulh n m d a b) := by
  intro _
  show decode (0x3#8 ++ n ++ m ++ d ++ a ++ b) = _
  generalize hw : (0x3#8 ++ n ++ m ++ d ++ a ++ b) = w
  have h1 : w.extractLsb' 30 2 = 0#2 := by rw [← hw]; simp (disch := decide) only [extr_hi, Nat.reduceSub]; rfl
  have h2 : w.extractLsb' 24 6 = 3#6 := by rw [← hw]; simp (disch := decide) only [extr_hi, Nat.reduceSub]; rfl
  rw [decode_rrr h1]; unfold decodeRRR; rw [h2]
  simp only [BitVec.toNat_ofNat]
  rw [← hw]
  simp (disch := decide) only [extr_hi, extr_lo, extr_all, Nat.reduceSub]
  try rfl
theorem imac (n : BitVec 1) (d : BitVec 7) (a : BitVec 7) (b : BitVec 7) : Statement (.imac n d a b) := by
  intro _
  show decode (0x4#8 ++ n ++ 0x0#2 ++ d ++ a ++ b) = _
  generalize hw : (0x4#8 ++ n ++ 0x0#2 ++ d ++ a ++ b) = w
  have h1 : w.extractLsb' 30 2 = 0#2 := by rw [← hw]; simp (disch := decide) only [extr_hi, Nat.reduceSub]; rfl
  have h2 : w.extractLsb' 24 6 = 4#6 := by rw [← hw]; simp (disch := decide) only [extr_hi, Nat.reduceSub]; rfl
  rw [decode_rrr h1]; unfold decodeRRR; rw [h2]
  simp only [BitVec.toNat_ofNat]
  rw [← hw]
  simp (disch := decide) only [extr_hi, extr_lo, extr_all, Nat.reduceSub]
  try rfl
theorem imin (n : BitVec 1) (m : BitVec 2) (d : BitVec 7) (a : BitVec 7) (b : BitVec 7) : Statement (.imin n m d a b) := by
  intro _
  show decode (0x5#8 ++ n ++ m ++ d ++ a ++ b) = _
  generalize hw : (0x5#8 ++ n ++ m ++ d ++ a ++ b) = w
  have h1 : w.extractLsb' 30 2 = 0#2 := by rw [← hw]; simp (disch := decide) only [extr_hi, Nat.reduceSub]; rfl
  have h2 : w.extractLsb' 24 6 = 5#6 := by rw [← hw]; simp (disch := decide) only [extr_hi, Nat.reduceSub]; rfl
  rw [decode_rrr h1]; unfold decodeRRR; rw [h2]
  simp only [BitVec.toNat_ofNat]
  rw [← hw]
  simp (disch := decide) only [extr_hi, extr_lo, extr_all, Nat.reduceSub]
  try rfl
theorem imax (n : BitVec 1) (m : BitVec 2) (d : BitVec 7) (a : BitVec 7) (b : BitVec 7) : Statement (.imax n m d a b) := by
  intro _
  show decode (0x6#8 ++ n ++ m ++ d ++ a ++ b) = _
  generalize hw : (0x6#8 ++ n ++ m ++ d ++ a ++ b) = w
  have h1 : w.extractLsb' 30 2 = 0#2 := by rw [← hw]; simp (disch := decide) only [extr_hi, Nat.reduceSub]; rfl
  have h2 : w.extractLsb' 24 6 = 6#6 := by rw [← hw]; simp (disch := decide) only [extr_hi, Nat.reduceSub]; rfl
  rw [decode_rrr h1]; unfold decodeRRR; rw [h2]
  simp only [BitVec.toNat_ofNat]
  rw [← hw]
  simp (disch := decide) only [extr_hi, extr_lo, extr_all, Nat.reduceSub]
  try rfl
theorem iadd64 (n : BitVec 1) (d : BitVec 7) (a : BitVec 7) (b : BitVec 7) : Statement (.iadd64 n d a b) := by
  intro _
  show decode (0x7#8 ++ n ++ 0x0#2 ++ d ++ a ++ b) = _
  generalize hw : (0x7#8 ++ n ++ 0x0#2 ++ d ++ a ++ b) = w
  have h1 : w.extractLsb' 30 2 = 0#2 := by rw [← hw]; simp (disch := decide) only [extr_hi, Nat.reduceSub]; rfl
  have h2 : w.extractLsb' 24 6 = 7#6 := by rw [← hw]; simp (disch := decide) only [extr_hi, Nat.reduceSub]; rfl
  rw [decode_rrr h1]; unfold decodeRRR; rw [h2]
  simp only [BitVec.toNat_ofNat]
  rw [← hw]
  simp (disch := decide) only [extr_hi, extr_lo, extr_all, Nat.reduceSub]
  try rfl
theorem isub64 (n : BitVec 1) (d : BitVec 7) (a : BitVec 7) (b : BitVec 7) : Statement (.isub64 n d a b) := by
  intro _
  show decode (0x8#8 ++ n ++ 0x0#2 ++ d ++ a ++ b) = _
  generalize hw : (0x8#8 ++ n ++ 0x0#2 ++ d ++ a ++ b) = w
  have h1 : w.extractLsb' 30 2 = 0#2 := by rw [← hw]; simp (disch := decide) only [extr_hi, Nat.reduceSub]; rfl
  have h2 : w.extractLsb' 24 6 = 8#6 := by rw [← hw]; simp (disch := decide) only [extr_hi, Nat.reduceSub]; rfl
  rw [decode_rrr h1]; unfold decodeRRR; rw [h2]
  simp only [BitVec.toNat_ofNat]
  rw [← hw]
  simp (disch := decide) only [extr_hi, extr_lo, extr_all, Nat.reduceSub]
  try rfl
theorem and (n : BitVec 1) (d : BitVec 7) (a : BitVec 7) (b : BitVec 7) : Statement (.and n d a b) := by
  intro _
  show decode (0x9#8 ++ n ++ 0x0#2 ++ d ++ a ++ b) = _
  generalize hw : (0x9#8 ++ n ++ 0x0#2 ++ d ++ a ++ b) = w
  have h1 : w.extractLsb' 30 2 = 0#2 := by rw [← hw]; simp (disch := decide) only [extr_hi, Nat.reduceSub]; rfl
  have h2 : w.extractLsb' 24 6 = 9#6 := by rw [← hw]; simp (disch := decide) only [extr_hi, Nat.reduceSub]; rfl
  rw [decode_rrr h1]; unfold decodeRRR; rw [h2]
  simp only [BitVec.toNat_ofNat]
  rw [← hw]
  simp (disch := decide) only [extr_hi, extr_lo, extr_all, Nat.reduceSub]
  try rfl
theorem or (n : BitVec 1) (d : BitVec 7) (a : BitVec 7) (b : BitVec 7) : Statement (.or n d a b) := by
  intro _
  show decode (0xA#8 ++ n ++ 0x0#2 ++ d ++ a ++ b) = _
  generalize hw : (0xA#8 ++ n ++ 0x0#2 ++ d ++ a ++ b) = w
  have h1 : w.extractLsb' 30 2 = 0#2 := by rw [← hw]; simp (disch := decide) only [extr_hi, Nat.reduceSub]; rfl
  have h2 : w.extractLsb' 24 6 = 10#6 := by rw [← hw]; simp (disch := decide) only [extr_hi, Nat.reduceSub]; rfl
  rw [decode_rrr h1]; unfold decodeRRR; rw [h2]
  simp only [BitVec.toNat_ofNat]
  rw [← hw]
  simp (disch := decide) only [extr_hi, extr_lo, extr_all, Nat.reduceSub]
  try rfl
theorem xor (n : BitVec 1) (d : BitVec 7) (a : BitVec 7) (b : BitVec 7) : Statement (.xor n d a b) := by
  intro _
  show decode (0xB#8 ++ n ++ 0x0#2 ++ d ++ a ++ b) = _
  generalize hw : (0xB#8 ++ n ++ 0x0#2 ++ d ++ a ++ b) = w
  have h1 : w.extractLsb' 30 2 = 0#2 := by rw [← hw]; simp (disch := decide) only [extr_hi, Nat.reduceSub]; rfl
  have h2 : w.extractLsb' 24 6 = 11#6 := by rw [← hw]; simp (disch := decide) only [extr_hi, Nat.reduceSub]; rfl
  rw [decode_rrr h1]; unfold decodeRRR; rw [h2]
  simp only [BitVec.toNat_ofNat]
  rw [← hw]
  simp (disch := decide) only [extr_hi, extr_lo, extr_all, Nat.reduceSub]
  try rfl
theorem andn (n : BitVec 1) (d : BitVec 7) (a : BitVec 7) (b : BitVec 7) : Statement (.andn n d a b) := by
  intro _
  show decode (0xC#8 ++ n ++ 0x0#2 ++ d ++ a ++ b) = _
  generalize hw : (0xC#8 ++ n ++ 0x0#2 ++ d ++ a ++ b) = w
  have h1 : w.extractLsb' 30 2 = 0#2 := by rw [← hw]; simp (disch := decide) only [extr_hi, Nat.reduceSub]; rfl
  have h2 : w.extractLsb' 24 6 = 12#6 := by rw [← hw]; simp (disch := decide) only [extr_hi, Nat.reduceSub]; rfl
  rw [decode_rrr h1]; unfold decodeRRR; rw [h2]
  simp only [BitVec.toNat_ofNat]
  rw [← hw]
  simp (disch := decide) only [extr_hi, extr_lo, extr_all, Nat.reduceSub]
  try rfl
theorem shl (n : BitVec 1) (d : BitVec 7) (a : BitVec 7) (b : BitVec 7) : Statement (.shl n d a b) := by
  intro _
  show decode (0xD#8 ++ n ++ 0x0#2 ++ d ++ a ++ b) = _
  generalize hw : (0xD#8 ++ n ++ 0x0#2 ++ d ++ a ++ b) = w
  have h1 : w.extractLsb' 30 2 = 0#2 := by rw [← hw]; simp (disch := decide) only [extr_hi, Nat.reduceSub]; rfl
  have h2 : w.extractLsb' 24 6 = 13#6 := by rw [← hw]; simp (disch := decide) only [extr_hi, Nat.reduceSub]; rfl
  rw [decode_rrr h1]; unfold decodeRRR; rw [h2]
  simp only [BitVec.toNat_ofNat]
  rw [← hw]
  simp (disch := decide) only [extr_hi, extr_lo, extr_all, Nat.reduceSub]
  try rfl
theorem shr (n : BitVec 1) (d : BitVec 7) (a : BitVec 7) (b : BitVec 7) : Statement (.shr n d a b) := by
  intro _
  show decode (0xE#8 ++ n ++ 0x0#2 ++ d ++ a ++ b) = _
  generalize hw : (0xE#8 ++ n ++ 0x0#2 ++ d ++ a ++ b) = w
  have h1 : w.extractLsb' 30 2 = 0#2 := by rw [← hw]; simp (disch := decide) only [extr_hi, Nat.reduceSub]; rfl
  have h2 : w.extractLsb' 24 6 = 14#6 := by rw [← hw]; simp (disch := decide) only [extr_hi, Nat.reduceSub]; rfl
  rw [decode_rrr h1]; unfold decodeRRR; rw [h2]
  simp only [BitVec.toNat_ofNat]
  rw [← hw]
  simp (disch := decide) only [extr_hi, extr_lo, extr_all, Nat.reduceSub]
  try rfl
theorem sar (n : BitVec 1) (d : BitVec 7) (a : BitVec 7) (b : BitVec 7) : Statement (.sar n d a b) := by
  intro _
  show decode (0xF#8 ++ n ++ 0x0#2 ++ d ++ a ++ b) = _
  generalize hw : (0xF#8 ++ n ++ 0x0#2 ++ d ++ a ++ b) = w
  have h1 : w.extractLsb' 30 2 = 0#2 := by rw [← hw]; simp (disch := decide) only [extr_hi, Nat.reduceSub]; rfl
  have h2 : w.extractLsb' 24 6 = 15#6 := by rw [← hw]; simp (disch := decide) only [extr_hi, Nat.reduceSub]; rfl
  rw [decode_rrr h1]; unfold decodeRRR; rw [h2]
  simp only [BitVec.toNat_ofNat]
  rw [← hw]
  simp (disch := decide) only [extr_hi, extr_lo, extr_all, Nat.reduceSub]
  try rfl
theorem rotl (n : BitVec 1) (d : BitVec 7) (a : BitVec 7) (b : BitVec 7) : Statement (.rotl n d a b) := by
  intro _
  show decode (0x10#8 ++ n ++ 0x0#2 ++ d ++ a ++ b) = _
  generalize hw : (0x10#8 ++ n ++ 0x0#2 ++ d ++ a ++ b) = w
  have h1 : w.extractLsb' 30 2 = 0#2 := by rw [← hw]; simp (disch := decide) only [extr_hi, Nat.reduceSub]; rfl
  have h2 : w.extractLsb' 24 6 = 16#6 := by rw [← hw]; simp (disch := decide) only [extr_hi, Nat.reduceSub]; rfl
  rw [decode_rrr h1]; unfold decodeRRR; rw [h2]
  simp only [BitVec.toNat_ofNat]
  rw [← hw]
  simp (disch := decide) only [extr_hi, extr_lo, extr_all, Nat.reduceSub]
  try rfl
theorem bfx (n : BitVec 1) (m : BitVec 2) (d : BitVec 7) (a : BitVec 7) (b : BitVec 7) : Statement (.bfx n m d a b) := by
  intro _
  show decode (0x11#8 ++ n ++ m ++ d ++ a ++ b) = _
  generalize hw : (0x11#8 ++ n ++ m ++ d ++ a ++ b) = w
  have h1 : w.extractLsb' 30 2 = 0#2 := by rw [← hw]; simp (disch := decide) only [extr_hi, Nat.reduceSub]; rfl
  have h2 : w.extractLsb' 24 6 = 17#6 := by rw [← hw]; simp (disch := decide) only [extr_hi, Nat.reduceSub]; rfl
  rw [decode_rrr h1]; unfold decodeRRR; rw [h2]
  simp only [BitVec.toNat_ofNat]
  rw [← hw]
  simp (disch := decide) only [extr_hi, extr_lo, extr_all, Nat.reduceSub]
  try rfl
theorem bfi (n : BitVec 1) (d : BitVec 7) (a : BitVec 7) (b : BitVec 7) : Statement (.bfi n d a b) := by
  intro _
  show decode (0x12#8 ++ n ++ 0x0#2 ++ d ++ a ++ b) = _
  generalize hw : (0x12#8 ++ n ++ 0x0#2 ++ d ++ a ++ b) = w
  have h1 : w.extractLsb' 30 2 = 0#2 := by rw [← hw]; simp (disch := decide) only [extr_hi, Nat.reduceSub]; rfl
  have h2 : w.extractLsb' 24 6 = 18#6 := by rw [← hw]; simp (disch := decide) only [extr_hi, Nat.reduceSub]; rfl
  rw [decode_rrr h1]; unfold decodeRRR; rw [h2]
  simp only [BitVec.toNat_ofNat]
  rw [← hw]
  simp (disch := decide) only [extr_hi, extr_lo, extr_all, Nat.reduceSub]
  try rfl
theorem popc (n : BitVec 1) (d : BitVec 7) (a : BitVec 7) : Statement (.popc n d a) := by
  intro _
  show decode (0x13#8 ++ n ++ 0x0#2 ++ d ++ a ++ 0x0#7) = _
  generalize hw : (0x13#8 ++ n ++ 0x0#2 ++ d ++ a ++ 0x0#7) = w
  have h1 : w.extractLsb' 30 2 = 0#2 := by rw [← hw]; simp (disch := decide) only [extr_hi, Nat.reduceSub]; rfl
  have h2 : w.extractLsb' 24 6 = 19#6 := by rw [← hw]; simp (disch := decide) only [extr_hi, Nat.reduceSub]; rfl
  rw [decode_rrr h1]; unfold decodeRRR; rw [h2]
  simp only [BitVec.toNat_ofNat]
  rw [← hw]
  simp (disch := decide) only [extr_hi, extr_lo, extr_all, Nat.reduceSub]
  try rfl
theorem clz (n : BitVec 1) (d : BitVec 7) (a : BitVec 7) : Statement (.clz n d a) := by
  intro _
  show decode (0x14#8 ++ n ++ 0x0#2 ++ d ++ a ++ 0x0#7) = _
  generalize hw : (0x14#8 ++ n ++ 0x0#2 ++ d ++ a ++ 0x0#7) = w
  have h1 : w.extractLsb' 30 2 = 0#2 := by rw [← hw]; simp (disch := decide) only [extr_hi, Nat.reduceSub]; rfl
  have h2 : w.extractLsb' 24 6 = 20#6 := by rw [← hw]; simp (disch := decide) only [extr_hi, Nat.reduceSub]; rfl
  rw [decode_rrr h1]; unfold decodeRRR; rw [h2]
  simp only [BitVec.toNat_ofNat]
  rw [← hw]
  simp (disch := decide) only [extr_hi, extr_lo, extr_all, Nat.reduceSub]
  try rfl
theorem brev (n : BitVec 1) (d : BitVec 7) (a : BitVec 7) : Statement (.brev n d a) := by
  intro _
  show decode (0x15#8 ++ n ++ 0x0#2 ++ d ++ a ++ 0x0#7) = _
  generalize hw : (0x15#8 ++ n ++ 0x0#2 ++ d ++ a ++ 0x0#7) = w
  have h1 : w.extractLsb' 30 2 = 0#2 := by rw [← hw]; simp (disch := decide) only [extr_hi, Nat.reduceSub]; rfl
  have h2 : w.extractLsb' 24 6 = 21#6 := by rw [← hw]; simp (disch := decide) only [extr_hi, Nat.reduceSub]; rfl
  rw [decode_rrr h1]; unfold decodeRRR; rw [h2]
  simp only [BitVec.toNat_ofNat]
  rw [← hw]
  simp (disch := decide) only [extr_hi, extr_lo, extr_all, Nat.reduceSub]
  try rfl
theorem sel (n : BitVec 1) (k : BitVec 2) (d : BitVec 7) (a : BitVec 7) (b : BitVec 7) : Statement (.sel n k d a b) := by
  intro _
  show decode (0x16#8 ++ n ++ k ++ d ++ a ++ b) = _
  generalize hw : (0x16#8 ++ n ++ k ++ d ++ a ++ b) = w
  have h1 : w.extractLsb' 30 2 = 0#2 := by rw [← hw]; simp (disch := decide) only [extr_hi, Nat.reduceSub]; rfl
  have h2 : w.extractLsb' 24 6 = 22#6 := by rw [← hw]; simp (disch := decide) only [extr_hi, Nat.reduceSub]; rfl
  rw [decode_rrr h1]; unfold decodeRRR; rw [h2]
  simp only [BitVec.toNat_ofNat]
  rw [← hw]
  simp (disch := decide) only [extr_hi, extr_lo, extr_all, Nat.reduceSub]
  try rfl
theorem mov (n : BitVec 1) (d : BitVec 7) (a : BitVec 7) : Statement (.mov n d a) := by
  intro _
  show decode (0x17#8 ++ n ++ 0x0#2 ++ d ++ a ++ 0x0#7) = _
  generalize hw : (0x17#8 ++ n ++ 0x0#2 ++ d ++ a ++ 0x0#7) = w
  have h1 : w.extractLsb' 30 2 = 0#2 := by rw [← hw]; simp (disch := decide) only [extr_hi, Nat.reduceSub]; rfl
  have h2 : w.extractLsb' 24 6 = 23#6 := by rw [← hw]; simp (disch := decide) only [extr_hi, Nat.reduceSub]; rfl
  rw [decode_rrr h1]; unfold decodeRRR; rw [h2]
  simp only [BitVec.toNat_ofNat]
  rw [← hw]
  simp (disch := decide) only [extr_hi, extr_lo, extr_all, Nat.reduceSub]
  try rfl
theorem fadd (n : BitVec 1) (m : BitVec 2) (d : BitVec 7) (a : BitVec 7) (b : BitVec 7) : Statement (.fadd n m d a b) := by
  intro _
  show decode (0x18#8 ++ n ++ m ++ d ++ a ++ b) = _
  generalize hw : (0x18#8 ++ n ++ m ++ d ++ a ++ b) = w
  have h1 : w.extractLsb' 30 2 = 0#2 := by rw [← hw]; simp (disch := decide) only [extr_hi, Nat.reduceSub]; rfl
  have h2 : w.extractLsb' 24 6 = 24#6 := by rw [← hw]; simp (disch := decide) only [extr_hi, Nat.reduceSub]; rfl
  rw [decode_rrr h1]; unfold decodeRRR; rw [h2]
  simp only [BitVec.toNat_ofNat]
  rw [← hw]
  simp (disch := decide) only [extr_hi, extr_lo, extr_all, Nat.reduceSub]
  try rfl
theorem fsub (n : BitVec 1) (m : BitVec 2) (d : BitVec 7) (a : BitVec 7) (b : BitVec 7) : Statement (.fsub n m d a b) := by
  intro _
  show decode (0x19#8 ++ n ++ m ++ d ++ a ++ b) = _
  generalize hw : (0x19#8 ++ n ++ m ++ d ++ a ++ b) = w
  have h1 : w.extractLsb' 30 2 = 0#2 := by rw [← hw]; simp (disch := decide) only [extr_hi, Nat.reduceSub]; rfl
  have h2 : w.extractLsb' 24 6 = 25#6 := by rw [← hw]; simp (disch := decide) only [extr_hi, Nat.reduceSub]; rfl
  rw [decode_rrr h1]; unfold decodeRRR; rw [h2]
  simp only [BitVec.toNat_ofNat]
  rw [← hw]
  simp (disch := decide) only [extr_hi, extr_lo, extr_all, Nat.reduceSub]
  try rfl
theorem fmul (n : BitVec 1) (m : BitVec 2) (d : BitVec 7) (a : BitVec 7) (b : BitVec 7) : Statement (.fmul n m d a b) := by
  intro _
  show decode (0x1A#8 ++ n ++ m ++ d ++ a ++ b) = _
  generalize hw : (0x1A#8 ++ n ++ m ++ d ++ a ++ b) = w
  have h1 : w.extractLsb' 30 2 = 0#2 := by rw [← hw]; simp (disch := decide) only [extr_hi, Nat.reduceSub]; rfl
  have h2 : w.extractLsb' 24 6 = 26#6 := by rw [← hw]; simp (disch := decide) only [extr_hi, Nat.reduceSub]; rfl
  rw [decode_rrr h1]; unfold decodeRRR; rw [h2]
  simp only [BitVec.toNat_ofNat]
  rw [← hw]
  simp (disch := decide) only [extr_hi, extr_lo, extr_all, Nat.reduceSub]
  try rfl
theorem ffma (n : BitVec 1) (m : BitVec 2) (d : BitVec 7) (a : BitVec 7) (b : BitVec 7) : Statement (.ffma n m d a b) := by
  intro _
  show decode (0x1B#8 ++ n ++ m ++ d ++ a ++ b) = _
  generalize hw : (0x1B#8 ++ n ++ m ++ d ++ a ++ b) = w
  have h1 : w.extractLsb' 30 2 = 0#2 := by rw [← hw]; simp (disch := decide) only [extr_hi, Nat.reduceSub]; rfl
  have h2 : w.extractLsb' 24 6 = 27#6 := by rw [← hw]; simp (disch := decide) only [extr_hi, Nat.reduceSub]; rfl
  rw [decode_rrr h1]; unfold decodeRRR; rw [h2]
  simp only [BitVec.toNat_ofNat]
  rw [← hw]
  simp (disch := decide) only [extr_hi, extr_lo, extr_all, Nat.reduceSub]
  try rfl
theorem ffms (n : BitVec 1) (m : BitVec 2) (d : BitVec 7) (a : BitVec 7) (b : BitVec 7) : Statement (.ffms n m d a b) := by
  intro _
  show decode (0x1C#8 ++ n ++ m ++ d ++ a ++ b) = _
  generalize hw : (0x1C#8 ++ n ++ m ++ d ++ a ++ b) = w
  have h1 : w.extractLsb' 30 2 = 0#2 := by rw [← hw]; simp (disch := decide) only [extr_hi, Nat.reduceSub]; rfl
  have h2 : w.extractLsb' 24 6 = 28#6 := by rw [← hw]; simp (disch := decide) only [extr_hi, Nat.reduceSub]; rfl
  rw [decode_rrr h1]; unfold decodeRRR; rw [h2]
  simp only [BitVec.toNat_ofNat]
  rw [← hw]
  simp (disch := decide) only [extr_hi, extr_lo, extr_all, Nat.reduceSub]
  try rfl
theorem fnma (n : BitVec 1) (m : BitVec 2) (d : BitVec 7) (a : BitVec 7) (b : BitVec 7) : Statement (.fnma n m d a b) := by
  intro _
  show decode (0x1D#8 ++ n ++ m ++ d ++ a ++ b) = _
  generalize hw : (0x1D#8 ++ n ++ m ++ d ++ a ++ b) = w
  have h1 : w.extractLsb' 30 2 = 0#2 := by rw [← hw]; simp (disch := decide) only [extr_hi, Nat.reduceSub]; rfl
  have h2 : w.extractLsb' 24 6 = 29#6 := by rw [← hw]; simp (disch := decide) only [extr_hi, Nat.reduceSub]; rfl
  rw [decode_rrr h1]; unfold decodeRRR; rw [h2]
  simp only [BitVec.toNat_ofNat]
  rw [← hw]
  simp (disch := decide) only [extr_hi, extr_lo, extr_all, Nat.reduceSub]
  try rfl
theorem fmin (n : BitVec 1) (m : BitVec 2) (d : BitVec 7) (a : BitVec 7) (b : BitVec 7) : Statement (.fmin n m d a b) := by
  intro _
  show decode (0x1E#8 ++ n ++ m ++ d ++ a ++ b) = _
  generalize hw : (0x1E#8 ++ n ++ m ++ d ++ a ++ b) = w
  have h1 : w.extractLsb' 30 2 = 0#2 := by rw [← hw]; simp (disch := decide) only [extr_hi, Nat.reduceSub]; rfl
  have h2 : w.extractLsb' 24 6 = 30#6 := by rw [← hw]; simp (disch := decide) only [extr_hi, Nat.reduceSub]; rfl
  rw [decode_rrr h1]; unfold decodeRRR; rw [h2]
  simp only [BitVec.toNat_ofNat]
  rw [← hw]
  simp (disch := decide) only [extr_hi, extr_lo, extr_all, Nat.reduceSub]
  try rfl
theorem fmax (n : BitVec 1) (m : BitVec 2) (d : BitVec 7) (a : BitVec 7) (b : BitVec 7) : Statement (.fmax n m d a b) := by
  intro _
  show decode (0x1F#8 ++ n ++ m ++ d ++ a ++ b) = _
  generalize hw : (0x1F#8 ++ n ++ m ++ d ++ a ++ b) = w
  have h1 : w.extractLsb' 30 2 = 0#2 := by rw [← hw]; simp (disch := decide) only [extr_hi, Nat.reduceSub]; rfl
  have h2 : w.extractLsb' 24 6 = 31#6 := by rw [← hw]; simp (disch := decide) only [extr_hi, Nat.reduceSub]; rfl
  rw [decode_rrr h1]; unfold decodeRRR; rw [h2]
  simp only [BitVec.toNat_ofNat]
  rw [← hw]
  simp (disch := decide) only [extr_hi, extr_lo, extr_all, Nat.reduceSub]
  try rfl
theorem icmpEq (n : BitVec 1) (m : BitVec 2) (d : BitVec 7) (a : BitVec 7) (b : BitVec 7) : Statement (.icmpEq n m d a b) := by
  intro _
  show decode (0x20#8 ++ n ++ m ++ d ++ a ++ b) = _
  generalize hw : (0x20#8 ++ n ++ m ++ d ++ a ++ b) = w
  have h1 : w.extractLsb' 30 2 = 0#2 := by rw [← hw]; simp (disch := decide) only [extr_hi, Nat.reduceSub]; rfl
  have h2 : w.extractLsb' 24 6 = 32#6 := by rw [← hw]; simp (disch := decide) only [extr_hi, Nat.reduceSub]; rfl
  rw [decode_rrr h1]; unfold decodeRRR; rw [h2]
  simp only [BitVec.toNat_ofNat]
  rw [← hw]
  simp (disch := decide) only [extr_hi, extr_lo, extr_all, Nat.reduceSub]
  try rfl
theorem icmpNe (n : BitVec 1) (m : BitVec 2) (d : BitVec 7) (a : BitVec 7) (b : BitVec 7) : Statement (.icmpNe n m d a b) := by
  intro _
  show decode (0x21#8 ++ n ++ m ++ d ++ a ++ b) = _
  generalize hw : (0x21#8 ++ n ++ m ++ d ++ a ++ b) = w
  have h1 : w.extractLsb' 30 2 = 0#2 := by rw [← hw]; simp (disch := decide) only [extr_hi, Nat.reduceSub]; rfl
  have h2 : w.extractLsb' 24 6 = 33#6 := by rw [← hw]; simp (disch := decide) only [extr_hi, Nat.reduceSub]; rfl
  rw [decode_rrr h1]; unfold decodeRRR; rw [h2]
  simp only [BitVec.toNat_ofNat]
  rw [← hw]
  simp (disch := decide) only [extr_hi, extr_lo, extr_all, Nat.reduceSub]
  try rfl
theorem icmpLt (n : BitVec 1) (m : BitVec 2) (d : BitVec 7) (a : BitVec 7) (b : BitVec 7) : Statement (.icmpLt n m d a b) := by
  intro _
  show decode (0x22#8 ++ n ++ m ++ d ++ a ++ b) = _
  generalize hw : (0x22#8 ++ n ++ m ++ d ++ a ++ b) = w
  have h1 : w.extractLsb' 30 2 = 0#2 := by rw [← hw]; simp (disch := decide) only [extr_hi, Nat.reduceSub]; rfl
  have h2 : w.extractLsb' 24 6 = 34#6 := by rw [← hw]; simp (disch := decide) only [extr_hi, Nat.reduceSub]; rfl
  rw [decode_rrr h1]; unfold decodeRRR; rw [h2]
  simp only [BitVec.toNat_ofNat]
  rw [← hw]
  simp (disch := decide) only [extr_hi, extr_lo, extr_all, Nat.reduceSub]
  try rfl
theorem icmpLe (n : BitVec 1) (m : BitVec 2) (d : BitVec 7) (a : BitVec 7) (b : BitVec 7) : Statement (.icmpLe n m d a b) := by
  intro _
  show decode (0x23#8 ++ n ++ m ++ d ++ a ++ b) = _
  generalize hw : (0x23#8 ++ n ++ m ++ d ++ a ++ b) = w
  have h1 : w.extractLsb' 30 2 = 0#2 := by rw [← hw]; simp (disch := decide) only [extr_hi, Nat.reduceSub]; rfl
  have h2 : w.extractLsb' 24 6 = 35#6 := by rw [← hw]; simp (disch := decide) only [extr_hi, Nat.reduceSub]; rfl
  rw [decode_rrr h1]; unfold decodeRRR; rw [h2]
  simp only [BitVec.toNat_ofNat]
  rw [← hw]
  simp (disch := decide) only [extr_hi, extr_lo, extr_all, Nat.reduceSub]
  try rfl
theorem icmpLtn (n : BitVec 1) (m : BitVec 2) (d : BitVec 7) (a : BitVec 7) (b : BitVec 7) : Statement (.icmpLtn n m d a b) := by
  intro _
  show decode (0x24#8 ++ n ++ m ++ d ++ a ++ b) = _
  generalize hw : (0x24#8 ++ n ++ m ++ d ++ a ++ b) = w
  have h1 : w.extractLsb' 30 2 = 0#2 := by rw [← hw]; simp (disch := decide) only [extr_hi, Nat.reduceSub]; rfl
  have h2 : w.extractLsb' 24 6 = 36#6 := by rw [← hw]; simp (disch := decide) only [extr_hi, Nat.reduceSub]; rfl
  rw [decode_rrr h1]; unfold decodeRRR; rw [h2]
  simp only [BitVec.toNat_ofNat]
  rw [← hw]
  simp (disch := decide) only [extr_hi, extr_lo, extr_all, Nat.reduceSub]
  try rfl
theorem icmpLen (n : BitVec 1) (m : BitVec 2) (d : BitVec 7) (a : BitVec 7) (b : BitVec 7) : Statement (.icmpLen n m d a b) := by
  intro _
  show decode (0x25#8 ++ n ++ m ++ d ++ a ++ b) = _
  generalize hw : (0x25#8 ++ n ++ m ++ d ++ a ++ b) = w
  have h1 : w.extractLsb' 30 2 = 0#2 := by rw [← hw]; simp (disch := decide) only [extr_hi, Nat.reduceSub]; rfl
  have h2 : w.extractLsb' 24 6 = 37#6 := by rw [← hw]; simp (disch := decide) only [extr_hi, Nat.reduceSub]; rfl
  rw [decode_rrr h1]; unfold decodeRRR; rw [h2]
  simp only [BitVec.toNat_ofNat]
  rw [← hw]
  simp (disch := decide) only [extr_hi, extr_lo, extr_all, Nat.reduceSub]
  try rfl
theorem fcmpEq (n : BitVec 1) (m : BitVec 2) (d : BitVec 7) (a : BitVec 7) (b : BitVec 7) : Statement (.fcmpEq n m d a b) := by
  intro _
  show decode (0x26#8 ++ n ++ m ++ d ++ a ++ b) = _
  generalize hw : (0x26#8 ++ n ++ m ++ d ++ a ++ b) = w
  have h1 : w.extractLsb' 30 2 = 0#2 := by rw [← hw]; simp (disch := decide) only [extr_hi, Nat.reduceSub]; rfl
  have h2 : w.extractLsb' 24 6 = 38#6 := by rw [← hw]; simp (disch := decide) only [extr_hi, Nat.reduceSub]; rfl
  rw [decode_rrr h1]; unfold decodeRRR; rw [h2]
  simp only [BitVec.toNat_ofNat]
  rw [← hw]
  simp (disch := decide) only [extr_hi, extr_lo, extr_all, Nat.reduceSub]
  try rfl
theorem fcmpNe (n : BitVec 1) (m : BitVec 2) (d : BitVec 7) (a : BitVec 7) (b : BitVec 7) : Statement (.fcmpNe n m d a b) := by
  intro _
  show decode (0x27#8 ++ n ++ m ++ d ++ a ++ b) = _
  generalize hw : (0x27#8 ++ n ++ m ++ d ++ a ++ b) = w
  have h1 : w.extractLsb' 30 2 = 0#2 := by rw [← hw]; simp (disch := decide) only [extr_hi, Nat.reduceSub]; rfl
  have h2 : w.extractLsb' 24 6 = 39#6 := by rw [← hw]; simp (disch := decide) only [extr_hi, Nat.reduceSub]; rfl
  rw [decode_rrr h1]; unfold decodeRRR; rw [h2]
  simp only [BitVec.toNat_ofNat]
  rw [← hw]
  simp (disch := decide) only [extr_hi, extr_lo, extr_all, Nat.reduceSub]
  try rfl
theorem fcmpLt (n : BitVec 1) (m : BitVec 2) (d : BitVec 7) (a : BitVec 7) (b : BitVec 7) : Statement (.fcmpLt n m d a b) := by
  intro _
  show decode (0x28#8 ++ n ++ m ++ d ++ a ++ b) = _
  generalize hw : (0x28#8 ++ n ++ m ++ d ++ a ++ b) = w
  have h1 : w.extractLsb' 30 2 = 0#2 := by rw [← hw]; simp (disch := decide) only [extr_hi, Nat.reduceSub]; rfl
  have h2 : w.extractLsb' 24 6 = 40#6 := by rw [← hw]; simp (disch := decide) only [extr_hi, Nat.reduceSub]; rfl
  rw [decode_rrr h1]; unfold decodeRRR; rw [h2]
  simp only [BitVec.toNat_ofNat]
  rw [← hw]
  simp (disch := decide) only [extr_hi, extr_lo, extr_all, Nat.reduceSub]
  try rfl
theorem fcmpLe (n : BitVec 1) (m : BitVec 2) (d : BitVec 7) (a : BitVec 7) (b : BitVec 7) : Statement (.fcmpLe n m d a b) := by
  intro _
  show decode (0x29#8 ++ n ++ m ++ d ++ a ++ b) = _
  generalize hw : (0x29#8 ++ n ++ m ++ d ++ a ++ b) = w
  have h1 : w.extractLsb' 30 2 = 0#2 := by rw [← hw]; simp (disch := decide) only [extr_hi, Nat.reduceSub]; rfl
  have h2 : w.extractLsb' 24 6 = 41#6 := by rw [← hw]; simp (disch := decide) only [extr_hi, Nat.reduceSub]; rfl
  rw [decode_rrr h1]; unfold decodeRRR; rw [h2]
  simp only [BitVec.toNat_ofNat]
  rw [← hw]
  simp (disch := decide) only [extr_hi, extr_lo, extr_all, Nat.reduceSub]
  try rfl
theorem fcmpUn (n : BitVec 1) (m : BitVec 2) (d : BitVec 7) (a : BitVec 7) (b : BitVec 7) : Statement (.fcmpUn n m d a b) := by
  intro _
  show decode (0x2A#8 ++ n ++ m ++ d ++ a ++ b) = _
  generalize hw : (0x2A#8 ++ n ++ m ++ d ++ a ++ b) = w
  have h1 : w.extractLsb' 30 2 = 0#2 := by rw [← hw]; simp (disch := decide) only [extr_hi, Nat.reduceSub]; rfl
  have h2 : w.extractLsb' 24 6 = 42#6 := by rw [← hw]; simp (disch := decide) only [extr_hi, Nat.reduceSub]; rfl
  rw [decode_rrr h1]; unfold decodeRRR; rw [h2]
  simp only [BitVec.toNat_ofNat]
  rw [← hw]
  simp (disch := decide) only [extr_hi, extr_lo, extr_all, Nat.reduceSub]
  try rfl
theorem dcmpLt (n : BitVec 1) (m : BitVec 2) (d : BitVec 7) (a : BitVec 7) (b : BitVec 7) : Statement (.dcmpLt n m d a b) := by
  intro _
  show decode (0x2B#8 ++ n ++ m ++ d ++ a ++ b) = _
  generalize hw : (0x2B#8 ++ n ++ m ++ d ++ a ++ b) = w
  have h1 : w.extractLsb' 30 2 = 0#2 := by rw [← hw]; simp (disch := decide) only [extr_hi, Nat.reduceSub]; rfl
  have h2 : w.extractLsb' 24 6 = 43#6 := by rw [← hw]; simp (disch := decide) only [extr_hi, Nat.reduceSub]; rfl
  rw [decode_rrr h1]; unfold decodeRRR; rw [h2]
  simp only [BitVec.toNat_ofNat]
  rw [← hw]
  simp (disch := decide) only [extr_hi, extr_lo, extr_all, Nat.reduceSub]
  try rfl
theorem dcmpEq (n : BitVec 1) (m : BitVec 2) (d : BitVec 7) (a : BitVec 7) (b : BitVec 7) : Statement (.dcmpEq n m d a b) := by
  intro _
  show decode (0x2C#8 ++ n ++ m ++ d ++ a ++ b) = _
  generalize hw : (0x2C#8 ++ n ++ m ++ d ++ a ++ b) = w
  have h1 : w.extractLsb' 30 2 = 0#2 := by rw [← hw]; simp (disch := decide) only [extr_hi, Nat.reduceSub]; rfl
  have h2 : w.extractLsb' 24 6 = 44#6 := by rw [← hw]; simp (disch := decide) only [extr_hi, Nat.reduceSub]; rfl
  rw [decode_rrr h1]; unfold decodeRRR; rw [h2]
  simp only [BitVec.toNat_ofNat]
  rw [← hw]
  simp (disch := decide) only [extr_hi, extr_lo, extr_all, Nat.reduceSub]
  try rfl
theorem fabs (n : BitVec 1) (m : BitVec 2) (d : BitVec 7) (a : BitVec 7) : Statement (.fabs n m d a) := by
  intro _
  show decode (0x2D#8 ++ n ++ m ++ d ++ a ++ 0x0#7) = _
  generalize hw : (0x2D#8 ++ n ++ m ++ d ++ a ++ 0x0#7) = w
  have h1 : w.extractLsb' 30 2 = 0#2 := by rw [← hw]; simp (disch := decide) only [extr_hi, Nat.reduceSub]; rfl
  have h2 : w.extractLsb' 24 6 = 45#6 := by rw [← hw]; simp (disch := decide) only [extr_hi, Nat.reduceSub]; rfl
  rw [decode_rrr h1]; unfold decodeRRR; rw [h2]
  simp only [BitVec.toNat_ofNat]
  rw [← hw]
  simp (disch := decide) only [extr_hi, extr_lo, extr_all, Nat.reduceSub]
  try rfl
theorem fneg (n : BitVec 1) (m : BitVec 2) (d : BitVec 7) (a : BitVec 7) : Statement (.fneg n m d a) := by
  intro _
  show decode (0x2E#8 ++ n ++ m ++ d ++ a ++ 0x0#7) = _
  generalize hw : (0x2E#8 ++ n ++ m ++ d ++ a ++ 0x0#7) = w
  have h1 : w.extractLsb' 30 2 = 0#2 := by rw [← hw]; simp (disch := decide) only [extr_hi, Nat.reduceSub]; rfl
  have h2 : w.extractLsb' 24 6 = 46#6 := by rw [← hw]; simp (disch := decide) only [extr_hi, Nat.reduceSub]; rfl
  rw [decode_rrr h1]; unfold decodeRRR; rw [h2]
  simp only [BitVec.toNat_ofNat]
  rw [← hw]
  simp (disch := decide) only [extr_hi, extr_lo, extr_all, Nat.reduceSub]
  try rfl
theorem fclass (n : BitVec 1) (d : BitVec 7) (a : BitVec 7) : Statement (.fclass n d a) := by
  intro _
  show decode (0x2F#8 ++ n ++ 0x0#2 ++ d ++ a ++ 0x0#7) = _
  generalize hw : (0x2F#8 ++ n ++ 0x0#2 ++ d ++ a ++ 0x0#7) = w
  have h1 : w.extractLsb' 30 2 = 0#2 := by rw [← hw]; simp (disch := decide) only [extr_hi, Nat.reduceSub]; rfl
  have h2 : w.extractLsb' 24 6 = 47#6 := by rw [← hw]; simp (disch := decide) only [extr_hi, Nat.reduceSub]; rfl
  rw [decode_rrr h1]; unfold decodeRRR; rw [h2]
  simp only [BitVec.toNat_ofNat]
  rw [← hw]
  simp (disch := decide) only [extr_hi, extr_lo, extr_all, Nat.reduceSub]
  try rfl
theorem shflIdx (n : BitVec 1) (d : BitVec 7) (a : BitVec 7) (b : BitVec 7) : Statement (.shflIdx n d a b) := by
  intro _
  show decode (0x30#8 ++ n ++ 0x0#2 ++ d ++ a ++ b) = _
  generalize hw : (0x30#8 ++ n ++ 0x0#2 ++ d ++ a ++ b) = w
  have h1 : w.extractLsb' 30 2 = 0#2 := by rw [← hw]; simp (disch := decide) only [extr_hi, Nat.reduceSub]; rfl
  have h2 : w.extractLsb' 24 6 = 48#6 := by rw [← hw]; simp (disch := decide) only [extr_hi, Nat.reduceSub]; rfl
  rw [decode_rrr h1]; unfold decodeRRR; rw [h2]
  simp only [BitVec.toNat_ofNat]
  rw [← hw]
  simp (disch := decide) only [extr_hi, extr_lo, extr_all, Nat.reduceSub]
  try rfl
theorem shflXor (n : BitVec 1) (d : BitVec 7) (a : BitVec 7) (b : BitVec 7) : Statement (.shflXor n d a b) := by
  intro _
  show decode (0x31#8 ++ n ++ 0x0#2 ++ d ++ a ++ b) = _
  generalize hw : (0x31#8 ++ n ++ 0x0#2 ++ d ++ a ++ b) = w
  have h1 : w.extractLsb' 30 2 = 0#2 := by rw [← hw]; simp (disch := decide) only [extr_hi, Nat.reduceSub]; rfl
  have h2 : w.extractLsb' 24 6 = 49#6 := by rw [← hw]; simp (disch := decide) only [extr_hi, Nat.reduceSub]; rfl
  rw [decode_rrr h1]; unfold decodeRRR; rw [h2]
  simp only [BitVec.toNat_ofNat]
  rw [← hw]
  simp (disch := decide) only [extr_hi, extr_lo, extr_all, Nat.reduceSub]
  try rfl
theorem shflUp (n : BitVec 1) (d : BitVec 7) (a : BitVec 7) (b : BitVec 7) : Statement (.shflUp n d a b) := by
  intro _
  show decode (0x32#8 ++ n ++ 0x0#2 ++ d ++ a ++ b) = _
  generalize hw : (0x32#8 ++ n ++ 0x0#2 ++ d ++ a ++ b) = w
  have h1 : w.extractLsb' 30 2 = 0#2 := by rw [← hw]; simp (disch := decide) only [extr_hi, Nat.reduceSub]; rfl
  have h2 : w.extractLsb' 24 6 = 50#6 := by rw [← hw]; simp (disch := decide) only [extr_hi, Nat.reduceSub]; rfl
  rw [decode_rrr h1]; unfold decodeRRR; rw [h2]
  simp only [BitVec.toNat_ofNat]
  rw [← hw]
  simp (disch := decide) only [extr_hi, extr_lo, extr_all, Nat.reduceSub]
  try rfl
theorem shflDn (n : BitVec 1) (d : BitVec 7) (a : BitVec 7) (b : BitVec 7) : Statement (.shflDn n d a b) := by
  intro _
  show decode (0x33#8 ++ n ++ 0x0#2 ++ d ++ a ++ b) = _
  generalize hw : (0x33#8 ++ n ++ 0x0#2 ++ d ++ a ++ b) = w
  have h1 : w.extractLsb' 30 2 = 0#2 := by rw [← hw]; simp (disch := decide) only [extr_hi, Nat.reduceSub]; rfl
  have h2 : w.extractLsb' 24 6 = 51#6 := by rw [← hw]; simp (disch := decide) only [extr_hi, Nat.reduceSub]; rfl
  rw [decode_rrr h1]; unfold decodeRRR; rw [h2]
  simp only [BitVec.toNat_ofNat]
  rw [← hw]
  simp (disch := decide) only [extr_hi, extr_lo, extr_all, Nat.reduceSub]
  try rfl
theorem ballot (n : BitVec 1) (d : BitVec 7) (a : BitVec 7) : Statement (.ballot n d a) := by
  intro _
  show decode (0x34#8 ++ n ++ 0x0#2 ++ d ++ a ++ 0x0#7) = _
  generalize hw : (0x34#8 ++ n ++ 0x0#2 ++ d ++ a ++ 0x0#7) = w
  have h1 : w.extractLsb' 30 2 = 0#2 := by rw [← hw]; simp (disch := decide) only [extr_hi, Nat.reduceSub]; rfl
  have h2 : w.extractLsb' 24 6 = 52#6 := by rw [← hw]; simp (disch := decide) only [extr_hi, Nat.reduceSub]; rfl
  rw [decode_rrr h1]; unfold decodeRRR; rw [h2]
  simp only [BitVec.toNat_ofNat]
  rw [← hw]
  simp (disch := decide) only [extr_hi, extr_lo, extr_all, Nat.reduceSub]
  try rfl
theorem redadd (n : BitVec 1) (m : BitVec 2) (d : BitVec 7) (a : BitVec 7) (b : BitVec 7) : Statement (.redadd n m d a b) := by
  intro _
  show decode (0x35#8 ++ n ++ m ++ d ++ a ++ b) = _
  generalize hw : (0x35#8 ++ n ++ m ++ d ++ a ++ b) = w
  have h1 : w.extractLsb' 30 2 = 0#2 := by rw [← hw]; simp (disch := decide) only [extr_hi, Nat.reduceSub]; rfl
  have h2 : w.extractLsb' 24 6 = 53#6 := by rw [← hw]; simp (disch := decide) only [extr_hi, Nat.reduceSub]; rfl
  rw [decode_rrr h1]; unfold decodeRRR; rw [h2]
  simp only [BitVec.toNat_ofNat]
  rw [← hw]
  simp (disch := decide) only [extr_hi, extr_lo, extr_all, Nat.reduceSub]
  try rfl
theorem redmm (n : BitVec 1) (m : BitVec 2) (d : BitVec 7) (a : BitVec 7) (b : BitVec 7) : Statement (.redmm n m d a b) := by
  intro _
  show decode (0x36#8 ++ n ++ m ++ d ++ a ++ b) = _
  generalize hw : (0x36#8 ++ n ++ m ++ d ++ a ++ b) = w
  have h1 : w.extractLsb' 30 2 = 0#2 := by rw [← hw]; simp (disch := decide) only [extr_hi, Nat.reduceSub]; rfl
  have h2 : w.extractLsb' 24 6 = 54#6 := by rw [← hw]; simp (disch := decide) only [extr_hi, Nat.reduceSub]; rfl
  rw [decode_rrr h1]; unfold decodeRRR; rw [h2]
  simp only [BitVec.toNat_ofNat]
  rw [← hw]
  simp (disch := decide) only [extr_hi, extr_lo, extr_all, Nat.reduceSub]
  try rfl
theorem scan (n : BitVec 1) (m : BitVec 2) (d : BitVec 7) (a : BitVec 7) (b : BitVec 7) : Statement (.scan n m d a b) := by
  intro _
  show decode (0x37#8 ++ n ++ m ++ d ++ a ++ b) = _
  generalize hw : (0x37#8 ++ n ++ m ++ d ++ a ++ b) = w
  have h1 : w.extractLsb' 30 2 = 0#2 := by rw [← hw]; simp (disch := decide) only [extr_hi, Nat.reduceSub]; rfl
  have h2 : w.extractLsb' 24 6 = 55#6 := by rw [← hw]; simp (disch := decide) only [extr_hi, Nat.reduceSub]; rfl
  rw [decode_rrr h1]; unfold decodeRRR; rw [h2]
  simp only [BitVec.toNat_ofNat]
  rw [← hw]
  simp (disch := decide) only [extr_hi, extr_lo, extr_all, Nat.reduceSub]
  try rfl
theorem readlane (n : BitVec 1) (d : BitVec 7) (a : BitVec 7) (b : BitVec 7) : Statement (.readlane n d a b) := by
  intro _
  show decode (0x38#8 ++ n ++ 0x0#2 ++ d ++ a ++ b) = _
  generalize hw : (0x38#8 ++ n ++ 0x0#2 ++ d ++ a ++ b) = w
  have h1 : w.extractLsb' 30 2 = 0#2 := by rw [← hw]; simp (disch := decide) only [extr_hi, Nat.reduceSub]; rfl
  have h2 : w.extractLsb' 24 6 = 56#6 := by rw [← hw]; simp (disch := decide) only [extr_hi, Nat.reduceSub]; rfl
  rw [decode_rrr h1]; unfold decodeRRR; rw [h2]
  simp only [BitVec.toNat_ofNat]
  rw [← hw]
  simp (disch := decide) only [extr_hi, extr_lo, extr_all, Nat.reduceSub]
  try rfl
theorem shapeof (n : BitVec 1) (d : BitVec 7) (a : BitVec 7) : Statement (.shapeof n d a) := by
  intro _
  show decode (0x39#8 ++ n ++ 0x0#2 ++ d ++ a ++ 0x0#7) = _
  generalize hw : (0x39#8 ++ n ++ 0x0#2 ++ d ++ a ++ 0x0#7) = w
  have h1 : w.extractLsb' 30 2 = 0#2 := by rw [← hw]; simp (disch := decide) only [extr_hi, Nat.reduceSub]; rfl
  have h2 : w.extractLsb' 24 6 = 57#6 := by rw [← hw]; simp (disch := decide) only [extr_hi, Nat.reduceSub]; rfl
  rw [decode_rrr h1]; unfold decodeRRR; rw [h2]
  simp only [BitVec.toNat_ofNat]
  rw [← hw]
  simp (disch := decide) only [extr_hi, extr_lo, extr_all, Nat.reduceSub]
  try rfl
theorem shapegen (n : BitVec 1) (d : BitVec 7) (a : BitVec 7) : Statement (.shapegen n d a) := by
  intro _
  show decode (0x3A#8 ++ n ++ 0x0#2 ++ d ++ a ++ 0x0#7) = _
  generalize hw : (0x3A#8 ++ n ++ 0x0#2 ++ d ++ a ++ 0x0#7) = w
  have h1 : w.extractLsb' 30 2 = 0#2 := by rw [← hw]; simp (disch := decide) only [extr_hi, Nat.reduceSub]; rfl
  have h2 : w.extractLsb' 24 6 = 58#6 := by rw [← hw]; simp (disch := decide) only [extr_hi, Nat.reduceSub]; rfl
  rw [decode_rrr h1]; unfold decodeRRR; rw [h2]
  simp only [BitVec.toNat_ofNat]
  rw [← hw]
  simp (disch := decide) only [extr_hi, extr_lo, extr_all, Nat.reduceSub]
  try rfl
theorem movk (n : BitVec 1) (d : BitVec 7) (a : BitVec 7) : Statement (.movk n d a) := by
  intro _
  show decode (0x3B#8 ++ n ++ 0x0#2 ++ d ++ a ++ 0x0#7) = _
  generalize hw : (0x3B#8 ++ n ++ 0x0#2 ++ d ++ a ++ 0x0#7) = w
  have h1 : w.extractLsb' 30 2 = 0#2 := by rw [← hw]; simp (disch := decide) only [extr_hi, Nat.reduceSub]; rfl
  have h2 : w.extractLsb' 24 6 = 59#6 := by rw [← hw]; simp (disch := decide) only [extr_hi, Nat.reduceSub]; rfl
  rw [decode_rrr h1]; unfold decodeRRR; rw [h2]
  simp only [BitVec.toNat_ofNat]
  rw [← hw]
  simp (disch := decide) only [extr_hi, extr_lo, extr_all, Nat.reduceSub]
  try rfl
theorem mov64 (n : BitVec 1) (d : BitVec 7) (a : BitVec 7) : Statement (.mov64 n d a) := by
  intro _
  show decode (0x3C#8 ++ n ++ 0x0#2 ++ d ++ a ++ 0x0#7) = _
  generalize hw : (0x3C#8 ++ n ++ 0x0#2 ++ d ++ a ++ 0x0#7) = w
  have h1 : w.extractLsb' 30 2 = 0#2 := by rw [← hw]; simp (disch := decide) only [extr_hi, Nat.reduceSub]; rfl
  have h2 : w.extractLsb' 24 6 = 60#6 := by rw [← hw]; simp (disch := decide) only [extr_hi, Nat.reduceSub]; rfl
  rw [decode_rrr h1]; unfold decodeRRR; rw [h2]
  simp only [BitVec.toNat_ofNat]
  rw [← hw]
  simp (disch := decide) only [extr_hi, extr_lo, extr_all, Nat.reduceSub]
  try rfl
theorem iaddi (d : BitVec 7) (a : BitVec 7) (i : BitVec 11) : Statement (.iaddi d a i) := by
  intro _
  show decode (0x20#7 ++ d ++ a ++ i) = _
  generalize hw : (0x20#7 ++ d ++ a ++ i) = w
  have h1 : w.extractLsb' 30 2 = 1#2 := by rw [← hw]; simp (disch := decide) only [extr_hi, Nat.reduceSub]; rfl
  have h2 : w.extractLsb' 25 5 = 0#5 := by rw [← hw]; simp (disch := decide) only [extr_hi, Nat.reduceSub]; rfl
  rw [decode_01 h1]; unfold decode01; rw [h2]
  simp only [BitVec.toNat_ofNat]
  rw [← hw]
  simp (disch := decide) only [extr_hi, extr_lo, extr_all, Nat.reduceSub]
  try rfl
theorem andi (d : BitVec 7) (a : BitVec 7) (i : BitVec 11) : Statement (.andi d a i) := by
  intro _
  show decode (0x21#7 ++ d ++ a ++ i) = _
  generalize hw : (0x21#7 ++ d ++ a ++ i) = w
  have h1 : w.extractLsb' 30 2 = 1#2 := by rw [← hw]; simp (disch := decide) only [extr_hi, Nat.reduceSub]; rfl
  have h2 : w.extractLsb' 25 5 = 1#5 := by rw [← hw]; simp (disch := decide) only [extr_hi, Nat.reduceSub]; rfl
  rw [decode_01 h1]; unfold decode01; rw [h2]
  simp only [BitVec.toNat_ofNat]
  rw [← hw]
  simp (disch := decide) only [extr_hi, extr_lo, extr_all, Nat.reduceSub]
  try rfl
theorem ori (d : BitVec 7) (a : BitVec 7) (i : BitVec 11) : Statement (.ori d a i) := by
  intro _
  show decode (0x22#7 ++ d ++ a ++ i) = _
  generalize hw : (0x22#7 ++ d ++ a ++ i) = w
  have h1 : w.extractLsb' 30 2 = 1#2 := by rw [← hw]; simp (disch := decide) only [extr_hi, Nat.reduceSub]; rfl
  have h2 : w.extractLsb' 25 5 = 2#5 := by rw [← hw]; simp (disch := decide) only [extr_hi, Nat.reduceSub]; rfl
  rw [decode_01 h1]; unfold decode01; rw [h2]
  simp only [BitVec.toNat_ofNat]
  rw [← hw]
  simp (disch := decide) only [extr_hi, extr_lo, extr_all, Nat.reduceSub]
  try rfl
theorem xori (d : BitVec 7) (a : BitVec 7) (i : BitVec 11) : Statement (.xori d a i) := by
  intro _
  show decode (0x23#7 ++ d ++ a ++ i) = _
  generalize hw : (0x23#7 ++ d ++ a ++ i) = w
  have h1 : w.extractLsb' 30 2 = 1#2 := by rw [← hw]; simp (disch := decide) only [extr_hi, Nat.reduceSub]; rfl
  have h2 : w.extractLsb' 25 5 = 3#5 := by rw [← hw]; simp (disch := decide) only [extr_hi, Nat.reduceSub]; rfl
  rw [decode_01 h1]; unfold decode01; rw [h2]
  simp only [BitVec.toNat_ofNat]
  rw [← hw]
  simp (disch := decide) only [extr_hi, extr_lo, extr_all, Nat.reduceSub]
  try rfl
theorem shli (d : BitVec 7) (a : BitVec 7) (i : BitVec 11) : Statement (.shli d a i) := by
  intro _
  show decode (0x24#7 ++ d ++ a ++ i) = _
  generalize hw : (0x24#7 ++ d ++ a ++ i) = w
  have h1 : w.extractLsb' 30 2 = 1#2 := by rw [← hw]; simp (disch := decide) only [extr_hi, Nat.reduceSub]; rfl
  have h2 : w.extractLsb' 25 5 = 4#5 := by rw [← hw]; simp (disch := decide) only [extr_hi, Nat.reduceSub]; rfl
  rw [decode_01 h1]; unfold decode01; rw [h2]
  simp only [BitVec.toNat_ofNat]
  rw [← hw]
  simp (disch := decide) only [extr_hi, extr_lo, extr_all, Nat.reduceSub]
  try rfl
theorem shri (d : BitVec 7) (a : BitVec 7) (i : BitVec 11) : Statement (.shri d a i) := by
  intro _
  show decode (0x25#7 ++ d ++ a ++ i) = _
  generalize hw : (0x25#7 ++ d ++ a ++ i) = w
  have h1 : w.extractLsb' 30 2 = 1#2 := by rw [← hw]; simp (disch := decide) only [extr_hi, Nat.reduceSub]; rfl
  have h2 : w.extractLsb' 25 5 = 5#5 := by rw [← hw]; simp (disch := decide) only [extr_hi, Nat.reduceSub]; rfl
  rw [decode_01 h1]; unfold decode01; rw [h2]
  simp only [BitVec.toNat_ofNat]
  rw [← hw]
  simp (disch := decide) only [extr_hi, extr_lo, extr_all, Nat.reduceSub]
  try rfl
theorem sari (d : BitVec 7) (a : BitVec 7) (i : BitVec 11) : Statement (.sari d a i) := by
  intro _
  show decode (0x26#7 ++ d ++ a ++ i) = _
  generalize hw : (0x26#7 ++ d ++ a ++ i) = w
  have h1 : w.extractLsb' 30 2 = 1#2 := by rw [← hw]; simp (disch := decide) only [extr_hi, Nat.reduceSub]; rfl
  have h2 : w.extractLsb' 25 5 = 6#5 := by rw [← hw]; simp (disch := decide) only [extr_hi, Nat.reduceSub]; rfl
  rw [decode_01 h1]; unfold decode01; rw [h2]
  simp only [BitVec.toNat_ofNat]
  rw [← hw]
  simp (disch := decide) only [extr_hi, extr_lo, extr_all, Nat.reduceSub]
  try rfl
theorem imuli (d : BitVec 7) (a : BitVec 7) (i : BitVec 11) : Statement (.imuli d a i) := by
  intro _
  show decode (0x27#7 ++ d ++ a ++ i) = _
  generalize hw : (0x27#7 ++ d ++ a ++ i) = w
  have h1 : w.extractLsb' 30 2 = 1#2 := by rw [← hw]; simp (disch := decide) only [extr_hi, Nat.reduceSub]; rfl
  have h2 : w.extractLsb' 25 5 = 7#5 := by rw [← hw]; simp (disch := decide) only [extr_hi, Nat.reduceSub]; rfl
  rw [decode_01 h1]; unfold decode01; rw [h2]
  simp only [BitVec.toNat_ofNat]
  rw [← hw]
  simp (disch := decide) only [extr_hi, extr_lo, extr_all, Nat.reduceSub]
  try rfl
theorem icmpiEq (d : BitVec 7) (a : BitVec 7) (i : BitVec 11) : Statement (.icmpiEq d a i) := by
  intro _
  show decode (0x28#7 ++ d ++ a ++ i) = _
  generalize hw : (0x28#7 ++ d ++ a ++ i) = w
  have h1 : w.extractLsb' 30 2 = 1#2 := by rw [← hw]; simp (disch := decide) only [extr_hi, Nat.reduceSub]; rfl
  have h2 : w.extractLsb' 25 5 = 8#5 := by rw [← hw]; simp (disch := decide) only [extr_hi, Nat.reduceSub]; rfl
  rw [decode_01 h1]; unfold decode01; rw [h2]
  simp only [BitVec.toNat_ofNat]
  rw [← hw]
  simp (disch := decide) only [extr_hi, extr_lo, extr_all, Nat.reduceSub]
  try rfl
theorem icmpiLt (d : BitVec 7) (a : BitVec 7) (i : BitVec 11) : Statement (.icmpiLt d a i) := by
  intro _
  show decode (0x29#7 ++ d ++ a ++ i) = _
  generalize hw : (0x29#7 ++ d ++ a ++ i) = w
  have h1 : w.extractLsb' 30 2 = 1#2 := by rw [← hw]; simp (disch := decide) only [extr_hi, Nat.reduceSub]; rfl
  have h2 : w.extractLsb' 25 5 = 9#5 := by rw [← hw]; simp (disch := decide) only [extr_hi, Nat.reduceSub]; rfl
  rw [decode_01 h1]; unfold decode01; rw [h2]
  simp only [BitVec.toNat_ofNat]
  rw [← hw]
  simp (disch := decide) only [extr_hi, extr_lo, extr_all, Nat.reduceSub]
  try rfl
theorem icmpiLtn (d : BitVec 7) (a : BitVec 7) (i : BitVec 11) : Statement (.icmpiLtn d a i) := by
  intro _
  show decode (0x2A#7 ++ d ++ a ++ i) = _
  generalize hw : (0x2A#7 ++ d ++ a ++ i) = w
  have h1 : w.extractLsb' 30 2 = 1#2 := by rw [← hw]; simp (disch := decide) only [extr_hi, Nat.reduceSub]; rfl
  have h2 : w.extractLsb' 25 5 = 10#5 := by rw [← hw]; simp (disch := decide) only [extr_hi, Nat.reduceSub]; rfl
  rw [decode_01 h1]; unfold decode01; rw [h2]
  simp only [BitVec.toNat_ofNat]
  rw [← hw]
  simp (disch := decide) only [extr_hi, extr_lo, extr_all, Nat.reduceSub]
  try rfl
theorem iaddi64 (d : BitVec 7) (a : BitVec 7) (i : BitVec 11) : Statement (.iaddi64 d a i) := by
  intro _
  show decode (0x2B#7 ++ d ++ a ++ i) = _
  generalize hw : (0x2B#7 ++ d ++ a ++ i) = w
  have h1 : w.extractLsb' 30 2 = 1#2 := by rw [← hw]; simp (disch := decide) only [extr_hi, Nat.reduceSub]; rfl
  have h2 : w.extractLsb' 25 5 = 11#5 := by rw [← hw]; simp (disch := decide) only [extr_hi, Nat.reduceSub]; rfl
  rw [decode_01 h1]; unfold decode01; rw [h2]
  simp only [BitVec.toNat_ofNat]
  rw [← hw]
  simp (disch := decide) only [extr_hi, extr_lo, extr_all, Nat.reduceSub]
  try rfl
theorem gets (d : BitVec 7) (i : BitVec 11) : Statement (.gets d i) := by
  intro _
  show decode (0x2C#7 ++ d ++ 0x0#7 ++ i) = _
  generalize hw : (0x2C#7 ++ d ++ 0x0#7 ++ i) = w
  have h1 : w.extractLsb' 30 2 = 1#2 := by rw [← hw]; simp (disch := decide) only [extr_hi, Nat.reduceSub]; rfl
  have h2 : w.extractLsb' 25 5 = 12#5 := by rw [← hw]; simp (disch := decide) only [extr_hi, Nat.reduceSub]; rfl
  rw [decode_01 h1]; unfold decode01; rw [h2]
  simp only [BitVec.toNat_ofNat]
  rw [← hw]
  simp (disch := decide) only [extr_hi, extr_lo, extr_all, Nat.reduceSub]
  try rfl
theorem sets (a : BitVec 7) (i : BitVec 11) : Statement (.sets a i) := by
  intro _
  show decode (0x1680#14 ++ a ++ i) = _
  generalize hw : (0x1680#14 ++ a ++ i) = w
  have h1 : w.extractLsb' 30 2 = 1#2 := by rw [← hw]; simp (disch := decide) only [extr_hi, Nat.reduceSub]; rfl
  have h2 : w.extractLsb' 25 5 = 13#5 := by rw [← hw]; simp (disch := decide) only [extr_hi, Nat.reduceSub]; rfl
  rw [decode_01 h1]; unfold decode01; rw [h2]
  simp only [BitVec.toNat_ofNat]
  rw [← hw]
  simp (disch := decide) only [extr_hi, extr_lo, extr_all, Nat.reduceSub]
  try rfl
theorem affine (d : BitVec 7) (a : BitVec 7) (i : BitVec 11) : Statement (.affine d a i) := by
  intro _
  show decode (0x2E#7 ++ d ++ a ++ i) = _
  generalize hw : (0x2E#7 ++ d ++ a ++ i) = w
  have h1 : w.extractLsb' 30 2 = 1#2 := by rw [← hw]; simp (disch := decide) only [extr_hi, Nat.reduceSub]; rfl
  have h2 : w.extractLsb' 25 5 = 14#5 := by rw [← hw]; simp (disch := decide) only [extr_hi, Nat.reduceSub]; rfl
  rw [decode_01 h1]; unfold decode01; rw [h2]
  simp only [BitVec.toNat_ofNat]
  rw [← hw]
  simp (disch := decide) only [extr_hi, extr_lo, extr_all, Nat.reduceSub]
  try rfl
theorem ldiLo (d : BitVec 7) (i : BitVec 18) : Statement (.ldiLo d i) := by
  intro _
  show decode (0x30#7 ++ d ++ i) = _
  generalize hw : (0x30#7 ++ d ++ i) = w
  have h1 : w.extractLsb' 30 2 = 1#2 := by rw [← hw]; simp (disch := decide) only [extr_hi, Nat.reduceSub]; rfl
  have h2 : w.extractLsb' 25 5 = 16#5 := by rw [← hw]; simp (disch := decide) only [extr_hi, Nat.reduceSub]; rfl
  rw [decode_01 h1]; unfold decode01; rw [h2]
  simp only [BitVec.toNat_ofNat]
  rw [← hw]
  simp (disch := decide) only [extr_hi, extr_lo, extr_all, Nat.reduceSub]
  try rfl
theorem ldiHi (d : BitVec 7) (i : BitVec 14) : Statement (.ldiHi d i) := by
  intro _
  show decode (0x31#7 ++ d ++ 0x0#4 ++ i) = _
  generalize hw : (0x31#7 ++ d ++ 0x0#4 ++ i) = w
  have h1 : w.extractLsb' 30 2 = 1#2 := by rw [← hw]; simp (disch := decide) only [extr_hi, Nat.reduceSub]; rfl
  have h2 : w.extractLsb' 25 5 = 17#5 := by rw [← hw]; simp (disch := decide) only [extr_hi, Nat.reduceSub]; rfl
  rw [decode_01 h1]; unfold decode01; rw [h2]
  simp only [BitVec.toNat_ofNat]
  rw [← hw]
  simp (disch := decide) only [extr_hi, extr_lo, extr_all, Nat.reduceSub]
  try rfl
theorem ldiS (d : BitVec 7) (i : BitVec 18) : Statement (.ldiS d i) := by
  intro _
  show decode (0x32#7 ++ d ++ i) = _
  generalize hw : (0x32#7 ++ d ++ i) = w
  have h1 : w.extractLsb' 30 2 = 1#2 := by rw [← hw]; simp (disch := decide) only [extr_hi, Nat.reduceSub]; rfl
  have h2 : w.extractLsb' 25 5 = 18#5 := by rw [← hw]; simp (disch := decide) only [extr_hi, Nat.reduceSub]; rfl
  rw [decode_01 h1]; unfold decode01; rw [h2]
  simp only [BitVec.toNat_ofNat]
  rw [← hw]
  simp (disch := decide) only [extr_hi, extr_lo, extr_all, Nat.reduceSub]
  try rfl
theorem ldif (d : BitVec 7) (i : BitVec 18) : Statement (.ldif d i) := by
  intro _
  show decode (0x33#7 ++ d ++ i) = _
  generalize hw : (0x33#7 ++ d ++ i) = w
  have h1 : w.extractLsb' 30 2 = 1#2 := by rw [← hw]; simp (disch := decide) only [extr_hi, Nat.reduceSub]; rfl
  have h2 : w.extractLsb' 25 5 = 19#5 := by rw [← hw]; simp (disch := decide) only [extr_hi, Nat.reduceSub]; rfl
  rw [decode_01 h1]; unfold decode01; rw [h2]
  simp only [BitVec.toNat_ofNat]
  rw [← hw]
  simp (disch := decide) only [extr_hi, extr_lo, extr_all, Nat.reduceSub]
  try rfl
theorem cvt (d : BitVec 7) (a : BitVec 7) (t : BitVec 4) (s : BitVec 4) (r : BitVec 3) : Statement (.cvt d a t s r) := by
  intro _
  show decode (0x34#7 ++ d ++ a ++ t ++ s ++ r) = _
  generalize hw : (0x34#7 ++ d ++ a ++ t ++ s ++ r) = w
  have h1 : w.extractLsb' 30 2 = 1#2 := by rw [← hw]; simp (disch := decide) only [extr_hi, Nat.reduceSub]; rfl
  have h2 : w.extractLsb' 25 5 = 20#5 := by rw [← hw]; simp (disch := decide) only [extr_hi, Nat.reduceSub]; rfl
  rw [decode_01 h1]; unfold decode01; rw [h2]
  simp only [BitVec.toNat_ofNat]
  rw [← hw]
  simp (disch := decide) only [extr_hi, extr_lo, extr_all, Nat.reduceSub]
  try rfl
theorem kopAnd (d : BitVec 4) (a : BitVec 4) (b : BitVec 4) : Statement (.kopAnd d a b) := by
  intro _
  show decode (0x35#7 ++ d ++ a ++ b ++ 0x0#13) = _
  generalize hw : (0x35#7 ++ d ++ a ++ b ++ 0x0#13) = w
  have h1 : w.extractLsb' 30 2 = 1#2 := by rw [← hw]; simp (disch := decide) only [extr_hi, Nat.reduceSub]; rfl
  have h2 : w.extractLsb' 25 5 = 21#5 := by rw [← hw]; simp (disch := decide) only [extr_hi, Nat.reduceSub]; rfl
  rw [decode_01 h1]; unfold decode01; rw [h2]
  simp only [BitVec.toNat_ofNat]
  rw [← hw]
  simp (disch := decide) only [extr_hi, extr_lo, extr_all, Nat.reduceSub]
  try rfl
theorem kopOr (d : BitVec 4) (a : BitVec 4) (b : BitVec 4) : Statement (.kopOr d a b) := by
  intro _
  show decode (0x35#7 ++ d ++ a ++ b ++ 0x400#13) = _
  generalize hw : (0x35#7 ++ d ++ a ++ b ++ 0x400#13) = w
  have h1 : w.extractLsb' 30 2 = 1#2 := by rw [← hw]; simp (disch := decide) only [extr_hi, Nat.reduceSub]; rfl
  have h2 : w.extractLsb' 25 5 = 21#5 := by rw [← hw]; simp (disch := decide) only [extr_hi, Nat.reduceSub]; rfl
  rw [decode_01 h1]; unfold decode01; rw [h2]
  simp only [BitVec.toNat_ofNat]
  rw [← hw]
  simp (disch := decide) only [extr_hi, extr_lo, extr_all, Nat.reduceSub]
  try rfl
theorem kopXor (d : BitVec 4) (a : BitVec 4) (b : BitVec 4) : Statement (.kopXor d a b) := by
  intro _
  show decode (0x35#7 ++ d ++ a ++ b ++ 0x800#13) = _
  generalize hw : (0x35#7 ++ d ++ a ++ b ++ 0x800#13) = w
  have h1 : w.extractLsb' 30 2 = 1#2 := by rw [← hw]; simp (disch := decide) only [extr_hi, Nat.reduceSub]; rfl
  have h2 : w.extractLsb' 25 5 = 21#5 := by rw [← hw]; simp (disch := decide) only [extr_hi, Nat.reduceSub]; rfl
  rw [decode_01 h1]; unfold decode01; rw [h2]
  simp only [BitVec.toNat_ofNat]
  rw [← hw]
  simp (disch := decide) only [extr_hi, extr_lo, extr_all, Nat.reduceSub]
  try rfl
theorem kopAndn (d : BitVec 4) (a : BitVec 4) (b : BitVec 4) : Statement (.kopAndn d a b) := by
  intro _
  show decode (0x35#7 ++ d ++ a ++ b ++ 0xC00#13) = _
  generalize hw : (0x35#7 ++ d ++ a ++ b ++ 0xC00#13) = w
  have h1 : w.extractLsb' 30 2 = 1#2 := by rw [← hw]; simp (disch := decide) only [extr_hi, Nat.reduceSub]; rfl
  have h2 : w.extractLsb' 25 5 = 21#5 := by rw [← hw]; simp (disch := decide) only [extr_hi, Nat.reduceSub]; rfl
  rw [decode_01 h1]; unfold decode01; rw [h2]
  simp only [BitVec.toNat_ofNat]
  rw [← hw]
  simp (disch := decide) only [extr_hi, extr_lo, extr_all, Nat.reduceSub]
  try rfl
theorem kopNot (d : BitVec 4) (a : BitVec 4) : Statement (.kopNot d a) := by
  intro _
  show decode (0x35#7 ++ d ++ a ++ 0x1000#17) = _
  generalize hw : (0x35#7 ++ d ++ a ++ 0x1000#17) = w
  have h1 : w.extractLsb' 30 2 = 1#2 := by rw [← hw]; simp (disch := decide) only [extr_hi, Nat.reduceSub]; rfl
  have h2 : w.extractLsb' 25 5 = 21#5 := by rw [← hw]; simp (disch := decide) only [extr_hi, Nat.reduceSub]; rfl
  rw [decode_01 h1]; unfold decode01; rw [h2]
  simp only [BitVec.toNat_ofNat]
  rw [← hw]
  simp (disch := decide) only [extr_hi, extr_lo, extr_all, Nat.reduceSub]
  try rfl
theorem kopMov (d : BitVec 4) (a : BitVec 4) : Statement (.kopMov d a) := by
  intro _
  show decode (0x35#7 ++ d ++ a ++ 0x1400#17) = _
  generalize hw : (0x35#7 ++ d ++ a ++ 0x1400#17) = w
  have h1 : w.extractLsb' 30 2 = 1#2 := by rw [← hw]; simp (disch := decide) only [extr_hi, Nat.reduceSub]; rfl
  have h2 : w.extractLsb' 25 5 = 21#5 := by rw [← hw]; simp (disch := decide) only [extr_hi, Nat.reduceSub]; rfl
  rw [decode_01 h1]; unfold decode01; rw [h2]
  simp only [BitVec.toNat_ofNat]
  rw [← hw]
  simp (disch := decide) only [extr_hi, extr_lo, extr_all, Nat.reduceSub]
  try rfl
theorem kopSetall (d : BitVec 4) : Statement (.kopSetall d) := by
  intro _
  show decode (0x35#7 ++ d ++ 0x1800#21) = _
  generalize hw : (0x35#7 ++ d ++ 0x1800#21) = w
  have h1 : w.extractLsb' 30 2 = 1#2 := by rw [← hw]; simp (disch := decide) only [extr_hi, Nat.reduceSub]; rfl
  have h2 : w.extractLsb' 25 5 = 21#5 := by rw [← hw]; simp (disch := decide) only [extr_hi, Nat.reduceSub]; rfl
  rw [decode_01 h1]; unfold decode01; rw [h2]
  simp only [BitVec.toNat_ofNat]
  rw [← hw]
  simp (disch := decide) only [extr_hi, extr_lo, extr_all, Nat.reduceSub]
  try rfl
theorem kopClear (d : BitVec 4) : Statement (.kopClear d) := by
  intro _
  show decode (0x35#7 ++ d ++ 0x1C00#21) = _
  generalize hw : (0x35#7 ++ d ++ 0x1C00#21) = w
  have h1 : w.extractLsb' 30 2 = 1#2 := by rw [← hw]; simp (disch := decide) only [extr_hi, Nat.reduceSub]; rfl
  have h2 : w.extractLsb' 25 5 = 21#5 := by rw [← hw]; simp (disch := decide) only [extr_hi, Nat.reduceSub]; rfl
  rw [decode_01 h1]; unfold decode01; rw [h2]
  simp only [BitVec.toNat_ofNat]
  rw [← hw]
  simp (disch := decide) only [extr_hi, extr_lo, extr_all, Nat.reduceSub]
  try rfl
theorem kexecSave (d : BitVec 4) : Statement (.kexecSave d) := by
  intro _
  show decode (0x36#7 ++ d ++ 0x0#21) = _
  generalize hw : (0x36#7 ++ d ++ 0x0#21) = w
  have h1 : w.extractLsb' 30 2 = 1#2 := by rw [← hw]; simp (disch := decide) only [extr_hi, Nat.reduceSub]; rfl
  have h2 : w.extractLsb' 25 5 = 22#5 := by rw [← hw]; simp (disch := decide) only [extr_hi, Nat.reduceSub]; rfl
  rw [decode_01 h1]; unfold decode01; rw [h2]
  simp only [BitVec.toNat_ofNat]
  rw [← hw]
  simp (disch := decide) only [extr_hi, extr_lo, extr_all, Nat.reduceSub]
  try rfl
theorem kexecSet (a : BitVec 4) : Statement (.kexecSet a) := by
  revert a; unfold Statement; decide +kernel
theorem kexecAnd (a : BitVec 4) : Statement (.kexecAnd a) := by
  revert a; unfold Statement; decide +kernel
theorem kexecAndn (a : BitVec 4) : Statement (.kexecAndn a) := by
  revert a; unfold Statement; decide +kernel
theorem kexecOr (a : BitVec 4) : Statement (.kexecOr a) := by
  revert a; unfold Statement; decide +kernel
theorem bra (o : BitVec 21) : Statement (.bra o) := by
  intro _
  show decode (0x380#11 ++ o) = _
  generalize hw : (0x380#11 ++ o) = w
  have h1 : w.extractLsb' 30 2 = 1#2 := by rw [← hw]; simp (disch := decide) only [extr_hi, Nat.reduceSub]; rfl
  have h2 : w.extractLsb' 25 5 = 24#5 := by rw [← hw]; simp (disch := decide) only [extr_hi, Nat.reduceSub]; rfl
  rw [decode_01 h1]; unfold decode01; rw [h2]
  simp only [BitVec.toNat_ofNat]
  rw [← hw]
  simp (disch := decide) only [extr_hi, extr_lo, extr_all, Nat.reduceSub]
  try rfl
theorem brany (k : BitVec 4) (o : BitVec 21) : Statement (.brany k o) := by
  intro _
  show decode (0x39#7 ++ k ++ o) = _
  generalize hw : (0x39#7 ++ k ++ o) = w
  have h1 : w.extractLsb' 30 2 = 1#2 := by rw [← hw]; simp (disch := decide) only [extr_hi, Nat.reduceSub]; rfl
  have h2 : w.extractLsb' 25 5 = 25#5 := by rw [← hw]; simp (disch := decide) only [extr_hi, Nat.reduceSub]; rfl
  rw [decode_01 h1]; unfold decode01; rw [h2]
  simp only [BitVec.toNat_ofNat]
  rw [← hw]
  simp (disch := decide) only [extr_hi, extr_lo, extr_all, Nat.reduceSub]
  try rfl
theorem brall (k : BitVec 4) (o : BitVec 21) : Statement (.brall k o) := by
  intro _
  show decode (0x3A#7 ++ k ++ o) = _
  generalize hw : (0x3A#7 ++ k ++ o) = w
  have h1 : w.extractLsb' 30 2 = 1#2 := by rw [← hw]; simp (disch := decide) only [extr_hi, Nat.reduceSub]; rfl
  have h2 : w.extractLsb' 25 5 = 26#5 := by rw [← hw]; simp (disch := decide) only [extr_hi, Nat.reduceSub]; rfl
  rw [decode_01 h1]; unfold decode01; rw [h2]
  simp only [BitVec.toNat_ofNat]
  rw [← hw]
  simp (disch := decide) only [extr_hi, extr_lo, extr_all, Nat.reduceSub]
  try rfl
theorem brnone (k : BitVec 4) (o : BitVec 21) : Statement (.brnone k o) := by
  intro _
  show decode (0x3B#7 ++ k ++ o) = _
  generalize hw : (0x3B#7 ++ k ++ o) = w
  have h1 : w.extractLsb' 30 2 = 1#2 := by rw [← hw]; simp (disch := decide) only [extr_hi, Nat.reduceSub]; rfl
  have h2 : w.extractLsb' 25 5 = 27#5 := by rw [← hw]; simp (disch := decide) only [extr_hi, Nat.reduceSub]; rfl
  rw [decode_01 h1]; unfold decode01; rw [h2]
  simp only [BitVec.toNat_ofNat]
  rw [← hw]
  simp (disch := decide) only [extr_hi, extr_lo, extr_all, Nat.reduceSub]
  try rfl
theorem call (o : BitVec 21) : Statement (.call o) := by
  intro _
  show decode (0x3C0#11 ++ o) = _
  generalize hw : (0x3C0#11 ++ o) = w
  have h1 : w.extractLsb' 30 2 = 1#2 := by rw [← hw]; simp (disch := decide) only [extr_hi, Nat.reduceSub]; rfl
  have h2 : w.extractLsb' 25 5 = 28#5 := by rw [← hw]; simp (disch := decide) only [extr_hi, Nat.reduceSub]; rfl
  rw [decode_01 h1]; unfold decode01; rw [h2]
  simp only [BitVec.toNat_ofNat]
  rw [← hw]
  simp (disch := decide) only [extr_hi, extr_lo, extr_all, Nat.reduceSub]
  try rfl
theorem reform (k : BitVec 4) (o : BitVec 21) : Statement (.reform k o) := by
  intro _
  show decode (0x3E#7 ++ k ++ o) = _
  generalize hw : (0x3E#7 ++ k ++ o) = w
  have h1 : w.extractLsb' 30 2 = 1#2 := by rw [← hw]; simp (disch := decide) only [extr_hi, Nat.reduceSub]; rfl
  have h2 : w.extractLsb' 25 5 = 30#5 := by rw [← hw]; simp (disch := decide) only [extr_hi, Nat.reduceSub]; rfl
  rw [decode_01 h1]; unfold decode01; rw [h2]
  simp only [BitVec.toNat_ofNat]
  rw [← hw]
  simp (disch := decide) only [extr_hi, extr_lo, extr_all, Nat.reduceSub]
  try rfl
theorem barInit (b : BitVec 6) (c : BitVec 13) : Statement (.barInit b c) := by
  intro _
  show decode (0xFC1#13 ++ b ++ c) = _
  generalize hw : (0xFC1#13 ++ b ++ c) = w
  have h1 : w.extractLsb' 30 2 = 1#2 := by rw [← hw]; simp (disch := decide) only [extr_hi, Nat.reduceSub]; rfl
  have h2 : w.extractLsb' 25 5 = 31#5 := by rw [← hw]; simp (disch := decide) only [extr_hi, Nat.reduceSub]; rfl
  rw [decode_01 h1]; unfold decode01; rw [h2]
  simp only [BitVec.toNat_ofNat]
  have h3 : w.extractLsb' 19 6 = 1#6 := by rw [← hw]; simp (disch := decide) only [extr_hi, Nat.reduceSub]; rfl
  unfold decodeCtlx; rw [h3]
  simp only [BitVec.toNat_ofNat]
  rw [← hw]
  simp (disch := decide) only [extr_hi, extr_lo, extr_all, Nat.reduceSub]
  try rfl
theorem barArrive (b : BitVec 6) : Statement (.barArrive b) := by
  intro _
  show decode (0xFC2#13 ++ b ++ 0x0#13) = _
  generalize hw : (0xFC2#13 ++ b ++ 0x0#13) = w
  have h1 : w.extractLsb' 30 2 = 1#2 := by rw [← hw]; simp (disch := decide) only [extr_hi, Nat.reduceSub]; rfl
  have h2 : w.extractLsb' 25 5 = 31#5 := by rw [← hw]; simp (disch := decide) only [extr_hi, Nat.reduceSub]; rfl
  rw [decode_01 h1]; unfold decode01; rw [h2]
  simp only [BitVec.toNat_ofNat]
  have h3 : w.extractLsb' 19 6 = 2#6 := by rw [← hw]; simp (disch := decide) only [extr_hi, Nat.reduceSub]; rfl
  unfold decodeCtlx; rw [h3]
  simp only [BitVec.toNat_ofNat]
  rw [← hw]
  simp (disch := decide) only [extr_hi, extr_lo, extr_all, Nat.reduceSub]
  try rfl
theorem barWait (b : BitVec 6) : Statement (.barWait b) := by
  intro _
  show decode (0xFC3#13 ++ b ++ 0x0#13) = _
  generalize hw : (0xFC3#13 ++ b ++ 0x0#13) = w
  have h1 : w.extractLsb' 30 2 = 1#2 := by rw [← hw]; simp (disch := decide) only [extr_hi, Nat.reduceSub]; rfl
  have h2 : w.extractLsb' 25 5 = 31#5 := by rw [← hw]; simp (disch := decide) only [extr_hi, Nat.reduceSub]; rfl
  rw [decode_01 h1]; unfold decode01; rw [h2]
  simp only [BitVec.toNat_ofNat]
  have h3 : w.extractLsb' 19 6 = 3#6 := by rw [← hw]; simp (disch := decide) only [extr_hi, Nat.reduceSub]; rfl
  unfold decodeCtlx; rw [h3]
  simp only [BitVec.toNat_ofNat]
  rw [← hw]
  simp (disch := decide) only [extr_hi, extr_lo, extr_all, Nat.reduceSub]
  try rfl
theorem barSync (b : BitVec 6) : Statement (.barSync b) := by
  intro _
  show decode (0xFC4#13 ++ b ++ 0x0#13) = _
  generalize hw : (0xFC4#13 ++ b ++ 0x0#13) = w
  have h1 : w.extractLsb' 30 2 = 1#2 := by rw [← hw]; simp (disch := decide) only [extr_hi, Nat.reduceSub]; rfl
  have h2 : w.extractLsb' 25 5 = 31#5 := by rw [← hw]; simp (disch := decide) only [extr_hi, Nat.reduceSub]; rfl
  rw [decode_01 h1]; unfold decode01; rw [h2]
  simp only [BitVec.toNat_ofNat]
  have h3 : w.extractLsb' 19 6 = 4#6 := by rw [← hw]; simp (disch := decide) only [extr_hi, Nat.reduceSub]; rfl
  unfold decodeCtlx; rw [h3]
  simp only [BitVec.toNat_ofNat]
  rw [← hw]
  simp (disch := decide) only [extr_hi, extr_lo, extr_all, Nat.reduceSub]
  try rfl
theorem jmpr (a : BitVec 7) : Statement (.jmpr a) := by
  intro _
  show decode (0xFC6#13 ++ a ++ 0x0#12) = _
  generalize hw : (0xFC6#13 ++ a ++ 0x0#12) = w
  have h1 : w.extractLsb' 30 2 = 1#2 := by rw [← hw]; simp (disch := decide) only [extr_hi, Nat.reduceSub]; rfl
  have h2 : w.extractLsb' 25 5 = 31#5 := by rw [← hw]; simp (disch := decide) only [extr_hi, Nat.reduceSub]; rfl
  rw [decode_01 h1]; unfold decode01; rw [h2]
  simp only [BitVec.toNat_ofNat]
  have h3 : w.extractLsb' 19 6 = 6#6 := by rw [← hw]; simp (disch := decide) only [extr_hi, Nat.reduceSub]; rfl
  unfold decodeCtlx; rw [h3]
  simp only [BitVec.toNat_ofNat]
  rw [← hw]
  simp (disch := decide) only [extr_hi, extr_lo, extr_all, Nat.reduceSub]
  try rfl
theorem trap (c : BitVec 8) : Statement (.trap c) := by
  intro _
  show decode (0x7E5000#24 ++ c) = _
  generalize hw : (0x7E5000#24 ++ c) = w
  have h1 : w.extractLsb' 30 2 = 1#2 := by rw [← hw]; simp (disch := decide) only [extr_hi, Nat.reduceSub]; rfl
  have h2 : w.extractLsb' 25 5 = 31#5 := by rw [← hw]; simp (disch := decide) only [extr_hi, Nat.reduceSub]; rfl
  rw [decode_01 h1]; unfold decode01; rw [h2]
  simp only [BitVec.toNat_ofNat]
  have h3 : w.extractLsb' 19 6 = 10#6 := by rw [← hw]; simp (disch := decide) only [extr_hi, Nat.reduceSub]; rfl
  unfold decodeCtlx; rw [h3]
  simp only [BitVec.toNat_ofNat]
  rw [← hw]
  simp (disch := decide) only [extr_hi, extr_lo, extr_all, Nat.reduceSub]
  try rfl
theorem ldN8 (o : BitVec 2) (d : BitVec 7) (a : BitVec 7) (f : BitVec 9) : Statement (.ldN8 o d a f) := by
  intro _
  show decode (0x40#7 ++ o ++ d ++ a ++ f) = _
  generalize hw : (0x40#7 ++ o ++ d ++ a ++ f) = w
  have h1 : w.extractLsb' 30 2 = 2#2 := by rw [← hw]; simp (disch := decide) only [extr_hi, Nat.reduceSub]; rfl
  have h2 : w.extractLsb' 25 5 = 0#5 := by rw [← hw]; simp (disch := decide) only [extr_hi, Nat.reduceSub]; rfl
  rw [decode_10 h1]; unfold decode10; rw [h2]
  simp only [BitVec.toNat_ofNat]
  rw [← hw]
  simp (disch := decide) only [extr_hi, extr_lo, extr_all, Nat.reduceSub]
  try rfl
theorem ldI8 (o : BitVec 2) (d : BitVec 7) (a : BitVec 7) (f : BitVec 9) : Statement (.ldI8 o d a f) := by
  intro _
  show decode (0x41#7 ++ o ++ d ++ a ++ f) = _
  generalize hw : (0x41#7 ++ o ++ d ++ a ++ f) = w
  have h1 : w.extractLsb' 30 2 = 2#2 := by rw [← hw]; simp (disch := decide) only [extr_hi, Nat.reduceSub]; rfl
  have h2 : w.extractLsb' 25 5 = 1#5 := by rw [← hw]; simp (disch := decide) only [extr_hi, Nat.reduceSub]; rfl
  rw [decode_10 h1]; unfold decode10; rw [h2]
  simp only [BitVec.toNat_ofNat]
  rw [← hw]
  simp (disch := decide) only [extr_hi, extr_lo, extr_all, Nat.reduceSub]
  try rfl
theorem ldN16 (o : BitVec 2) (d : BitVec 7) (a : BitVec 7) (f : BitVec 9) : Statement (.ldN16 o d a f) := by
  intro _
  show decode (0x42#7 ++ o ++ d ++ a ++ f) = _
  generalize hw : (0x42#7 ++ o ++ d ++ a ++ f) = w
  have h1 : w.extractLsb' 30 2 = 2#2 := by rw [← hw]; simp (disch := decide) only [extr_hi, Nat.reduceSub]; rfl
  have h2 : w.extractLsb' 25 5 = 2#5 := by rw [← hw]; simp (disch := decide) only [extr_hi, Nat.reduceSub]; rfl
  rw [decode_10 h1]; unfold decode10; rw [h2]
  simp only [BitVec.toNat_ofNat]
  rw [← hw]
  simp (disch := decide) only [extr_hi, extr_lo, extr_all, Nat.reduceSub]
  try rfl
theorem ldI16 (o : BitVec 2) (d : BitVec 7) (a : BitVec 7) (f : BitVec 9) : Statement (.ldI16 o d a f) := by
  intro _
  show decode (0x43#7 ++ o ++ d ++ a ++ f) = _
  generalize hw : (0x43#7 ++ o ++ d ++ a ++ f) = w
  have h1 : w.extractLsb' 30 2 = 2#2 := by rw [← hw]; simp (disch := decide) only [extr_hi, Nat.reduceSub]; rfl
  have h2 : w.extractLsb' 25 5 = 3#5 := by rw [← hw]; simp (disch := decide) only [extr_hi, Nat.reduceSub]; rfl
  rw [decode_10 h1]; unfold decode10; rw [h2]
  simp only [BitVec.toNat_ofNat]
  rw [← hw]
  simp (disch := decide) only [extr_hi, extr_lo, extr_all, Nat.reduceSub]
  try rfl
theorem ld32 (o : BitVec 2) (d : BitVec 7) (a : BitVec 7) (f : BitVec 9) : Statement (.ld32 o d a f) := by
  intro _
  show decode (0x44#7 ++ o ++ d ++ a ++ f) = _
  generalize hw : (0x44#7 ++ o ++ d ++ a ++ f) = w
  have h1 : w.extractLsb' 30 2 = 2#2 := by rw [← hw]; simp (disch := decide) only [extr_hi, Nat.reduceSub]; rfl
  have h2 : w.extractLsb' 25 5 = 4#5 := by rw [← hw]; simp (disch := decide) only [extr_hi, Nat.reduceSub]; rfl
  rw [decode_10 h1]; unfold decode10; rw [h2]
  simp only [BitVec.toNat_ofNat]
  rw [← hw]
  simp (disch := decide) only [extr_hi, extr_lo, extr_all, Nat.reduceSub]
  try rfl
theorem ld64 (o : BitVec 2) (d : BitVec 7) (a : BitVec 7) (f : BitVec 9) : Statement (.ld64 o d a f) := by
  intro _
  show decode (0x45#7 ++ o ++ d ++ a ++ f) = _
  generalize hw : (0x45#7 ++ o ++ d ++ a ++ f) = w
  have h1 : w.extractLsb' 30 2 = 2#2 := by rw [← hw]; simp (disch := decide) only [extr_hi, Nat.reduceSub]; rfl
  have h2 : w.extractLsb' 25 5 = 5#5 := by rw [← hw]; simp (disch := decide) only [extr_hi, Nat.reduceSub]; rfl
  rw [decode_10 h1]; unfold decode10; rw [h2]
  simp only [BitVec.toNat_ofNat]
  rw [← hw]
  simp (disch := decide) only [extr_hi, extr_lo, extr_all, Nat.reduceSub]
  try rfl
theorem ld128 (o : BitVec 2) (d : BitVec 7) (a : BitVec 7) (f : BitVec 9) : Statement (.ld128 o d a f) := by
  intro _
  show decode (0x46#7 ++ o ++ d ++ a ++ f) = _
  generalize hw : (0x46#7 ++ o ++ d ++ a ++ f) = w
  have h1 : w.extractLsb' 30 2 = 2#2 := by rw [← hw]; simp (disch := decide) only [extr_hi, Nat.reduceSub]; rfl
  have h2 : w.extractLsb' 25 5 = 6#5 := by rw [← hw]; simp (disch := decide) only [extr_hi, Nat.reduceSub]; rfl
  rw [decode_10 h1]; unfold decode10; rw [h2]
  simp only [BitVec.toNat_ofNat]
  rw [← hw]
  simp (disch := decide) only [extr_hi, extr_lo, extr_all, Nat.reduceSub]
  try rfl
theorem st8 (o : BitVec 2) (d : BitVec 7) (a : BitVec 7) (f : BitVec 9) : Statement (.st8 o d a f) := by
  intro _
  show decode (0x47#7 ++ o ++ d ++ a ++ f) = _
  generalize hw : (0x47#7 ++ o ++ d ++ a ++ f) = w
  have h1 : w.extractLsb' 30 2 = 2#2 := by rw [← hw]; simp (disch := decide) only [extr_hi, Nat.reduceSub]; rfl
  have h2 : w.extractLsb' 25 5 = 7#5 := by rw [← hw]; simp (disch := decide) only [extr_hi, Nat.reduceSub]; rfl
  rw [decode_10 h1]; unfold decode10; rw [h2]
  simp only [BitVec.toNat_ofNat]
  rw [← hw]
  simp (disch := decide) only [extr_hi, extr_lo, extr_all, Nat.reduceSub]
  try rfl
theorem st16 (o : BitVec 2) (d : BitVec 7) (a : BitVec 7) (f : BitVec 9) : Statement (.st16 o d a f) := by
  intro _
  show decode (0x48#7 ++ o ++ d ++ a ++ f) = _
  generalize hw : (0x48#7 ++ o ++ d ++ a ++ f) = w
  have h1 : w.extractLsb' 30 2 = 2#2 := by rw [← hw]; simp (disch := decide) only [extr_hi, Nat.reduceSub]; rfl
  have h2 : w.extractLsb' 25 5 = 8#5 := by rw [← hw]; simp (disch := decide) only [extr_hi, Nat.reduceSub]; rfl
  rw [decode_10 h1]; unfold decode10; rw [h2]
  simp only [BitVec.toNat_ofNat]
  rw [← hw]
  simp (disch := decide) only [extr_hi, extr_lo, extr_all, Nat.reduceSub]
  try rfl
theorem st32 (o : BitVec 2) (d : BitVec 7) (a : BitVec 7) (f : BitVec 9) : Statement (.st32 o d a f) := by
  intro _
  show decode (0x49#7 ++ o ++ d ++ a ++ f) = _
  generalize hw : (0x49#7 ++ o ++ d ++ a ++ f) = w
  have h1 : w.extractLsb' 30 2 = 2#2 := by rw [← hw]; simp (disch := decide) only [extr_hi, Nat.reduceSub]; rfl
  have h2 : w.extractLsb' 25 5 = 9#5 := by rw [← hw]; simp (disch := decide) only [extr_hi, Nat.reduceSub]; rfl
  rw [decode_10 h1]; unfold decode10; rw [h2]
  simp only [BitVec.toNat_ofNat]
  rw [← hw]
  simp (disch := decide) only [extr_hi, extr_lo, extr_all, Nat.reduceSub]
  try rfl
theorem st64 (o : BitVec 2) (d : BitVec 7) (a : BitVec 7) (f : BitVec 9) : Statement (.st64 o d a f) := by
  intro _
  show decode (0x4A#7 ++ o ++ d ++ a ++ f) = _
  generalize hw : (0x4A#7 ++ o ++ d ++ a ++ f) = w
  have h1 : w.extractLsb' 30 2 = 2#2 := by rw [← hw]; simp (disch := decide) only [extr_hi, Nat.reduceSub]; rfl
  have h2 : w.extractLsb' 25 5 = 10#5 := by rw [← hw]; simp (disch := decide) only [extr_hi, Nat.reduceSub]; rfl
  rw [decode_10 h1]; unfold decode10; rw [h2]
  simp only [BitVec.toNat_ofNat]
  rw [← hw]
  simp (disch := decide) only [extr_hi, extr_lo, extr_all, Nat.reduceSub]
  try rfl
theorem st128 (o : BitVec 2) (d : BitVec 7) (a : BitVec 7) (f : BitVec 9) : Statement (.st128 o d a f) := by
  intro _
  show decode (0x4B#7 ++ o ++ d ++ a ++ f) = _
  generalize hw : (0x4B#7 ++ o ++ d ++ a ++ f) = w
  have h1 : w.extractLsb' 30 2 = 2#2 := by rw [← hw]; simp (disch := decide) only [extr_hi, Nat.reduceSub]; rfl
  have h2 : w.extractLsb' 25 5 = 11#5 := by rw [← hw]; simp (disch := decide) only [extr_hi, Nat.reduceSub]; rfl
  rw [decode_10 h1]; unfold decode10; rw [h2]
  simp only [BitVec.toNat_ofNat]
  rw [← hw]
  simp (disch := decide) only [extr_hi, extr_lo, extr_all, Nat.reduceSub]
  try rfl
theorem ldp32 (d : BitVec 7) (a : BitVec 7) (f : BitVec 9) : Statement (.ldp32 d a f) := by
  intro _
  show decode (0x130#9 ++ d ++ a ++ f) = _
  generalize hw : (0x130#9 ++ d ++ a ++ f) = w
  have h1 : w.extractLsb' 30 2 = 2#2 := by rw [← hw]; simp (disch := decide) only [extr_hi, Nat.reduceSub]; rfl
  have h2 : w.extractLsb' 25 5 = 12#5 := by rw [← hw]; simp (disch := decide) only [extr_hi, Nat.reduceSub]; rfl
  rw [decode_10 h1]; unfold decode10; rw [h2]
  simp only [BitVec.toNat_ofNat]
  rw [← hw]
  simp (disch := decide) only [extr_hi, extr_lo, extr_all, Nat.reduceSub]
  try rfl
theorem ldp128 (d : BitVec 7) (a : BitVec 7) (f : BitVec 9) : Statement (.ldp128 d a f) := by
  intro _
  show decode (0x134#9 ++ d ++ a ++ f) = _
  generalize hw : (0x134#9 ++ d ++ a ++ f) = w
  have h1 : w.extractLsb' 30 2 = 2#2 := by rw [← hw]; simp (disch := decide) only [extr_hi, Nat.reduceSub]; rfl
  have h2 : w.extractLsb' 25 5 = 13#5 := by rw [← hw]; simp (disch := decide) only [extr_hi, Nat.reduceSub]; rfl
  rw [decode_10 h1]; unfold decode10; rw [h2]
  simp only [BitVec.toNat_ofNat]
  rw [← hw]
  simp (disch := decide) only [extr_hi, extr_lo, extr_all, Nat.reduceSub]
  try rfl
theorem stp32 (d : BitVec 7) (a : BitVec 7) (f : BitVec 9) : Statement (.stp32 d a f) := by
  intro _
  show decode (0x138#9 ++ d ++ a ++ f) = _
  generalize hw : (0x138#9 ++ d ++ a ++ f) = w
  have h1 : w.extractLsb' 30 2 = 2#2 := by rw [← hw]; simp (disch := decide) only [extr_hi, Nat.reduceSub]; rfl
  have h2 : w.extractLsb' 25 5 = 14#5 := by rw [← hw]; simp (disch := decide) only [extr_hi, Nat.reduceSub]; rfl
  rw [decode_10 h1]; unfold decode10; rw [h2]
  simp only [BitVec.toNat_ofNat]
  rw [← hw]
  simp (disch := decide) only [extr_hi, extr_lo, extr_all, Nat.reduceSub]
  try rfl
theorem stp128 (d : BitVec 7) (a : BitVec 7) (f : BitVec 9) : Statement (.stp128 d a f) := by
  intro _
  show decode (0x13C#9 ++ d ++ a ++ f) = _
  generalize hw : (0x13C#9 ++ d ++ a ++ f) = w
  have h1 : w.extractLsb' 30 2 = 2#2 := by rw [← hw]; simp (disch := decide) only [extr_hi, Nat.reduceSub]; rfl
  have h2 : w.extractLsb' 25 5 = 15#5 := by rw [← hw]; simp (disch := decide) only [extr_hi, Nat.reduceSub]; rfl
  rw [decode_10 h1]; unfold decode10; rw [h2]
  simp only [BitVec.toNat_ofNat]
  rw [← hw]
  simp (disch := decide) only [extr_hi, extr_lo, extr_all, Nat.reduceSub]
  try rfl
theorem atomAddI32 (o : BitVec 2) (s : BitVec 2) (d : BitVec 7) (a : BitVec 7) (b : BitVec 7) : Statement (.atomAddI32 o s d a b) := by
  intro _
  show decode (0x50#7 ++ o ++ s ++ d ++ a ++ b) = _
  generalize hw : (0x50#7 ++ o ++ s ++ d ++ a ++ b) = w
  have h1 : w.extractLsb' 30 2 = 2#2 := by rw [← hw]; simp (disch := decide) only [extr_hi, Nat.reduceSub]; rfl
  have h2 : w.extractLsb' 25 5 = 16#5 := by rw [← hw]; simp (disch := decide) only [extr_hi, Nat.reduceSub]; rfl
  rw [decode_10 h1]; unfold decode10; rw [h2]
  simp only [BitVec.toNat_ofNat]
  rw [← hw]
  simp (disch := decide) only [extr_hi, extr_lo, extr_all, Nat.reduceSub]
  try rfl
theorem atomAddI64 (o : BitVec 2) (s : BitVec 2) (d : BitVec 7) (a : BitVec 7) (b : BitVec 7) : Statement (.atomAddI64 o s d a b) := by
  intro _
  show decode (0x51#7 ++ o ++ s ++ d ++ a ++ b) = _
  generalize hw : (0x51#7 ++ o ++ s ++ d ++ a ++ b) = w
  have h1 : w.extractLsb' 30 2 = 2#2 := by rw [← hw]; simp (disch := decide) only [extr_hi, Nat.reduceSub]; rfl
  have h2 : w.extractLsb' 25 5 = 17#5 := by rw [← hw]; simp (disch := decide) only [extr_hi, Nat.reduceSub]; rfl
  rw [decode_10 h1]; unfold decode10; rw [h2]
  simp only [BitVec.toNat_ofNat]
  rw [← hw]
  simp (disch := decide) only [extr_hi, extr_lo, extr_all, Nat.reduceSub]
  try rfl
theorem atomMinI32 (o : BitVec 2) (s : BitVec 2) (d : BitVec 7) (a : BitVec 7) (b : BitVec 7) : Statement (.atomMinI32 o s d a b) := by
  intro _
  show decode (0x52#7 ++ o ++ s ++ d ++ a ++ b) = _
  generalize hw : (0x52#7 ++ o ++ s ++ d ++ a ++ b) = w
  have h1 : w.extractLsb' 30 2 = 2#2 := by rw [← hw]; simp (disch := decide) only [extr_hi, Nat.reduceSub]; rfl
  have h2 : w.extractLsb' 25 5 = 18#5 := by rw [← hw]; simp (disch := decide) only [extr_hi, Nat.reduceSub]; rfl
  rw [decode_10 h1]; unfold decode10; rw [h2]
  simp only [BitVec.toNat_ofNat]
  rw [← hw]
  simp (disch := decide) only [extr_hi, extr_lo, extr_all, Nat.reduceSub]
  try rfl
theorem atomMaxI32 (o : BitVec 2) (s : BitVec 2) (d : BitVec 7) (a : BitVec 7) (b : BitVec 7) : Statement (.atomMaxI32 o s d a b) := by
  intro _
  show decode (0x53#7 ++ o ++ s ++ d ++ a ++ b) = _
  generalize hw : (0x53#7 ++ o ++ s ++ d ++ a ++ b) = w
  have h1 : w.extractLsb' 30 2 = 2#2 := by rw [← hw]; simp (disch := decide) only [extr_hi, Nat.reduceSub]; rfl
  have h2 : w.extractLsb' 25 5 = 19#5 := by rw [← hw]; simp (disch := decide) only [extr_hi, Nat.reduceSub]; rfl
  rw [decode_10 h1]; unfold decode10; rw [h2]
  simp only [BitVec.toNat_ofNat]
  rw [← hw]
  simp (disch := decide) only [extr_hi, extr_lo, extr_all, Nat.reduceSub]
  try rfl
theorem atomMinN32 (o : BitVec 2) (s : BitVec 2) (d : BitVec 7) (a : BitVec 7) (b : BitVec 7) : Statement (.atomMinN32 o s d a b) := by
  intro _
  show decode (0x54#7 ++ o ++ s ++ d ++ a ++ b) = _
  generalize hw : (0x54#7 ++ o ++ s ++ d ++ a ++ b) = w
  have h1 : w.extractLsb' 30 2 = 2#2 := by rw [← hw]; simp (disch := decide) only [extr_hi, Nat.reduceSub]; rfl
  have h2 : w.extractLsb' 25 5 = 20#5 := by rw [← hw]; simp (disch := decide) only [extr_hi, Nat.reduceSub]; rfl
  rw [decode_10 h1]; unfold decode10; rw [h2]
  simp only [BitVec.toNat_ofNat]
  rw [← hw]
  simp (disch := decide) only [extr_hi, extr_lo, extr_all, Nat.reduceSub]
  try rfl
theorem atomMaxN32 (o : BitVec 2) (s : BitVec 2) (d : BitVec 7) (a : BitVec 7) (b : BitVec 7) : Statement (.atomMaxN32 o s d a b) := by
  intro _
  show decode (0x55#7 ++ o ++ s ++ d ++ a ++ b) = _
  generalize hw : (0x55#7 ++ o ++ s ++ d ++ a ++ b) = w
  have h1 : w.extractLsb' 30 2 = 2#2 := by rw [← hw]; simp (disch := decide) only [extr_hi, Nat.reduceSub]; rfl
  have h2 : w.extractLsb' 25 5 = 21#5 := by rw [← hw]; simp (disch := decide) only [extr_hi, Nat.reduceSub]; rfl
  rw [decode_10 h1]; unfold decode10; rw [h2]
  simp only [BitVec.toNat_ofNat]
  rw [← hw]
  simp (disch := decide) only [extr_hi, extr_lo, extr_all, Nat.reduceSub]
  try rfl
theorem atomAnd (o : BitVec 2) (s : BitVec 2) (d : BitVec 7) (a : BitVec 7) (b : BitVec 7) : Statement (.atomAnd o s d a b) := by
  intro _
  show decode (0x56#7 ++ o ++ s ++ d ++ a ++ b) = _
  generalize hw : (0x56#7 ++ o ++ s ++ d ++ a ++ b) = w
  have h1 : w.extractLsb' 30 2 = 2#2 := by rw [← hw]; simp (disch := decide) only [extr_hi, Nat.reduceSub]; rfl
  have h2 : w.extractLsb' 25 5 = 22#5 := by rw [← hw]; simp (disch := decide) only [extr_hi, Nat.reduceSub]; rfl
  rw [decode_10 h1]; unfold decode10; rw [h2]
  simp only [BitVec.toNat_ofNat]
  rw [← hw]
  simp (disch := decide) only [extr_hi, extr_lo, extr_all, Nat.reduceSub]
  try rfl
theorem atomOr (o : BitVec 2) (s : BitVec 2) (d : BitVec 7) (a : BitVec 7) (b : BitVec 7) : Statement (.atomOr o s d a b) := by
  intro _
  show decode (0x57#7 ++ o ++ s ++ d ++ a ++ b) = _
  generalize hw : (0x57#7 ++ o ++ s ++ d ++ a ++ b) = w
  have h1 : w.extractLsb' 30 2 = 2#2 := by rw [← hw]; simp (disch := decide) only [extr_hi, Nat.reduceSub]; rfl
  have h2 : w.extractLsb' 25 5 = 23#5 := by rw [← hw]; simp (disch := decide) only [extr_hi, Nat.reduceSub]; rfl
  rw [decode_10 h1]; unfold decode10; rw [h2]
  simp only [BitVec.toNat_ofNat]
  rw [← hw]
  simp (disch := decide) only [extr_hi, extr_lo, extr_all, Nat.reduceSub]
  try rfl
theorem atomXor (o : BitVec 2) (s : BitVec 2) (d : BitVec 7) (a : BitVec 7) (b : BitVec 7) : Statement (.atomXor o s d a b) := by
  intro _
  show decode (0x58#7 ++ o ++ s ++ d ++ a ++ b) = _
  generalize hw : (0x58#7 ++ o ++ s ++ d ++ a ++ b) = w
  have h1 : w.extractLsb' 30 2 = 2#2 := by rw [← hw]; simp (disch := decide) only [extr_hi, Nat.reduceSub]; rfl
  have h2 : w.extractLsb' 25 5 = 24#5 := by rw [← hw]; simp (disch := decide) only [extr_hi, Nat.reduceSub]; rfl
  rw [decode_10 h1]; unfold decode10; rw [h2]
  simp only [BitVec.toNat_ofNat]
  rw [← hw]
  simp (disch := decide) only [extr_hi, extr_lo, extr_all, Nat.reduceSub]
  try rfl
theorem atomXchg (o : BitVec 2) (s : BitVec 2) (d : BitVec 7) (a : BitVec 7) (b : BitVec 7) : Statement (.atomXchg o s d a b) := by
  intro _
  show decode (0x59#7 ++ o ++ s ++ d ++ a ++ b) = _
  generalize hw : (0x59#7 ++ o ++ s ++ d ++ a ++ b) = w
  have h1 : w.extractLsb' 30 2 = 2#2 := by rw [← hw]; simp (disch := decide) only [extr_hi, Nat.reduceSub]; rfl
  have h2 : w.extractLsb' 25 5 = 25#5 := by rw [← hw]; simp (disch := decide) only [extr_hi, Nat.reduceSub]; rfl
  rw [decode_10 h1]; unfold decode10; rw [h2]
  simp only [BitVec.toNat_ofNat]
  rw [← hw]
  simp (disch := decide) only [extr_hi, extr_lo, extr_all, Nat.reduceSub]
  try rfl
theorem atomCas (o : BitVec 2) (s : BitVec 2) (d : BitVec 7) (a : BitVec 7) (b : BitVec 7) : Statement (.atomCas o s d a b) := by
  intro _
  show decode (0x5A#7 ++ o ++ s ++ d ++ a ++ b) = _
  generalize hw : (0x5A#7 ++ o ++ s ++ d ++ a ++ b) = w
  have h1 : w.extractLsb' 30 2 = 2#2 := by rw [← hw]; simp (disch := decide) only [extr_hi, Nat.reduceSub]; rfl
  have h2 : w.extractLsb' 25 5 = 26#5 := by rw [← hw]; simp (disch := decide) only [extr_hi, Nat.reduceSub]; rfl
  rw [decode_10 h1]; unfold decode10; rw [h2]
  simp only [BitVec.toNat_ofNat]
  rw [← hw]
  simp (disch := decide) only [extr_hi, extr_lo, extr_all, Nat.reduceSub]
  try rfl
theorem atomXchg64 (o : BitVec 2) (s : BitVec 2) (d : BitVec 7) (a : BitVec 7) (b : BitVec 7) : Statement (.atomXchg64 o s d a b) := by
  intro _
  show decode (0x5B#7 ++ o ++ s ++ d ++ a ++ b) = _
  generalize hw : (0x5B#7 ++ o ++ s ++ d ++ a ++ b) = w
  have h1 : w.extractLsb' 30 2 = 2#2 := by rw [← hw]; simp (disch := decide) only [extr_hi, Nat.reduceSub]; rfl
  have h2 : w.extractLsb' 25 5 = 27#5 := by rw [← hw]; simp (disch := decide) only [extr_hi, Nat.reduceSub]; rfl
  rw [decode_10 h1]; unfold decode10; rw [h2]
  simp only [BitVec.toNat_ofNat]
  rw [← hw]
  simp (disch := decide) only [extr_hi, extr_lo, extr_all, Nat.reduceSub]
  try rfl
theorem fenceAcq (s : BitVec 2) : Statement (.fenceAcq s) := by
  intro _
  show decode (0x5C00000#27 ++ s ++ 0x1#3) = _
  generalize hw : (0x5C00000#27 ++ s ++ 0x1#3) = w
  have h1 : w.extractLsb' 30 2 = 2#2 := by rw [← hw]; simp (disch := decide) only [extr_hi, Nat.reduceSub]; rfl
  have h2 : w.extractLsb' 25 5 = 28#5 := by rw [← hw]; simp (disch := decide) only [extr_hi, Nat.reduceSub]; rfl
  rw [decode_10 h1]; unfold decode10; rw [h2]
  simp only [BitVec.toNat_ofNat]
  have h3 : w.extractLsb' 19 6 = 0#6 := by rw [← hw]; simp (disch := decide) only [extr_hi, Nat.reduceSub]; rfl
  unfold decodeMemx; rw [h3]
  simp only [BitVec.toNat_ofNat]
  rw [← hw]
  simp (disch := decide) only [extr_hi, extr_lo, extr_all, Nat.reduceSub]
  try rfl
theorem fenceRel (s : BitVec 2) : Statement (.fenceRel s) := by
  intro _
  show decode (0x5C00000#27 ++ s ++ 0x2#3) = _
  generalize hw : (0x5C00000#27 ++ s ++ 0x2#3) = w
  have h1 : w.extractLsb' 30 2 = 2#2 := by rw [← hw]; simp (disch := decide) only [extr_hi, Nat.reduceSub]; rfl
  have h2 : w.extractLsb' 25 5 = 28#5 := by rw [← hw]; simp (disch := decide) only [extr_hi, Nat.reduceSub]; rfl
  rw [decode_10 h1]; unfold decode10; rw [h2]
  simp only [BitVec.toNat_ofNat]
  have h3 : w.extractLsb' 19 6 = 0#6 := by rw [← hw]; simp (disch := decide) only [extr_hi, Nat.reduceSub]; rfl
  unfold decodeMemx; rw [h3]
  simp only [BitVec.toNat_ofNat]
  rw [← hw]
  simp (disch := decide) only [extr_hi, extr_lo, extr_all, Nat.reduceSub]
  try rfl
theorem fenceFull (s : BitVec 2) : Statement (.fenceFull s) := by
  intro _
  show decode (0x5C00000#27 ++ s ++ 0x3#3) = _
  generalize hw : (0x5C00000#27 ++ s ++ 0x3#3) = w
  have h1 : w.extractLsb' 30 2 = 2#2 := by rw [← hw]; simp (disch := decide) only [extr_hi, Nat.reduceSub]; rfl
  have h2 : w.extractLsb' 25 5 = 28#5 := by rw [← hw]; simp (disch := decide) only [extr_hi, Nat.reduceSub]; rfl
  rw [decode_10 h1]; unfold decode10; rw [h2]
  simp only [BitVec.toNat_ofNat]
  have h3 : w.extractLsb' 19 6 = 0#6 := by rw [← hw]; simp (disch := decide) only [extr_hi, Nat.reduceSub]; rfl
  unfold decodeMemx; rw [h3]
  simp only [BitVec.toNat_ofNat]
  rw [← hw]
  simp (disch := decide) only [extr_hi, extr_lo, extr_all, Nat.reduceSub]
  try rfl
theorem xfence (b : BitVec 6) (a : BitVec 6) (s : BitVec 2) : Statement (.xfence b a s) := by
  intro _
  show decode (0x1701#13 ++ b ++ a ++ s ++ 0x0#5) = _
  generalize hw : (0x1701#13 ++ b ++ a ++ s ++ 0x0#5) = w
  have h1 : w.extractLsb' 30 2 = 2#2 := by rw [← hw]; simp (disch := decide) only [extr_hi, Nat.reduceSub]; rfl
  have h2 : w.extractLsb' 25 5 = 28#5 := by rw [← hw]; simp (disch := decide) only [extr_hi, Nat.reduceSub]; rfl
  rw [decode_10 h1]; unfold decode10; rw [h2]
  simp only [BitVec.toNat_ofNat]
  have h3 : w.extractLsb' 19 6 = 1#6 := by rw [← hw]; simp (disch := decide) only [extr_hi, Nat.reduceSub]; rfl
  unfold decodeMemx; rw [h3]
  simp only [BitVec.toNat_ofNat]
  rw [← hw]
  simp (disch := decide) only [extr_hi, extr_lo, extr_all, Nat.reduceSub]
  try rfl
theorem spill (s : BitVec 7) (r : BitVec 7) : Statement (.spill s r) := by
  intro _
  show decode (0x1702#13 ++ s ++ r ++ 0x0#5) = _
  generalize hw : (0x1702#13 ++ s ++ r ++ 0x0#5) = w
  have h1 : w.extractLsb' 30 2 = 2#2 := by rw [← hw]; simp (disch := decide) only [extr_hi, Nat.reduceSub]; rfl
  have h2 : w.extractLsb' 25 5 = 28#5 := by rw [← hw]; simp (disch := decide) only [extr_hi, Nat.reduceSub]; rfl
  rw [decode_10 h1]; unfold decode10; rw [h2]
  simp only [BitVec.toNat_ofNat]
  have h3 : w.extractLsb' 19 6 = 2#6 := by rw [← hw]; simp (disch := decide) only [extr_hi, Nat.reduceSub]; rfl
  unfold decodeMemx; rw [h3]
  simp only [BitVec.toNat_ofNat]
  rw [← hw]
  simp (disch := decide) only [extr_hi, extr_lo, extr_all, Nat.reduceSub]
  try rfl
theorem fill (r : BitVec 7) (s : BitVec 7) : Statement (.fill r s) := by
  intro _
  show decode (0x1703#13 ++ r ++ s ++ 0x0#5) = _
  generalize hw : (0x1703#13 ++ r ++ s ++ 0x0#5) = w
  have h1 : w.extractLsb' 30 2 = 2#2 := by rw [← hw]; simp (disch := decide) only [extr_hi, Nat.reduceSub]; rfl
  have h2 : w.extractLsb' 25 5 = 28#5 := by rw [← hw]; simp (disch := decide) only [extr_hi, Nat.reduceSub]; rfl
  rw [decode_10 h1]; unfold decode10; rw [h2]
  simp only [BitVec.toNat_ofNat]
  have h3 : w.extractLsb' 19 6 = 3#6 := by rw [← hw]; simp (disch := decide) only [extr_hi, Nat.reduceSub]; rfl
  unfold decodeMemx; rw [h3]
  simp only [BitVec.toNat_ofNat]
  rw [← hw]
  simp (disch := decide) only [extr_hi, extr_lo, extr_all, Nat.reduceSub]
  try rfl
theorem waita (e : BitVec 7) (a : BitVec 7) : Statement (.waita e a) := by
  intro _
  show decode (0x1704#13 ++ e ++ a ++ 0x0#5) = _
  generalize hw : (0x1704#13 ++ e ++ a ++ 0x0#5) = w
  have h1 : w.extractLsb' 30 2 = 2#2 := by rw [← hw]; simp (disch := decide) only [extr_hi, Nat.reduceSub]; rfl
  have h2 : w.extractLsb' 25 5 = 28#5 := by rw [← hw]; simp (disch := decide) only [extr_hi, Nat.reduceSub]; rfl
  rw [decode_10 h1]; unfold decode10; rw [h2]
  simp only [BitVec.toNat_ofNat]
  have h3 : w.extractLsb' 19 6 = 4#6 := by rw [← hw]; simp (disch := decide) only [extr_hi, Nat.reduceSub]; rfl
  unfold decodeMemx; rw [h3]
  simp only [BitVec.toNat_ofNat]
  rw [← hw]
  simp (disch := decide) only [extr_hi, extr_lo, extr_all, Nat.reduceSub]
  try rfl
theorem wake (n : BitVec 7) (a : BitVec 7) : Statement (.wake n a) := by
  intro _
  show decode (0x1705#13 ++ n ++ a ++ 0x0#5) = _
  generalize hw : (0x1705#13 ++ n ++ a ++ 0x0#5) = w
  have h1 : w.extractLsb' 30 2 = 2#2 := by rw [← hw]; simp (disch := decide) only [extr_hi, Nat.reduceSub]; rfl
  have h2 : w.extractLsb' 25 5 = 28#5 := by rw [← hw]; simp (disch := decide) only [extr_hi, Nat.reduceSub]; rfl
  rw [decode_10 h1]; unfold decode10; rw [h2]
  simp only [BitVec.toNat_ofNat]
  have h3 : w.extractLsb' 19 6 = 5#6 := by rw [← hw]; simp (disch := decide) only [extr_hi, Nat.reduceSub]; rfl
  unfold decodeMemx; rw [h3]
  simp only [BitVec.toNat_ofNat]
  rw [← hw]
  simp (disch := decide) only [extr_hi, extr_lo, extr_all, Nat.reduceSub]
  try rfl
theorem waitp (e : BitVec 7) (a : BitVec 7) (c : BitVec 2) : Statement (.waitp e a c) := by
  intro _
  show decode (0x1706#13 ++ e ++ a ++ 0x0#3 ++ c) = _
  generalize hw : (0x1706#13 ++ e ++ a ++ 0x0#3 ++ c) = w
  have h1 : w.extractLsb' 30 2 = 2#2 := by rw [← hw]; simp (disch := decide) only [extr_hi, Nat.reduceSub]; rfl
  have h2 : w.extractLsb' 25 5 = 28#5 := by rw [← hw]; simp (disch := decide) only [extr_hi, Nat.reduceSub]; rfl
  rw [decode_10 h1]; unfold decode10; rw [h2]
  simp only [BitVec.toNat_ofNat]
  have h3 : w.extractLsb' 19 6 = 6#6 := by rw [← hw]; simp (disch := decide) only [extr_hi, Nat.reduceSub]; rfl
  unfold decodeMemx; rw [h3]
  simp only [BitVec.toNat_ofNat]
  rw [← hw]
  simp (disch := decide) only [extr_hi, extr_lo, extr_all, Nat.reduceSub]
  try rfl
theorem xadd (d : BitVec 7) (a : BitVec 7) (s : BitVec 2) : Statement (.xadd d a s) := by
  intro _
  show decode (0x1707#13 ++ d ++ a ++ s ++ 0x0#3) = _
  generalize hw : (0x1707#13 ++ d ++ a ++ s ++ 0x0#3) = w
  have h1 : w.extractLsb' 30 2 = 2#2 := by rw [← hw]; simp (disch := decide) only [extr_hi, Nat.reduceSub]; rfl
  have h2 : w.extractLsb' 25 5 = 28#5 := by rw [← hw]; simp (disch := decide) only [extr_hi, Nat.reduceSub]; rfl
  rw [decode_10 h1]; unfold decode10; rw [h2]
  simp only [BitVec.toNat_ofNat]
  have h3 : w.extractLsb' 19 6 = 7#6 := by rw [← hw]; simp (disch := decide) only [extr_hi, Nat.reduceSub]; rfl
  unfold decodeMemx; rw [h3]
  simp only [BitVec.toNat_ofNat]
  rw [← hw]
  simp (disch := decide) only [extr_hi, extr_lo, extr_all, Nat.reduceSub]
  try rfl
theorem esample (p : BitVec 7) (i : BitVec 7) (n : BitVec 4) : Statement (.esample p i n) := by
  intro _
  show decode (0x1708#13 ++ p ++ i ++ 0x0#1 ++ n) = _
  generalize hw : (0x1708#13 ++ p ++ i ++ 0x0#1 ++ n) = w
  have h1 : w.extractLsb' 30 2 = 2#2 := by rw [← hw]; simp (disch := decide) only [extr_hi, Nat.reduceSub]; rfl
  have h2 : w.extractLsb' 25 5 = 28#5 := by rw [← hw]; simp (disch := decide) only [extr_hi, Nat.reduceSub]; rfl
  rw [decode_10 h1]; unfold decode10; rw [h2]
  simp only [BitVec.toNat_ofNat]
  have h3 : w.extractLsb' 19 6 = 8#6 := by rw [← hw]; simp (disch := decide) only [extr_hi, Nat.reduceSub]; rfl
  unfold decodeMemx; rw [h3]
  simp only [BitVec.toNat_ofNat]
  rw [← hw]
  simp (disch := decide) only [extr_hi, extr_lo, extr_all, Nat.reduceSub]
  try rfl
theorem eload (q : BitVec 7) (i : BitVec 7) (n : BitVec 4) : Statement (.eload q i n) := by
  intro _
  show decode (0x1709#13 ++ q ++ i ++ 0x0#1 ++ n) = _
  generalize hw : (0x1709#13 ++ q ++ i ++ 0x0#1 ++ n) = w
  have h1 : w.extractLsb' 30 2 = 2#2 := by rw [← hw]; simp (disch := decide) only [extr_hi, Nat.reduceSub]; rfl
  have h2 : w.extractLsb' 25 5 = 28#5 := by rw [← hw]; simp (disch := decide) only [extr_hi, Nat.reduceSub]; rfl
  rw [decode_10 h1]; unfold decode10; rw [h2]
  simp only [BitVec.toNat_ofNat]
  have h3 : w.extractLsb' 19 6 = 9#6 := by rw [← hw]; simp (disch := decide) only [extr_hi, Nat.reduceSub]; rfl
  unfold decodeMemx; rw [h3]
  simp only [BitVec.toNat_ofNat]
  rw [← hw]
  simp (disch := decide) only [extr_hi, extr_lo, extr_all, Nat.reduceSub]
  try rfl
theorem edecay (t : BitVec 7) (n : BitVec 4) : Statement (.edecay t n) := by
  intro _
  show decode (0xB8500#20 ++ t ++ 0x0#1 ++ n) = _
  generalize hw : (0xB8500#20 ++ t ++ 0x0#1 ++ n) = w
  have h1 : w.extractLsb' 30 2 = 2#2 := by rw [← hw]; simp (disch := decide) only [extr_hi, Nat.reduceSub]; rfl
  have h2 : w.extractLsb' 25 5 = 28#5 := by rw [← hw]; simp (disch := decide) only [extr_hi, Nat.reduceSub]; rfl
  rw [decode_10 h1]; unfold decode10; rw [h2]
  simp only [BitVec.toNat_ofNat]
  have h3 : w.extractLsb' 19 6 = 10#6 := by rw [← hw]; simp (disch := decide) only [extr_hi, Nat.reduceSub]; rfl
  unfold decodeMemx; rw [h3]
  simp only [BitVec.toNat_ofNat]
  rw [← hw]
  simp (disch := decide) only [extr_hi, extr_lo, extr_all, Nat.reduceSub]
  try rfl
theorem esweep (n : BitVec 4) : Statement (.esweep n) := by
  intro _
  show decode (0xB858000#28 ++ n) = _
  generalize hw : (0xB858000#28 ++ n) = w
  have h1 : w.extractLsb' 30 2 = 2#2 := by rw [← hw]; simp (disch := decide) only [extr_hi, Nat.reduceSub]; rfl
  have h2 : w.extractLsb' 25 5 = 28#5 := by rw [← hw]; simp (disch := decide) only [extr_hi, Nat.reduceSub]; rfl
  rw [decode_10 h1]; unfold decode10; rw [h2]
  simp only [BitVec.toNat_ofNat]
  have h3 : w.extractLsb' 19 6 = 11#6 := by rw [← hw]; simp (disch := decide) only [extr_hi, Nat.reduceSub]; rfl
  unfold decodeMemx; rw [h3]
  simp only [BitVec.toNat_ofNat]
  rw [← hw]
  simp (disch := decide) only [extr_hi, extr_lo, extr_all, Nat.reduceSub]
  try rfl
theorem eregion (a : BitVec 7) (n : BitVec 4) : Statement (.eregion a n) := by
  intro _
  show decode (0xB8600#20 ++ a ++ 0x0#1 ++ n) = _
  generalize hw : (0xB8600#20 ++ a ++ 0x0#1 ++ n) = w
  have h1 : w.extractLsb' 30 2 = 2#2 := by rw [← hw]; simp (disch := decide) only [extr_hi, Nat.reduceSub]; rfl
  have h2 : w.extractLsb' 25 5 = 28#5 := by rw [← hw]; simp (disch := decide) only [extr_hi, Nat.reduceSub]; rfl
  rw [decode_10 h1]; unfold decode10; rw [h2]
  simp only [BitVec.toNat_ofNat]
  have h3 : w.extractLsb' 19 6 = 12#6 := by rw [← hw]; simp (disch := decide) only [extr_hi, Nat.reduceSub]; rfl
  unfold decodeMemx; rw [h3]
  simp only [BitVec.toNat_ofNat]
  rw [← hw]
  simp (disch := decide) only [extr_hi, extr_lo, extr_all, Nat.reduceSub]
  try rfl
theorem prefetch (a : BitVec 7) : Statement (.prefetch a) := by
  intro _
  show decode (0xB8680#20 ++ a ++ 0x0#5) = _
  generalize hw : (0xB8680#20 ++ a ++ 0x0#5) = w
  have h1 : w.extractLsb' 30 2 = 2#2 := by rw [← hw]; simp (disch := decide) only [extr_hi, Nat.reduceSub]; rfl
  have h2 : w.extractLsb' 25 5 = 28#5 := by rw [← hw]; simp (disch := decide) only [extr_hi, Nat.reduceSub]; rfl
  rw [decode_10 h1]; unfold decode10; rw [h2]
  simp only [BitVec.toNat_ofNat]
  have h3 : w.extractLsb' 19 6 = 13#6 := by rw [← hw]; simp (disch := decide) only [extr_hi, Nat.reduceSub]; rfl
  unfold decodeMemx; rw [h3]
  simp only [BitVec.toNat_ofNat]
  rw [← hw]
  simp (disch := decide) only [extr_hi, extr_lo, extr_all, Nat.reduceSub]
  try rfl
theorem mma (a : BitVec 7) : Statement (.mma a) := by
  intro _
  show decode (0xBA000#20 ++ a ++ 0x0#5) = _
  generalize hw : (0xBA000#20 ++ a ++ 0x0#5) = w
  have h1 : w.extractLsb' 30 2 = 2#2 := by rw [← hw]; simp (disch := decide) only [extr_hi, Nat.reduceSub]; rfl
  have h2 : w.extractLsb' 25 5 = 29#5 := by rw [← hw]; simp (disch := decide) only [extr_hi, Nat.reduceSub]; rfl
  rw [decode_10 h1]; unfold decode10; rw [h2]
  simp only [BitVec.toNat_ofNat]
  have h3 : w.extractLsb' 19 6 = 0#6 := by rw [← hw]; simp (disch := decide) only [extr_hi, Nat.reduceSub]; rfl
  unfold decodeMxsf; rw [h3]
  simp only [BitVec.toNat_ofNat]
  rw [← hw]
  simp (disch := decide) only [extr_hi, extr_lo, extr_all, Nat.reduceSub]
  try rfl
theorem mdrain (a : BitVec 7) : Statement (.mdrain a) := by
  intro _
  show decode (0xBA080#20 ++ a ++ 0x0#5) = _
  generalize hw : (0xBA080#20 ++ a ++ 0x0#5) = w
  have h1 : w.extractLsb' 30 2 = 2#2 := by rw [← hw]; simp (disch := decide) only [extr_hi, Nat.reduceSub]; rfl
  have h2 : w.extractLsb' 25 5 = 29#5 := by rw [← hw]; simp (disch := decide) only [extr_hi, Nat.reduceSub]; rfl
  rw [decode_10 h1]; unfold decode10; rw [h2]
  simp only [BitVec.toNat_ofNat]
  have h3 : w.extractLsb' 19 6 = 1#6 := by rw [← hw]; simp (disch := decide) only [extr_hi, Nat.reduceSub]; rfl
  unfold decodeMxsf; rw [h3]
  simp only [BitVec.toNat_ofNat]
  rw [← hw]
  simp (disch := decide) only [extr_hi, extr_lo, extr_all, Nat.reduceSub]
  try rfl
theorem mzero (t : BitVec 3) : Statement (.mzero t) := by
  intro _
  show decode (0x17420000#29 ++ t) = _
  generalize hw : (0x17420000#29 ++ t) = w
  have h1 : w.extractLsb' 30 2 = 2#2 := by rw [← hw]; simp (disch := decide) only [extr_hi, Nat.reduceSub]; rfl
  have h2 : w.extractLsb' 25 5 = 29#5 := by rw [← hw]; simp (disch := decide) only [extr_hi, Nat.reduceSub]; rfl
  rw [decode_10 h1]; unfold decode10; rw [h2]
  simp only [BitVec.toNat_ofNat]
  have h3 : w.extractLsb' 19 6 = 2#6 := by rw [← hw]; simp (disch := decide) only [extr_hi, Nat.reduceSub]; rfl
  unfold decodeMxsf; rw [h3]
  simp only [BitVec.toNat_ofNat]
  rw [← hw]
  simp (disch := decide) only [extr_hi, extr_lo, extr_all, Nat.reduceSub]
  try rfl
theorem tkgive (t : BitVec 3) : Statement (.tkgive t) := by
  intro _
  show decode (0x17430000#29 ++ t) = _
  generalize hw : (0x17430000#29 ++ t) = w
  have h1 : w.extractLsb' 30 2 = 2#2 := by rw [← hw]; simp (disch := decide) only [extr_hi, Nat.reduceSub]; rfl
  have h2 : w.extractLsb' 25 5 = 29#5 := by rw [← hw]; simp (disch := decide) only [extr_hi, Nat.reduceSub]; rfl
  rw [decode_10 h1]; unfold decode10; rw [h2]
  simp only [BitVec.toNat_ofNat]
  have h3 : w.extractLsb' 19 6 = 3#6 := by rw [← hw]; simp (disch := decide) only [extr_hi, Nat.reduceSub]; rfl
  unfold decodeMxsf; rw [h3]
  simp only [BitVec.toNat_ofNat]
  rw [← hw]
  simp (disch := decide) only [extr_hi, extr_lo, extr_all, Nat.reduceSub]
  try rfl
theorem tktake (t : BitVec 3) : Statement (.tktake t) := by
  intro _
  show decode (0x17440000#29 ++ t) = _
  generalize hw : (0x17440000#29 ++ t) = w
  have h1 : w.extractLsb' 30 2 = 2#2 := by rw [← hw]; simp (disch := decide) only [extr_hi, Nat.reduceSub]; rfl
  have h2 : w.extractLsb' 25 5 = 29#5 := by rw [← hw]; simp (disch := decide) only [extr_hi, Nat.reduceSub]; rfl
  rw [decode_10 h1]; unfold decode10; rw [h2]
  simp only [BitVec.toNat_ofNat]
  have h3 : w.extractLsb' 19 6 = 4#6 := by rw [← hw]; simp (disch := decide) only [extr_hi, Nat.reduceSub]; rfl
  unfold decodeMxsf; rw [h3]
  simp only [BitVec.toNat_ofNat]
  rw [← hw]
  simp (disch := decide) only [extr_hi, extr_lo, extr_all, Nat.reduceSub]
  try rfl
theorem accrd (d : BitVec 7) (r : BitVec 7) (h : BitVec 1) (t : BitVec 3) : Statement (.accrd d r h t) := by
  intro _
  show decode (0x1745#13 ++ d ++ r ++ 0x0#1 ++ h ++ t) = _
  generalize hw : (0x1745#13 ++ d ++ r ++ 0x0#1 ++ h ++ t) = w
  have h1 : w.extractLsb' 30 2 = 2#2 := by rw [← hw]; simp (disch := decide) only [extr_hi, Nat.reduceSub]; rfl
  have h2 : w.extractLsb' 25 5 = 29#5 := by rw [← hw]; simp (disch := decide) only [extr_hi, Nat.reduceSub]; rfl
  rw [decode_10 h1]; unfold decode10; rw [h2]
  simp only [BitVec.toNat_ofNat]
  have h3 : w.extractLsb' 19 6 = 5#6 := by rw [← hw]; simp (disch := decide) only [extr_hi, Nat.reduceSub]; rfl
  unfold decodeMxsf; rw [h3]
  simp only [BitVec.toNat_ofNat]
  rw [← hw]
  simp (disch := decide) only [extr_hi, extr_lo, extr_all, Nat.reduceSub]
  try rfl
theorem accwr (s : BitVec 7) (r : BitVec 7) (h : BitVec 1) (t : BitVec 3) : Statement (.accwr s r h t) := by
  intro _
  show decode (0x1746#13 ++ s ++ r ++ 0x0#1 ++ h ++ t) = _
  generalize hw : (0x1746#13 ++ s ++ r ++ 0x0#1 ++ h ++ t) = w
  have h1 : w.extractLsb' 30 2 = 2#2 := by rw [← hw]; simp (disch := decide) only [extr_hi, Nat.reduceSub]; rfl
  have h2 : w.extractLsb' 25 5 = 29#5 := by rw [← hw]; simp (disch := decide) only [extr_hi, Nat.reduceSub]; rfl
  rw [decode_10 h1]; unfold decode10; rw [h2]
  simp only [BitVec.toNat_ofNat]
  have h3 : w.extractLsb' 19 6 = 6#6 := by rw [← hw]; simp (disch := decide) only [extr_hi, Nat.reduceSub]; rfl
  unfold decodeMxsf; rw [h3]
  simp only [BitVec.toNat_ofNat]
  rw [← hw]
  simp (disch := decide) only [extr_hi, extr_lo, extr_all, Nat.reduceSub]
  try rfl
theorem mstat (d : BitVec 7) : Statement (.mstat d) := by
  intro _
  show decode (0x1747#13 ++ d ++ 0x0#12) = _
  generalize hw : (0x1747#13 ++ d ++ 0x0#12) = w
  have h1 : w.extractLsb' 30 2 = 2#2 := by rw [← hw]; simp (disch := decide) only [extr_hi, Nat.reduceSub]; rfl
  have h2 : w.extractLsb' 25 5 = 29#5 := by rw [← hw]; simp (disch := decide) only [extr_hi, Nat.reduceSub]; rfl
  rw [decode_10 h1]; unfold decode10; rw [h2]
  simp only [BitVec.toNat_ofNat]
  have h3 : w.extractLsb' 19 6 = 7#6 := by rw [← hw]; simp (disch := decide) only [extr_hi, Nat.reduceSub]; rfl
  unfold decodeMxsf; rw [h3]
  simp only [BitVec.toNat_ofNat]
  rw [← hw]
  simp (disch := decide) only [extr_hi, extr_lo, extr_all, Nat.reduceSub]
  try rfl
theorem sfi (z : BitVec 3) (d : BitVec 7) (a : BitVec 7) (f : BitVec 5) : Statement (.sfi z d a f) := by
  intro _
  show decode (0x2EC#10 ++ z ++ d ++ a ++ f) = _
  generalize hw : (0x2EC#10 ++ z ++ d ++ a ++ f) = w
  have h1 : w.extractLsb' 30 2 = 2#2 := by rw [← hw]; simp (disch := decide) only [extr_hi, Nat.reduceSub]; rfl
  have h2 : w.extractLsb' 25 5 = 29#5 := by rw [← hw]; simp (disch := decide) only [extr_hi, Nat.reduceSub]; rfl
  have h3 : w.extractLsb' 19 6 = (0x2EC#10 ++ z).extractLsb' 0 6 := by
    rw [← hw]; simp (disch := decide) only [extr_hi, Nat.reduceSub]
  have hz : w.extractLsb' 19 3 = z := by rw [← hw]; simp (disch := decide) only [extr_hi, extr_lo, extr_all, Nat.reduceSub]
  have hd : w.extractLsb' 12 7 = d := by rw [← hw]; simp (disch := decide) only [extr_hi, extr_lo, extr_all, Nat.reduceSub]
  have ha : w.extractLsb' 5 7 = a := by rw [← hw]; simp (disch := decide) only [extr_hi, extr_lo, extr_all, Nat.reduceSub]
  have hf : w.extractLsb' 0 5 = f := by rw [← hw]; simp (disch := decide) only [extr_lo, extr_all]
  have hs : some (Instr.sfi (w.extractLsb' 19 3) (w.extractLsb' 12 7) (w.extractLsb' 5 7) (w.extractLsb' 0 5)) =
      some (.sfi z d a f) := by rw [hz, hd, ha, hf]
  have hc : ∀ z : BitVec 3, z = 0 ∨ z = 1 ∨ z = 2 ∨ z = 3 ∨ z = 4 ∨ z = 5 ∨ z = 6 ∨ z = 7 := by decide
  rw [decode_10 h1]; unfold decode10; rw [h2]
  simp only [BitVec.toNat_ofNat]
  unfold decodeMxsf; rw [h3]
  clear hw h3
  rcases hc z with rfl | rfl | rfl | rfl | rfl | rfl | rfl | rfl <;> exact hs
theorem sfwait (m : BitVec 8) : Statement (.sfwait m) := by
  intro _
  show decode (0x5DA00#19 ++ m ++ 0x0#5) = _
  generalize hw : (0x5DA00#19 ++ m ++ 0x0#5) = w
  have h1 : w.extractLsb' 30 2 = 2#2 := by rw [← hw]; simp (disch := decide) only [extr_hi, Nat.reduceSub]; rfl
  have h2 : w.extractLsb' 25 5 = 29#5 := by rw [← hw]; simp (disch := decide) only [extr_hi, Nat.reduceSub]; rfl
  rw [decode_10 h1]; unfold decode10; rw [h2]
  simp only [BitVec.toNat_ofNat]
  have h3 : w.extractLsb' 19 6 = 40#6 := by rw [← hw]; simp (disch := decide) only [extr_hi, Nat.reduceSub]; rfl
  unfold decodeMxsf; rw [h3]
  simp only [BitVec.toNat_ofNat]
  rw [← hw]
  simp (disch := decide) only [extr_hi, extr_lo, extr_all, Nat.reduceSub]
  try rfl
theorem sfpoll (k : BitVec 4) (m : BitVec 8) : Statement (.sfpoll k m) := by
  intro _
  show decode (0x1769#13 ++ k ++ 0x0#2 ++ m ++ 0x0#5) = _
  generalize hw : (0x1769#13 ++ k ++ 0x0#2 ++ m ++ 0x0#5) = w
  have h1 : w.extractLsb' 30 2 = 2#2 := by rw [← hw]; simp (disch := decide) only [extr_hi, Nat.reduceSub]; rfl
  have h2 : w.extractLsb' 25 5 = 29#5 := by rw [← hw]; simp (disch := decide) only [extr_hi, Nat.reduceSub]; rfl
  rw [decode_10 h1]; unfold decode10; rw [h2]
  simp only [BitVec.toNat_ofNat]
  have h3 : w.extractLsb' 19 6 = 41#6 := by rw [← hw]; simp (disch := decide) only [extr_hi, Nat.reduceSub]; rfl
  unfold decodeMxsf; rw [h3]
  simp only [BitVec.toNat_ofNat]
  rw [← hw]
  simp (disch := decide) only [extr_hi, extr_lo, extr_all, Nat.reduceSub]
  try rfl
theorem tidset (a : BitVec 7) (t : BitVec 8) : Statement (.tidset a t) := by
  intro _
  show decode (0x1780#13 ++ a ++ t ++ 0x0#4) = _
  generalize hw : (0x1780#13 ++ a ++ t ++ 0x0#4) = w
  have h1 : w.extractLsb' 30 2 = 2#2 := by rw [← hw]; simp (disch := decide) only [extr_hi, Nat.reduceSub]; rfl
  have h2 : w.extractLsb' 25 5 = 30#5 := by rw [← hw]; simp (disch := decide) only [extr_hi, Nat.reduceSub]; rfl
  rw [decode_10 h1]; unfold decode10; rw [h2]
  simp only [BitVec.toNat_ofNat]
  have h3 : w.extractLsb' 19 6 = 0#6 := by rw [← hw]; simp (disch := decide) only [extr_hi, Nat.reduceSub]; rfl
  unfold decodeStrv; rw [h3]
  simp only [BitVec.toNat_ofNat]
  rw [← hw]
  simp (disch := decide) only [extr_hi, extr_lo, extr_all, Nat.reduceSub]
  try rfl
theorem sopen (a : BitVec 7) (s : BitVec 4) : Statement (.sopen a s) := by
  intro _
  show decode (0x1781#13 ++ a ++ 0x0#8 ++ s) = _
  generalize hw : (0x1781#13 ++ a ++ 0x0#8 ++ s) = w
  have h1 : w.extractLsb' 30 2 = 2#2 := by rw [← hw]; simp (disch := decide) only [extr_hi, Nat.reduceSub]; rfl
  have h2 : w.extractLsb' 25 5 = 30#5 := by rw [← hw]; simp (disch := decide) only [extr_hi, Nat.reduceSub]; rfl
  rw [decode_10 h1]; unfold decode10; rw [h2]
  simp only [BitVec.toNat_ofNat]
  have h3 : w.extractLsb' 19 6 = 1#6 := by rw [← hw]; simp (disch := decide) only [extr_hi, Nat.reduceSub]; rfl
  unfold decodeStrv; rw [h3]
  simp only [BitVec.toNat_ofNat]
  rw [← hw]
  simp (disch := decide) only [extr_hi, extr_lo, extr_all, Nat.reduceSub]
  try rfl
theorem sgo (s : BitVec 4) : Statement (.sgo s) := by
  intro _
  show decode (0xBC10000#28 ++ s) = _
  generalize hw : (0xBC10000#28 ++ s) = w
  have h1 : w.extractLsb' 30 2 = 2#2 := by rw [← hw]; simp (disch := decide) only [extr_hi, Nat.reduceSub]; rfl
  have h2 : w.extractLsb' 25 5 = 30#5 := by rw [← hw]; simp (disch := decide) only [extr_hi, Nat.reduceSub]; rfl
  rw [decode_10 h1]; unfold decode10; rw [h2]
  simp only [BitVec.toNat_ofNat]
  have h3 : w.extractLsb' 19 6 = 2#6 := by rw [← hw]; simp (disch := decide) only [extr_hi, Nat.reduceSub]; rfl
  unfold decodeStrv; rw [h3]
  simp only [BitVec.toNat_ofNat]
  rw [← hw]
  simp (disch := decide) only [extr_hi, extr_lo, extr_all, Nat.reduceSub]
  try rfl
theorem sslot (c : BitVec 7) (s : BitVec 4) : Statement (.sslot c s) := by
  intro _
  show decode (0xBC180#20 ++ c ++ 0x0#1 ++ s) = _
  generalize hw : (0xBC180#20 ++ c ++ 0x0#1 ++ s) = w
  have h1 : w.extractLsb' 30 2 = 2#2 := by rw [← hw]; simp (disch := decide) only [extr_hi, Nat.reduceSub]; rfl
  have h2 : w.extractLsb' 25 5 = 30#5 := by rw [← hw]; simp (disch := decide) only [extr_hi, Nat.reduceSub]; rfl
  rw [decode_10 h1]; unfold decode10; rw [h2]
  simp only [BitVec.toNat_ofNat]
  have h3 : w.extractLsb' 19 6 = 3#6 := by rw [← hw]; simp (disch := decide) only [extr_hi, Nat.reduceSub]; rfl
  unfold decodeStrv; rw [h3]
  simp only [BitVec.toNat_ofNat]
  rw [← hw]
  simp (disch := decide) only [extr_hi, extr_lo, extr_all, Nat.reduceSub]
  try rfl
theorem sstat (d : BitVec 7) (s : BitVec 4) : Statement (.sstat d s) := by
  intro _
  show decode (0x1784#13 ++ d ++ 0x0#8 ++ s) = _
  generalize hw : (0x1784#13 ++ d ++ 0x0#8 ++ s) = w
  have h1 : w.extractLsb' 30 2 = 2#2 := by rw [← hw]; simp (disch := decide) only [extr_hi, Nat.reduceSub]; rfl
  have h2 : w.extractLsb' 25 5 = 30#5 := by rw [← hw]; simp (disch := decide) only [extr_hi, Nat.reduceSub]; rfl
  rw [decode_10 h1]; unfold decode10; rw [h2]
  simp only [BitVec.toNat_ofNat]
  have h3 : w.extractLsb' 19 6 = 4#6 := by rw [← hw]; simp (disch := decide) only [extr_hi, Nat.reduceSub]; rfl
  unfold decodeStrv; rw [h3]
  simp only [BitVec.toNat_ofNat]
  rw [← hw]
  simp (disch := decide) only [extr_hi, extr_lo, extr_all, Nat.reduceSub]
  try rfl
theorem sclose (s : BitVec 4) : Statement (.sclose s) := by
  intro _
  show decode (0xBC28000#28 ++ s) = _
  generalize hw : (0xBC28000#28 ++ s) = w
  have h1 : w.extractLsb' 30 2 = 2#2 := by rw [← hw]; simp (disch := decide) only [extr_hi, Nat.reduceSub]; rfl
  have h2 : w.extractLsb' 25 5 = 30#5 := by rw [← hw]; simp (disch := decide) only [extr_hi, Nat.reduceSub]; rfl
  rw [decode_10 h1]; unfold decode10; rw [h2]
  simp only [BitVec.toNat_ofNat]
  have h3 : w.extractLsb' 19 6 = 5#6 := by rw [← hw]; simp (disch := decide) only [extr_hi, Nat.reduceSub]; rfl
  unfold decodeStrv; rw [h3]
  simp only [BitVec.toNat_ofNat]
  rw [← hw]
  simp (disch := decide) only [extr_hi, extr_lo, extr_all, Nat.reduceSub]
  try rfl
theorem copy (a : BitVec 7) (s : BitVec 4) : Statement (.copy a s) := by
  intro _
  show decode (0x1786#13 ++ a ++ 0x0#8 ++ s) = _
  generalize hw : (0x1786#13 ++ a ++ 0x0#8 ++ s) = w
  have h1 : w.extractLsb' 30 2 = 2#2 := by rw [← hw]; simp (disch := decide) only [extr_hi, Nat.reduceSub]; rfl
  have h2 : w.extractLsb' 25 5 = 30#5 := by rw [← hw]; simp (disch := decide) only [extr_hi, Nat.reduceSub]; rfl
  rw [decode_10 h1]; unfold decode10; rw [h2]
  simp only [BitVec.toNat_ofNat]
  have h3 : w.extractLsb' 19 6 = 6#6 := by rw [← hw]; simp (disch := decide) only [extr_hi, Nat.reduceSub]; rfl
  unfold decodeStrv; rw [h3]
  simp only [BitVec.toNat_ofNat]
  rw [← hw]
  simp (disch := decide) only [extr_hi, extr_lo, extr_all, Nat.reduceSub]
  try rfl
theorem sort (a : BitVec 7) (s : BitVec 4) : Statement (.sort a s) := by
  intro _
  show decode (0x1787#13 ++ a ++ 0x0#8 ++ s) = _
  generalize hw : (0x1787#13 ++ a ++ 0x0#8 ++ s) = w
  have h1 : w.extractLsb' 30 2 = 2#2 := by rw [← hw]; simp (disch := decide) only [extr_hi, Nat.reduceSub]; rfl
  have h2 : w.extractLsb' 25 5 = 30#5 := by rw [← hw]; simp (disch := decide) only [extr_hi, Nat.reduceSub]; rfl
  rw [decode_10 h1]; unfold decode10; rw [h2]
  simp only [BitVec.toNat_ofNat]
  have h3 : w.extractLsb' 19 6 = 7#6 := by rw [← hw]; simp (disch := decide) only [extr_hi, Nat.reduceSub]; rfl
  unfold decodeStrv; rw [h3]
  simp only [BitVec.toNat_ofNat]
  rw [← hw]
  simp (disch := decide) only [extr_hi, extr_lo, extr_all, Nat.reduceSub]
  try rfl
theorem bin (a : BitVec 7) (s : BitVec 4) : Statement (.bin a s) := by
  intro _
  show decode (0x1788#13 ++ a ++ 0x0#8 ++ s) = _
  generalize hw : (0x1788#13 ++ a ++ 0x0#8 ++ s) = w
  have h1 : w.extractLsb' 30 2 = 2#2 := by rw [← hw]; simp (disch := decide) only [extr_hi, Nat.reduceSub]; rfl
  have h2 : w.extractLsb' 25 5 = 30#5 := by rw [← hw]; simp (disch := decide) only [extr_hi, Nat.reduceSub]; rfl
  rw [decode_10 h1]; unfold decode10; rw [h2]
  simp only [BitVec.toNat_ofNat]
  have h3 : w.extractLsb' 19 6 = 8#6 := by rw [← hw]; simp (disch := decide) only [extr_hi, Nat.reduceSub]; rfl
  unfold decodeStrv; rw [h3]
  simp only [BitVec.toNat_ofNat]
  rw [← hw]
  simp (disch := decide) only [extr_hi, extr_lo, extr_all, Nat.reduceSub]
  try rfl
theorem agdim (c : BitVec 7) (s : BitVec 7) (j : BitVec 2) : Statement (.agdim c s j) := by
  intro _
  show decode (0x1789#13 ++ c ++ s ++ 0x0#3 ++ j) = _
  generalize hw : (0x1789#13 ++ c ++ s ++ 0x0#3 ++ j) = w
  have h1 : w.extractLsb' 30 2 = 2#2 := by rw [← hw]; simp (disch := decide) only [extr_hi, Nat.reduceSub]; rfl
  have h2 : w.extractLsb' 25 5 = 30#5 := by rw [← hw]; simp (disch := decide) only [extr_hi, Nat.reduceSub]; rfl
  rw [decode_10 h1]; unfold decode10; rw [h2]
  simp only [BitVec.toNat_ofNat]
  have h3 : w.extractLsb' 19 6 = 9#6 := by rw [← hw]; simp (disch := decide) only [extr_hi, Nat.reduceSub]; rfl
  unfold decodeStrv; rw [h3]
  simp only [BitVec.toNat_ofNat]
  rw [← hw]
  simp (disch := decide) only [extr_hi, extr_lo, extr_all, Nat.reduceSub]
  try rfl
theorem agbase (l : BitVec 7) (a : BitVec 7) : Statement (.agbase l a) := by
  intro _
  show decode (0x178A#13 ++ l ++ a ++ 0x0#5) = _
  generalize hw : (0x178A#13 ++ l ++ a ++ 0x0#5) = w
  have h1 : w.extractLsb' 30 2 = 2#2 := by rw [← hw]; simp (disch := decide) only [extr_hi, Nat.reduceSub]; rfl
  have h2 : w.extractLsb' 25 5 = 30#5 := by rw [← hw]; simp (disch := decide) only [extr_hi, Nat.reduceSub]; rfl
  rw [decode_10 h1]; unfold decode10; rw [h2]
  simp only [BitVec.toNat_ofNat]
  have h3 : w.extractLsb' 19 6 = 10#6 := by rw [← hw]; simp (disch := decide) only [extr_hi, Nat.reduceSub]; rfl
  unfold decodeStrv; rw [h3]
  simp only [BitVec.toNat_ofNat]
  rw [← hw]
  simp (disch := decide) only [extr_hi, extr_lo, extr_all, Nat.reduceSub]
  try rfl
theorem agld (q : BitVec 7) (s : BitVec 7) (z : BitVec 2) : Statement (.agld q s z) := by
  intro _
  show decode (0x178B#13 ++ q ++ s ++ z ++ 0x0#3) = _
  generalize hw : (0x178B#13 ++ q ++ s ++ z ++ 0x0#3) = w
  have h1 : w.extractLsb' 30 2 = 2#2 := by rw [← hw]; simp (disch := decide) only [extr_hi, Nat.reduceSub]; rfl
  have h2 : w.extractLsb' 25 5 = 30#5 := by rw [← hw]; simp (disch := decide) only [extr_hi, Nat.reduceSub]; rfl
  rw [decode_10 h1]; unfold decode10; rw [h2]
  simp only [BitVec.toNat_ofNat]
  have h3 : w.extractLsb' 19 6 = 11#6 := by rw [← hw]; simp (disch := decide) only [extr_hi, Nat.reduceSub]; rfl
  unfold decodeStrv; rw [h3]
  simp only [BitVec.toNat_ofNat]
  rw [← hw]
  simp (disch := decide) only [extr_hi, extr_lo, extr_all, Nat.reduceSub]
  try rfl
theorem agst (q : BitVec 7) (s : BitVec 7) (z : BitVec 2) : Statement (.agst q s z) := by
  intro _
  show decode (0x178C#13 ++ q ++ s ++ z ++ 0x0#3) = _
  generalize hw : (0x178C#13 ++ q ++ s ++ z ++ 0x0#3) = w
  have h1 : w.extractLsb' 30 2 = 2#2 := by rw [← hw]; simp (disch := decide) only [extr_hi, Nat.reduceSub]; rfl
  have h2 : w.extractLsb' 25 5 = 30#5 := by rw [← hw]; simp (disch := decide) only [extr_hi, Nat.reduceSub]; rfl
  rw [decode_10 h1]; unfold decode10; rw [h2]
  simp only [BitVec.toNat_ofNat]
  have h3 : w.extractLsb' 19 6 = 12#6 := by rw [← hw]; simp (disch := decide) only [extr_hi, Nat.reduceSub]; rfl
  unfold decodeStrv; rw [h3]
  simp only [BitVec.toNat_ofNat]
  rw [← hw]
  simp (disch := decide) only [extr_hi, extr_lo, extr_all, Nat.reduceSub]
  try rfl
theorem qstat (d : BitVec 7) (q : BitVec 4) : Statement (.qstat d q) := by
  intro _
  show decode (0x178D#13 ++ d ++ 0x0#8 ++ q) = _
  generalize hw : (0x178D#13 ++ d ++ 0x0#8 ++ q) = w
  have h1 : w.extractLsb' 30 2 = 2#2 := by rw [← hw]; simp (disch := decide) only [extr_hi, Nat.reduceSub]; rfl
  have h2 : w.extractLsb' 25 5 = 30#5 := by rw [← hw]; simp (disch := decide) only [extr_hi, Nat.reduceSub]; rfl
  rw [decode_10 h1]; unfold decode10; rw [h2]
  simp only [BitVec.toNat_ofNat]
  have h3 : w.extractLsb' 19 6 = 13#6 := by rw [← hw]; simp (disch := decide) only [extr_hi, Nat.reduceSub]; rfl
  unfold decodeStrv; rw [h3]
  simp only [BitVec.toNat_ofNat]
  rw [← hw]
  simp (disch := decide) only [extr_hi, extr_lo, extr_all, Nat.reduceSub]
  try rfl
theorem coll (a : BitVec 7) (s : BitVec 4) : Statement (.coll a s) := by
  intro _
  show decode (0x1790#13 ++ a ++ 0x0#8 ++ s) = _
  generalize hw : (0x1790#13 ++ a ++ 0x0#8 ++ s) = w
  have h1 : w.extractLsb' 30 2 = 2#2 := by rw [← hw]; simp (disch := decide) only [extr_hi, Nat.reduceSub]; rfl
  have h2 : w.extractLsb' 25 5 = 30#5 := by rw [← hw]; simp (disch := decide) only [extr_hi, Nat.reduceSub]; rfl
  rw [decode_10 h1]; unfold decode10; rw [h2]
  simp only [BitVec.toNat_ofNat]
  have h3 : w.extractLsb' 19 6 = 16#6 := by rw [← hw]; simp (disch := decide) only [extr_hi, Nat.reduceSub]; rfl
  unfold decodeStrv; rw [h3]
  simp only [BitVec.toNat_ofNat]
  rw [← hw]
  simp (disch := decide) only [extr_hi, extr_lo, extr_all, Nat.reduceSub]
  try rfl
theorem camset (a : BitVec 7) : Statement (.camset a) := by
  intro _
  show decode (0xBD000#20 ++ a ++ 0x0#5) = _
  generalize hw : (0xBD000#20 ++ a ++ 0x0#5) = w
  have h1 : w.extractLsb' 30 2 = 2#2 := by rw [← hw]; simp (disch := decide) only [extr_hi, Nat.reduceSub]; rfl
  have h2 : w.extractLsb' 25 5 = 30#5 := by rw [← hw]; simp (disch := decide) only [extr_hi, Nat.reduceSub]; rfl
  rw [decode_10 h1]; unfold decode10; rw [h2]
  simp only [BitVec.toNat_ofNat]
  have h3 : w.extractLsb' 19 6 = 32#6 := by rw [← hw]; simp (disch := decide) only [extr_hi, Nat.reduceSub]; rfl
  unfold decodeStrv; rw [h3]
  simp only [BitVec.toNat_ofNat]
  rw [← hw]
  simp (disch := decide) only [extr_hi, extr_lo, extr_all, Nat.reduceSub]
  try rfl
theorem camgen (d : BitVec 7) (a : BitVec 7) : Statement (.camgen d a) := by
  intro _
  show decode (0x17A1#13 ++ d ++ a ++ 0x0#5) = _
  generalize hw : (0x17A1#13 ++ d ++ a ++ 0x0#5) = w
  have h1 : w.extractLsb' 30 2 = 2#2 := by rw [← hw]; simp (disch := decide) only [extr_hi, Nat.reduceSub]; rfl
  have h2 : w.extractLsb' 25 5 = 30#5 := by rw [← hw]; simp (disch := decide) only [extr_hi, Nat.reduceSub]; rfl
  rw [decode_10 h1]; unfold decode10; rw [h2]
  simp only [BitVec.toNat_ofNat]
  have h3 : w.extractLsb' 19 6 = 33#6 := by rw [← hw]; simp (disch := decide) only [extr_hi, Nat.reduceSub]; rfl
  unfold decodeStrv; rw [h3]
  simp only [BitVec.toNat_ofNat]
  rw [← hw]
  simp (disch := decide) only [extr_hi, extr_lo, extr_all, Nat.reduceSub]
  try rfl
theorem bvhset (a : BitVec 7) (n : BitVec 2) : Statement (.bvhset a n) := by
  intro _
  show decode (0xBD100#20 ++ a ++ 0x0#3 ++ n) = _
  generalize hw : (0xBD100#20 ++ a ++ 0x0#3 ++ n) = w
  have h1 : w.extractLsb' 30 2 = 2#2 := by rw [← hw]; simp (disch := decide) only [extr_hi, Nat.reduceSub]; rfl
  have h2 : w.extractLsb' 25 5 = 30#5 := by rw [← hw]; simp (disch := decide) only [extr_hi, Nat.reduceSub]; rfl
  rw [decode_10 h1]; unfold decode10; rw [h2]
  simp only [BitVec.toNat_ofNat]
  have h3 : w.extractLsb' 19 6 = 34#6 := by rw [← hw]; simp (disch := decide) only [extr_hi, Nat.reduceSub]; rfl
  unfold decodeStrv; rw [h3]
  simp only [BitVec.toNat_ofNat]
  rw [← hw]
  simp (disch := decide) only [extr_hi, extr_lo, extr_all, Nat.reduceSub]
  try rfl
theorem trace (d : BitVec 7) (a : BitVec 7) (m : BitVec 2) (n : BitVec 2) : Statement (.trace d a m n) := by
  intro _
  show decode (0x17A3#13 ++ d ++ a ++ m ++ 0x0#1 ++ n) = _
  generalize hw : (0x17A3#13 ++ d ++ a ++ m ++ 0x0#1 ++ n) = w
  have h1 : w.extractLsb' 30 2 = 2#2 := by rw [← hw]; simp (disch := decide) only [extr_hi, Nat.reduceSub]; rfl
  have h2 : w.extractLsb' 25 5 = 30#5 := by rw [← hw]; simp (disch := decide) only [extr_hi, Nat.reduceSub]; rfl
  rw [decode_10 h1]; unfold decode10; rw [h2]
  simp only [BitVec.toNat_ofNat]
  have h3 : w.extractLsb' 19 6 = 35#6 := by rw [← hw]; simp (disch := decide) only [extr_hi, Nat.reduceSub]; rfl
  unfold decodeStrv; rw [h3]
  simp only [BitVec.toNat_ofNat]
  rw [← hw]
  simp (disch := decide) only [extr_hi, extr_lo, extr_all, Nat.reduceSub]
  try rfl
theorem mltset (a : BitVec 7) (n : BitVec 2) : Statement (.mltset a n) := by
  intro _
  show decode (0xBD200#20 ++ a ++ 0x0#3 ++ n) = _
  generalize hw : (0xBD200#20 ++ a ++ 0x0#3 ++ n) = w
  have h1 : w.extractLsb' 30 2 = 2#2 := by rw [← hw]; simp (disch := decide) only [extr_hi, Nat.reduceSub]; rfl
  have h2 : w.extractLsb' 25 5 = 30#5 := by rw [← hw]; simp (disch := decide) only [extr_hi, Nat.reduceSub]; rfl
  rw [decode_10 h1]; unfold decode10; rw [h2]
  simp only [BitVec.toNat_ofNat]
  have h3 : w.extractLsb' 19 6 = 36#6 := by rw [← hw]; simp (disch := decide) only [extr_hi, Nat.reduceSub]; rfl
  unfold decodeStrv; rw [h3]
  simp only [BitVec.toNat_ofNat]
  rw [← hw]
  simp (disch := decide) only [extr_hi, extr_lo, extr_all, Nat.reduceSub]
  try rfl
theorem fragins (a : BitVec 7) (n : BitVec 2) : Statement (.fragins a n) := by
  intro _
  show decode (0xBD280#20 ++ a ++ 0x0#3 ++ n) = _
  generalize hw : (0xBD280#20 ++ a ++ 0x0#3 ++ n) = w
  have h1 : w.extractLsb' 30 2 = 2#2 := by rw [← hw]; simp (disch := decide) only [extr_hi, Nat.reduceSub]; rfl
  have h2 : w.extractLsb' 25 5 = 30#5 := by rw [← hw]; simp (disch := decide) only [extr_hi, Nat.reduceSub]; rfl
  rw [decode_10 h1]; unfold decode10; rw [h2]
  simp only [BitVec.toNat_ofNat]
  have h3 : w.extractLsb' 19 6 = 37#6 := by rw [← hw]; simp (disch := decide) only [extr_hi, Nat.reduceSub]; rfl
  unfold decodeStrv; rw [h3]
  simp only [BitVec.toNat_ofNat]
  rw [← hw]
  simp (disch := decide) only [extr_hi, extr_lo, extr_all, Nat.reduceSub]
  try rfl
theorem lpop (d : BitVec 7) (p : BitVec 7) (n : BitVec 2) : Statement (.lpop d p n) := by
  intro _
  show decode (0x17A6#13 ++ d ++ p ++ 0x0#3 ++ n) = _
  generalize hw : (0x17A6#13 ++ d ++ p ++ 0x0#3 ++ n) = w
  have h1 : w.extractLsb' 30 2 = 2#2 := by rw [← hw]; simp (disch := decide) only [extr_hi, Nat.reduceSub]; rfl
  have h2 : w.extractLsb' 25 5 = 30#5 := by rw [← hw]; simp (disch := decide) only [extr_hi, Nat.reduceSub]; rfl
  rw [decode_10 h1]; unfold decode10; rw [h2]
  simp only [BitVec.toNat_ofNat]
  have h3 : w.extractLsb' 19 6 = 38#6 := by rw [← hw]; simp (disch := decide) only [extr_hi, Nat.reduceSub]; rfl
  unfold decodeStrv; rw [h3]
  simp only [BitVec.toNat_ofNat]
  rw [← hw]
  simp (disch := decide) only [extr_hi, extr_lo, extr_all, Nat.reduceSub]
  try rfl
theorem lresolve (d : BitVec 7) (p : BitVec 7) (n : BitVec 2) : Statement (.lresolve d p n) := by
  intro _
  show decode (0x17A7#13 ++ d ++ p ++ 0x0#3 ++ n) = _
  generalize hw : (0x17A7#13 ++ d ++ p ++ 0x0#3 ++ n) = w
  have h1 : w.extractLsb' 30 2 = 2#2 := by rw [← hw]; simp (disch := decide) only [extr_hi, Nat.reduceSub]; rfl
  have h2 : w.extractLsb' 25 5 = 30#5 := by rw [← hw]; simp (disch := decide) only [extr_hi, Nat.reduceSub]; rfl
  rw [decode_10 h1]; unfold decode10; rw [h2]
  simp only [BitVec.toNat_ofNat]
  have h3 : w.extractLsb' 19 6 = 39#6 := by rw [← hw]; simp (disch := decide) only [extr_hi, Nat.reduceSub]; rfl
  unfold decodeStrv; rw [h3]
  simp only [BitVec.toNat_ofNat]
  rw [← hw]
  simp (disch := decide) only [extr_hi, extr_lo, extr_all, Nat.reduceSub]
  try rfl
theorem lclear (p : BitVec 7) (n : BitVec 2) : Statement (.lclear p n) := by
  intro _
  show decode (0xBD400#20 ++ p ++ 0x0#3 ++ n) = _
  generalize hw : (0xBD400#20 ++ p ++ 0x0#3 ++ n) = w
  have h1 : w.extractLsb' 30 2 = 2#2 := by rw [← hw]; simp (disch := decide) only [extr_hi, Nat.reduceSub]; rfl
  have h2 : w.extractLsb' 25 5 = 30#5 := by rw [← hw]; simp (disch := decide) only [extr_hi, Nat.reduceSub]; rfl
  rw [decode_10 h1]; unfold decode10; rw [h2]
  simp only [BitVec.toNat_ofNat]
  have h3 : w.extractLsb' 19 6 = 40#6 := by rw [← hw]; simp (disch := decide) only [extr_hi, Nat.reduceSub]; rfl
  unfold decodeStrv; rw [h3]
  simp only [BitVec.toNat_ofNat]
  rw [← hw]
  simp (disch := decide) only [extr_hi, extr_lo, extr_all, Nat.reduceSub]
  try rfl
theorem emit (f : BitVec 7) (h : BitVec 7) (c : BitVec 5) : Statement (.emit f h c) := by
  intro _
  show decode (0x17C0#13 ++ f ++ h ++ c) = _
  generalize hw : (0x17C0#13 ++ f ++ h ++ c) = w
  have h1 : w.extractLsb' 30 2 = 2#2 := by rw [← hw]; simp (disch := decide) only [extr_hi, Nat.reduceSub]; rfl
  have h2 : w.extractLsb' 25 5 = 31#5 := by rw [← hw]; simp (disch := decide) only [extr_hi, Nat.reduceSub]; rfl
  rw [decode_10 h1]; unfold decode10; rw [h2]
  simp only [BitVec.toNat_ofNat]
  have h3 : w.extractLsb' 19 6 = 0#6 := by rw [← hw]; simp (disch := decide) only [extr_hi, Nat.reduceSub]; rfl
  unfold decodeSysx; rw [h3]
  simp only [BitVec.toNat_ofNat]
  rw [← hw]
  simp (disch := decide) only [extr_hi, extr_lo, extr_all, Nat.reduceSub]
  try rfl
theorem cycles (d : BitVec 7) : Statement (.cycles d) := by
  intro _
  show decode (0x17C1#13 ++ d ++ 0x0#12) = _
  generalize hw : (0x17C1#13 ++ d ++ 0x0#12) = w
  have h1 : w.extractLsb' 30 2 = 2#2 := by rw [← hw]; simp (disch := decide) only [extr_hi, Nat.reduceSub]; rfl
  have h2 : w.extractLsb' 25 5 = 31#5 := by rw [← hw]; simp (disch := decide) only [extr_hi, Nat.reduceSub]; rfl
  rw [decode_10 h1]; unfold decode10; rw [h2]
  simp only [BitVec.toNat_ofNat]
  have h3 : w.extractLsb' 19 6 = 1#6 := by rw [← hw]; simp (disch := decide) only [extr_hi, Nat.reduceSub]; rfl
  unfold decodeSysx; rw [h3]
  simp only [BitVec.toNat_ofNat]
  rw [← hw]
  simp (disch := decide) only [extr_hi, extr_lo, extr_all, Nat.reduceSub]
  try rfl
theorem lineEviction (cluster : Bool) (unit : Nat) (line : Nat) : Statement (.lineEviction cluster unit line) := nofun
theorem uncorrectableError (addr : Nat) : Statement (.uncorrectableError addr) := nofun
theorem hdmDecoderWrite (base : BitVec 64) (len : BitVec 64) : Statement (.hdmDecoderWrite base len) := nofun
theorem staggerExpiry : Statement (.staggerExpiry) := nofun
theorem completionAck : Statement (.completionAck) := nofun
theorem faultsaveExpiry : Statement (.faultsaveExpiry) := nofun
theorem deadlineExpiry : Statement (.deadlineExpiry) := nofun
theorem hangDetection : Statement (.hangDetection) := nofun
theorem loadInstall : Statement (.loadInstall) := nofun
theorem tlbInvalidateRange : Statement (.tlbInvalidateRange) := nofun
theorem tlbInvalidateAll : Statement (.tlbInvalidateAll) := nofun
theorem hullTakeover : Statement (.hullTakeover) := nofun
theorem hullFailure : Statement (.hullFailure) := nofun
theorem kexecAll : Statement (.kexecAll) := fun _ => rfl
theorem ret : Statement (.ret) := fun _ => rfl
theorem nop : Statement (.nop) := fun _ => rfl
theorem gbar : Statement (.gbar) := fun _ => rfl
theorem yield : Statement (.yield) := fun _ => rfl
theorem exit : Statement (.exit) := fun _ => rfl
theorem acquire : Statement (.acquire) := fun _ => rfl
theorem rte : Statement (.rte) := fun _ => rfl
theorem rteSkip : Statement (.rteSkip) := fun _ => rfl
theorem brk : Statement (.brk) := fun _ => rfl
theorem ordenter : Statement (.ordenter) := fun _ => rfl
theorem ordexit : Statement (.ordexit) := fun _ => rfl
theorem fenceLocal : Statement (.fenceLocal) := fun _ => rfl
theorem commit : Statement (.commit) := fun _ => rfl
theorem tlbInvalidationComplete : Statement (.tlbInvalidationComplete) := nofun

end Encoding

end

end Sys2Proof.Laws
end

