-- ==== Sys2Proof/WellFormed.lean ====
section
/-!
DEFINITION. Well-formed instructions. A word of a clause is well-formed when a clause can run it: its fields (01 R36 to R45), its
designators for a stream that may execute it (01 R21 to R26, 11 R250), and a queue where NB is set (01 R29). An event is well-formed
when its arguments name things the part has (00 R1, 15 R346, 18 R378, R380, R381, R395, 19 R404).
-/
namespace Sys2Proof

/-- Whether a stream may execute a word with the designators it has. -/
def Instr.streamOk (acc : Bool) (i : Instr) : Bool := Machine.streamLegal acc i && Machine.opndsOk acc i

/-- Whether NB is set only where the word names a queue (01 R29). -/
def Instr.nbOk (i : Instr) : Bool := !Machine.nbOf i || !(Machine.popsOf i).isEmpty || !(Machine.pushesOf i).isEmpty

/-- Whether a word of a clause is well-formed. -/
def Instr.wordOk (i : Instr) : Bool := Machine.fieldsLegal i && (i.streamOk false || i.streamOk true) && i.nbOk

/-- Whether an event's arguments name a core, cluster, mailbox, port, stack or register the part has, and a message is as long as a
slot's payload. -/
def Instr.eventOk (i : Instr) : Bool :=
  match i with
  | .acquireGrant core | .groupAdmission _ core | .groupRestore _ core | .timingDetectorFire core _ => decide (core < 512)
  | .replayall c | .fail c | .fbgetWrite c _ | .fbstatClear c => decide (c < 64)
  | .replyEntryWrite m | .replygetWrite m _ | .rdropClear m => decide (m < 64)
  | .record m _ ws | .bind m _ ws | .replycfg m _ ws | .load m _ ws | .preempt m _ ws | .withdraw m _ ws | .attest m _ ws
  | .restart m _ ws => decide (m < 64) && decide (ws.length = 62)
  | .dropwrClear p | .retriesClear p | .peerRequest p _ | .flitReplay p | .linkDown p | .linkUp p _ | .collTransfer p _ =>
    decide (p < 12)
  | .hashDescriptorWrite _ n _ | .registerWrite _ n _ => n = 4 || n = 8
  | .correctedError stack bank _ _ => decide (stack < 12) && decide (bank < 66)
  | .bankMigrationChunk stack => decide (stack < 12)
  | .sfiResult _ _ z => decide (z < 8)
  | .slotFill _ n | .slotDrain _ n | .sortPass _ n | .binCompletion _ n => decide (n < 16)
  | .mmaChunk _ t | .mdrainRow _ t => decide (t < 8)
  | .lineEviction cluster unit _ => if cluster then decide (unit < 64) else decide (unit < 512)
  | .binTimerExpiry node | .stalecntClear node | .orderrClear node | .lossesClear node => decide (node < 4096)
  | _ => true

/-- Well-formedness of an instruction. -/
def Instr.wellFormed (i : Instr) : Bool := if (Machine.classOf i).isSome then i.wordOk else i.eventOk

end Sys2Proof
end

