-- ==== Sys2Proof/Tests/Slice0.lean ====
section
/-!
SUPPORT. The model's own tests: a witness for the hypotheses of each statement, with what the manual gives there; words of the
manual that decode; ill-formed instructions.
-/
namespace Sys2Proof.Tests
open Machine Rules

/-- The state whose next word is i, in a bundle of eight lanes that has just started. -/
def at_ (i : Instr) : State := State.reset.placeWord ((encode i).getD 0)

/-- There, with v registers set (in ascending order). -/
def given (i : Instr) (vs : List (Nat × Val)) : State :=
  let s := at_ i
  s.setBun { s.bun with v := vs.map fun p => (p.1, .val p.2) }

/-- given, with k registers set too. -/
def masked (i : Instr) (vs : List (Nat × Val)) (ks : List (Nat × DWord)) : State :=
  (given i vs).setStr { (given i vs).str with k := ks }

/-- Nothing stands against i in a state where it is the next word. -/
def readyIn (s : State) (i : Instr) : Bool := s.wordNow == encode i && (encode i).isSome && s.clear i && s.room i
def ready (i : Instr) : Bool := readyIn (at_ i) i

/-- The state i leaves, and a register's lanes there. -/
def after (i : Instr) (s : State) : State := match exec i s with
  | .next t => t
  | _ => s
def lanesOf (s : State) (r : Nat) : List Nat := (List.range 8).map fun j => ((s.readV r).lane j).toNat

/-- Lane 0 of register r after i with v registers given. -/
def out (i : Instr) (vs : List (Nat × Val)) (r : Nat) : Nat := ((after i (given i vs)).readV r).lane 0 |>.toNat

def intWords : List Instr :=
  [.iadd 0 2 4 5 6, .isub 0 1 4 5 6, .imul 0 4 5 6, .imulh 0 2 4 5 6, .imac 0 4 5 6, .imin 0 1 4 5 6, .imax 0 0 4 5 6, .and 0 4 5 6,
   .or 0 4 5 6, .xor 0 4 5 6, .andn 0 4 5 6, .shl 0 4 5 6, .shr 0 4 5 6, .sar 0 4 5 6, .rotl 0 4 5 6, .bfx 0 1 4 5 6, .bfi 0 4 5 6,
   .popc 0 4 5, .clz 0 4 5, .brev 0 4 5, .mov 0 4 5]
def pairWords : List Instr := [.iadd64 0 4 6 8, .isub64 0 4 6 8, .mov64 0 4 6, .iaddi64 4 6 0x400]
def immWords : List Instr :=
  [.iaddi 4 5 0x400, .andi 4 5 0x7FF, .ori 4 5 0x7FF, .xori 4 5 0x7FF, .shli 4 5 31, .shri 4 5 31, .sari 4 5 31, .imuli 4 5 0x400,
   .ldiLo 4 0x3FFFF, .ldiHi 4 0x3FFF, .ldiS 4 0x3FFFF, .ldif 4 0x3FFFF, .affine 4 5 0x7FF]

section
set_option Elab.async false
set_option maxRecDepth 10000

/-- Witness of IntegerResults: every instruction it names stands ready somewhere. -/
theorem test_int_ready : (∀ i ∈ intWords, ready i = true ∧ (intResult i).isSome = true) ∧
    (∀ i ∈ pairWords, ready i = true ∧ (pairResult i).isSome = true) ∧ ∀ i ∈ immWords, ready i = true ∧ (immResult i).isSome = true := by
  decide +kernel

/-- Sums and differences at the ends of the range, by the table of R54. -/
theorem test_add_sub : let x := fun (a b : Word) => [(5, Val.u a), (6, .u b)]
    out (.iadd 0 0 4 5 6) (x 0xFFFFFFFF 1) 4 = 0 ∧ out (.iadd 0 1 4 5 6) (x 0x7FFFFFFF 1) 4 = 0x7FFFFFFF ∧
    out (.iadd 0 2 4 5 6) (x 0xFFFFFFFF 1) 4 = 0xFFFFFFFF ∧ out (.isub 0 1 4 5 6) (x 0x80000000 1) 4 = 0x80000000 ∧
    out (.isub 0 2 4 5 6) (x 0 1) 4 = 0 ∧ out (.isub 0 0 4 5 6) (x 0 1) 4 = 0xFFFFFFFF := by decide +kernel

/-- Products and extremes by R54. -/
theorem test_mul_min : let x := fun (a b : Word) => [(4, Val.u 7), (5, .u a), (6, .u b)]
    out (.imul 0 4 5 6) (x 0x10001 0x10000) 4 = 0x10000 ∧ out (.imulh 0 0 4 5 6) (x 0xFFFFFFFF 0xFFFFFFFF) 4 = 0 ∧
    out (.imulh 0 1 4 5 6) (x 0xFFFFFFFF 0xFFFFFFFF) 4 = 0xFFFFFFFE ∧ out (.imulh 0 2 4 5 6) (x 0xFFFFFFFF 0xFFFFFFFF) 4 = 0xFFFFFFFF ∧
    out (.imac 0 4 5 6) (x 3 5) 4 = 22 ∧ out (.imin 0 0 4 5 6) (x 0xFFFFFFFF 1) 4 = 0xFFFFFFFF ∧
    out (.imin 0 1 4 5 6) (x 0xFFFFFFFF 1) 4 = 1 ∧ out (.imax 0 0 4 5 6) (x 0xFFFFFFFF 1) 4 = 1 := by decide +kernel

/-- Bits and shifts by R54, a field cut at bit 31 by R55. -/
theorem test_bits : let x := fun (a b : Word) => [(4, Val.u 0x12345678), (5, .u a), (6, .u b)]
    out (.and 0 4 5 6) (x 0xF0F0 0xFF00) 4 = 0xF000 ∧ out (.or 0 4 5 6) (x 0xF0F0 0xFF00) 4 = 0xFFF0 ∧
    out (.xor 0 4 5 6) (x 0xF0F0 0xFF00) 4 = 0x0FF0 ∧ out (.andn 0 4 5 6) (x 0xF0F0 0xFF00) 4 = 0x00F0 ∧
    out (.shl 0 4 5 6) (x 0x80000001 33) 4 = 2 ∧ out (.shr 0 4 5 6) (x 0x80000000 31) 4 = 1 ∧
    out (.sar 0 4 5 6) (x 0x80000000 31) 4 = 0xFFFFFFFF ∧ out (.rotl 0 4 5 6) (x 0x80000001 1) 4 = 3 ∧
    out (.bfx 0 1 4 5 6) (x 0xF0000000 0x81C) 4 = 0xFFFFFFFF ∧ out (.bfx 0 0 4 5 6) (x 0xF0000000 0x81C) 4 = 0xF ∧
    out (.bfi 0 4 5 6) (x 0xFA 0x81C) 4 = 0xA2345678 ∧ out (.popc 0 4 5) (x 0xF0F0 0) 4 = 8 ∧ out (.clz 0 4 5) (x 0 0) 4 = 32 ∧
    out (.clz 0 4 5) (x 1 0) 4 = 31 ∧ out (.brev 0 4 5) (x 1 0) 4 = 0x80000000 ∧ out (.mov 0 4 5) (x 9 0) 4 = 9 := by decide +kernel

/-- Pairs carry from word to word; immediates extend as R58 says. -/
theorem test_pairs_imm : let x := [(4, Val.u 0xFFFFFFFF), (5, .u 1), (6, .u 0xFFFFFFFF), (7, .u 0), (8, .u 1), (9, .u 0)]
    out (.iadd64 0 4 6 8) x 5 = 1 ∧ out (.iadd64 0 4 6 8) x 4 = 0 ∧ out (.isub64 0 4 8 6) x 5 = 0xFFFFFFFF ∧ out (.mov64 0 4 6) x 5 = 0 ∧
    out (.iaddi64 4 8 0x7FE) x 5 = 0xFFFFFFFF ∧ out (.iaddi 4 5 0x7FF) x 4 = 0 ∧ out (.andi 4 6 0x7FF) x 4 = 0x7FF ∧
    out (.ori 4 5 0x400) x 4 = 0x401 ∧ out (.xori 4 6 0x7FF) x 4 = 0xFFFFF800 ∧ out (.shli 4 5 31) x 4 = 0x80000000 ∧
    out (.shri 4 6 31) x 4 = 1 ∧ out (.sari 4 6 31) x 4 = 0xFFFFFFFF ∧ out (.imuli 4 5 0x7FF) x 4 = 0xFFFFFFFF ∧
    out (.ldiLo 4 0x3FFFF) x 4 = 0x3FFFF ∧ out (.ldiHi 4 1) x 4 = 0x7FFFF ∧ out (.ldiS 4 0x3FFFF) x 4 = 0xFFFFFFFF ∧
    out (.ldif 4 0xFE00) x 4 = 0x3F800000 := by decide +kernel

/-- The worked affine of the grammar's word: lane j gets a + 4 j, tag A (04 R113, R128). -/
theorem test_affine : lanesOf (after (.affine 4 5 4) (given (.affine 4 5 4) [(5, .u 100)])) 4 = [100, 104, 108, 112, 116, 120, 124, 128] ∧
    ((after (.affine 4 5 4) (given (.affine 4 5 4) [(5, .u 100)])).readV 4).tag = 1 := by decide +kernel

/-- Witness of SelectResults, LaneExchange, CompareResults, MaskResults and ReductionResults: their instructions stand ready, at width 8. -/
theorem test_lane_words_ready :
    (∀ i ∈ ([.sel 0 3 4 5 6, .movk 0 4 15, .shapeof 0 4 5, .shapegen 0 4 5, .shflIdx 0 4 5 6, .shflXor 0 4 5 6, .shflUp 0 4 5 6,
      .shflDn 0 4 5 6, .ballot 0 15 5, .readlane 0 4 5 6, .redadd 0 0 4 5 6, .redadd 0 1 4 5 6, .redadd 0 2 4 5 6, .redadd 0 3 4 6 8,
      .redmm 0 0 4 5 6, .redmm 0 1 4 5 6, .redmm 0 2 4 5 6, .redmm 0 3 4 5 6, .scan 0 0 4 5 6, .scan 0 1 4 5 6, .scan 0 2 4 5 6] : List Instr),
        ready i = true) ∧ (at_ (.ballot 0 15 5)).grp.w = 2 ^ 3 ∧ (at_ (.ballot 0 15 5)).lanes = 8 := by decide +kernel

theorem test_compares_ready :
    (∀ i ∈ ([.icmpEq 0 0 3 5 6, .icmpNe 0 1 3 5 6, .icmpLt 0 2 3 5 6, .icmpLe 0 0 3 5 6, .icmpLtn 0 0 3 5 6, .icmpLen 0 0 3 5 6,
      .icmpiEq 3 5 0x7FF, .icmpiLt 3 5 0x7FF, .icmpiLtn 3 5 0x7FF, .fcmpEq 0 0 3 5 6, .fcmpNe 0 0 3 5 6, .fcmpLt 0 0 3 5 6,
      .fcmpLe 0 0 3 5 6, .fcmpUn 0 0 3 5 6, .dcmpLt 0 0 3 6 8, .dcmpEq 0 0 3 6 8] : List Instr),
        ready i = true ∧ (compare i (at_ i)).isSome = true) ∧
    (∀ i ∈ ([.kopAnd 3 4 5, .kopOr 3 4 5, .kopXor 3 4 5, .kopAndn 3 4 5, .kopNot 3 4, .kopMov 3 4, .kopSetall 3, .kopClear 3] : List Instr),
        ready i = true ∧ (kopResult i).isSome = true) ∧
    (∀ i ∈ ([.kexecSave 3, .kexecSet 4, .kexecAnd 4, .kexecAndn 4, .kexecOr 4, .kexecAll] : List Instr), ready i = true) := by decide +kernel

/-- Lane 0 to 7 hold 0 to 7 in v5; shuffles by R121 with 1 in every lane of v6. -/
theorem test_shuffles : let x := [(5, Val.a 0 1), (6, .u 1)]
    let r := fun i => lanesOf (after i (given i x)) 4
    r (.shflXor 0 4 5 6) = [1, 0, 3, 2, 5, 4, 7, 6] ∧ r (.shflUp 0 4 5 6) = [0, 0, 1, 2, 3, 4, 5, 6] ∧
    r (.shflDn 0 4 5 6) = [1, 2, 3, 4, 5, 6, 7, 7] ∧ r (.shflIdx 0 4 5 6) = [1, 1, 1, 1, 1, 1, 1, 1] ∧
    r (.readlane 0 4 5 6) = [1, 1, 1, 1, 1, 1, 1, 1] ∧ r (.scan 0 0 4 5 6) = [1, 2, 4, 7, 11, 16, 22, 29] ∧
    r (.redadd 0 0 4 5 6) = List.replicate 8 29 ∧ r (.redmm 0 1 4 5 6) = List.replicate 8 7 ∧
    r (.shapeof 0 4 5) = List.replicate 8 1 ∧ ((after (.shapegen 0 4 5) (given (.shapegen 0 4 5) x)).readV 4).tag = 2 := by decide +kernel

/-- BALLOT takes the lanes whose word is not 0; MOVK and SEL read k bits; signed and unsigned compares differ at the sign bit. -/
theorem test_ballot_compare : let x := [(5, Val.a 0xFFFFFFFF 1), (6, .u 1)]
    let k := fun i => ((after i (given i x)).readK 3).toNat
    k (.ballot 0 3 5) = 0xFD ∧ k (.icmpLt 0 0 3 5 6) = 0x03 ∧ k (.icmpLtn 0 0 3 5 6) = 0x02 ∧ k (.icmpEq 0 0 3 5 6) = 0x04 ∧
    k (.icmpNe 0 0 3 5 6) = 0xFB ∧ k (.icmpLe 0 0 3 5 6) = 0x07 ∧ k (.icmpLen 0 0 3 5 6) = 0x06 ∧ k (.icmpiEq 3 5 0x7FF) = 0x01 ∧
    k (.icmpiLt 3 5 0) = 0x01 ∧ k (.icmpiLtn 3 5 0x7FF) = 0xFE ∧ k (.kopSetall 3) = 0xFF ∧ k (.kopNot 3 4) = 0xFF := by decide +kernel

/-- Bits of k3 are 0x0F: SEL, MOVK, and the four KOPs of two k registers, k4 being 0x33. -/
theorem test_masks : let s := fun i => masked i [(5, Val.u 7), (6, .a 10 1)] [(3, 0x0F), (4, 0x33)]
    let k := fun i => ((after i (s i)).readK 5).toNat
    lanesOf (after (.sel 0 3 4 5 6) (s (.sel 0 3 4 5 6))) 4 = [7, 7, 7, 7, 14, 15, 16, 17] ∧
    lanesOf (after (.movk 0 4 3) (s (.movk 0 4 3))) 4 = [1, 1, 1, 1, 0, 0, 0, 0] ∧ k (.kopAnd 5 3 4) = 0x03 ∧ k (.kopOr 5 3 4) = 0x3F ∧
    k (.kopXor 5 3 4) = 0x3C ∧ k (.kopAndn 5 3 4) = 0x0C ∧ k (.kopMov 5 3) = 0x0F ∧ k (.kopClear 5) = 0 ∧ k (.kexecSave 5) = 0xFF ∧
    (after (.kexecSet 3) (s (.kexecSet 3))).str.exec = 0x0F ∧ (after (.kexecAndn 3) (s (.kexecAndn 3))).str.exec = 0xF0 ∧
    (after (.kexecAnd 4) (s (.kexecAnd 4))).str.exec = 0x33 ∧ (after (.kexecOr 4) (s (.kexecOr 4))).str.exec = 0xFF := by decide +kernel

/-- Witness of ResultLanes and QueueResults, at the ends of their ranges: a result of two words ending at v95, an o register, an x register
of the A-stream, an empty EXEC over plain registers, and queue 0. -/
theorem test_results_witness : let s := at_ (.mov 0 4 5)
    let e := s.setStr { s.str with exec := 0, clause := { s.str.clause with exec0 := 0, execP := 0 } }
    let a := at_ (.agdim 3 4 0)
    s.exec0 = 0xFF ∧ s.cur.acc = false ∧ 0x5E + 2 ≤ 0x60 ∧ e.exec0 = 0 ∧ (∀ d ∈ [0, 0x5F, 0x60, 0x67], e.plainDes d = true) ∧
    s.exec0.getLsbD 7 = true ∧ s.exec0.getLsbD 8 = false ∧ isQ 0x70 = true ∧ isQ 0x7F = true ∧ isQ 0x6F = false ∧
    (∀ j, j ∈ s.bun.autoSlots → j ∈ s.bun.autoSlots) ∧ a.cur.acc = true ∧ 0x1F + 1 ≤ 0x20 := by decide +kernel

/-- Witness of FloatResults and ClassAndConvert: every instruction stands ready under every type it has. -/
theorem test_float_ready :
    (∀ m : BitVec 2, let x : Bool := m == 3#2
      let a : BitVec 7 := if x then 6 else 5
      let b : BitVec 7 := if x then 8 else 6
      ∀ i ∈ ([.fadd 0 m 4 a b, .fsub 0 m 4 a b, .fmul 0 m 4 a b, .ffma 0 m 4 a b, .ffms 0 m 4 a b, .fnma 0 m 4 a b, .fmin 0 m 4 a b,
        .fmax 0 m 4 a b, .fabs 0 m 4 a, .fneg 0 m 4 a] : List Instr), ready i = true ∧ (floatResult i).isSome = true) ∧
    (∀ i ∈ ([.fclass 0 4 5, .cvt 4 5 0x9 0xA 5, .cvt 4 6 0xB 0xB 0, .cvt 4 5 0x0 0xA 6, .gets 4 0, .gets 4 0x51, .sets 5 0x28] :
      List Instr), ready i = true) := by decide +kernel

/-- Sums, products and fused products by R82, the extremes and NaNs of R84's own examples, R85. -/
theorem test_floats : let f := fun (i : Instr) (d a b : Word) => out i [(4, .u d), (5, .u a), (6, .u b)] 4
    f (.fadd 0 0 4 5 6) 0 0x3F800000 0x33800000 = 0x3F800000 ∧ f (.fadd 0 0 4 5 6) 0 0x3F800000 0x34400000 = 0x3F800002 ∧
    f (.fsub 0 0 4 5 6) 0 0x3F800000 0x3F800000 = 0 ∧ f (.fmul 0 0 4 5 6) 0 0x40000000 0x40400000 = 0x40C00000 ∧
    f (.ffma 0 0 4 5 6) 0x3F800000 0x40000000 0x40400000 = 0x40E00000 ∧ f (.ffms 0 0 4 5 6) 0x3F800000 0x40000000 0x40400000 = 0x40A00000 ∧
    f (.fnma 0 0 4 5 6) 0x40E00000 0x40000000 0x40400000 = 0x3F800000 ∧ f (.fmin 0 0 4 5 6) 0 0x80000000 0 = 0x80000000 ∧
    f (.fmin 0 0 4 5 6) 0 0 0x80000000 = 0x80000000 ∧ f (.fmax 0 0 4 5 6) 0 0x7FC01234 0x40400000 = 0x40400000 ∧
    f (.fabs 0 0 4 5) 0 0xBF800000 0 = 0x3F800000 ∧ f (.fneg 0 0 4 5) 0 0xFFC00001 0 = 0x7FC00000 ∧
    f (.fadd 0 1 4 5 6) 0 0x3C003C00 0x40003C00 = 0x42004000 ∧ f (.fmul 0 2 4 5 6) 0 0x3F804000 0x40004000 = 0x40004080 := by decide +kernel

/-- FCLASS by the table of R88; CVT by the examples of R90; 1.0 + 2.0 as f64 in pairs. -/
theorem test_class_cvt : let f := fun (i : Instr) (a : Word) => out i [(5, .u a)] 4
    f (.fclass 0 4 5) 0xFF800000 = 1 ∧ f (.fclass 0 4 5) 0x80000000 = 8 ∧ f (.fclass 0 4 5) 1 = 32 ∧ f (.fclass 0 4 5) 0x3F800000 = 64 ∧
    f (.fclass 0 4 5) 0x7F800001 = 256 ∧ f (.fclass 0 4 5) 0x7FC00000 = 512 ∧
    f (.cvt 4 5 0x0 0xA 0) 0xC0200000 = 0xFFFFFFFE ∧ f (.cvt 4 5 0x0 0xA 6) 0xC0200000 = 0xFFFFFFFD ∧
    f (.cvt 4 5 0x0 0xA 1) 0xC0200000 = 0xFFFFFFFE ∧ f (.cvt 4 5 0x0 0xA 3) 0xC0200000 = 0xFFFFFFFD ∧
    f (.cvt 4 5 0x0 0xA 4) 0xC0200000 = 0xFFFFFFFD ∧ f (.cvt 4 5 0x1 0xA 0) 0x43960000 = 0xFF ∧
    f (.cvt 4 5 0xC 0xA 0) 0x43FA0000 = 0x7E ∧ f (.cvt 4 5 0xC 0xA 0) 0x3A83126F = 0x01 ∧ f (.cvt 4 5 0xA 0xE 0) 0x5A = 0x40500000 ∧
    f (.cvt 4 5 0xA 0xF 0) 0x2B = 0xBEE00000 ∧
    out (.fadd 0 3 4 6 8) [(6, .u 0), (7, .u 0x3FF00000), (8, .u 0), (9, .u 0x40000000)] 5 = 0x40080000 := by decide +kernel

/-- Witness of RoundNearest and RoundDirected: the largest finite value of every format, and 1. -/
theorem test_round_witness : ∀ t ∈ [F64, F32, F16, BF16, E5M2], finite t t.maxPat = true ∧
    |valueOf (t.decode t.maxPat)| ≤ valueOf (t.decode t.maxPat) ∧ |valueOf (.fin true 1 0)| ≤ valueOf (t.decode t.maxPat) := by
  decide +kernel

/-- Half way rounds to even, up and down round outward, toward zero keeps the magnitude below (R79). -/
theorem test_round : F16.encode .rne (.fin false 2049 0) = 0x6800 ∧ F16.encode .rne (.fin false 2051 0) = 0x6802 ∧
    F16.encode .rup (.fin false 2049 0) = 0x6801 ∧ F16.encode .rdn (.fin true 2049 0) = 0xE801 ∧ F16.encode .rtz (.fin true 2051 0) = 0xE801 ∧
    F32.encode .rne (.fin false 1 200) = 0x7F800000 ∧ F32.encode .rtz (.fin false 1 200) = 0x7F7FFFFF := by decide +kernel

/-- GETS: LANE is affine, W, EXEC; SETS of RA and of the handler's status (R47, R61). -/
theorem test_special : lanesOf (after (.gets 4 0) (at_ (.gets 4 0))) 4 = [0, 1, 2, 3, 4, 5, 6, 7] ∧ out (.gets 4 1) [] 4 = 8 ∧
    out (.gets 4 0x50) [] 4 = 0xFF ∧ (after (.sets 5 0x28) (given (.sets 5 0x28) [(5, .u 0x124)])).bun.ra = 0x124 := by decide +kernel

/-- Witness of SpecialRegisters: a register that is set is read, with EXEC, without it, and in handler mode. -/
theorem test_special_witness : let s := at_ (.sets 5 0x28)
    let e := s.setStr { s.str with exec := 0, clause := { s.str.clause with exec0 := 0, execP := 0 } }
    let h := s.setStr { s.str with handler := true }
    s.exec0 ≠ 0 ∧ e.exec0 = 0 ∧ readyIn e (.sets 5 0x28) = true ∧ h.str.handler = true ∧ s.cur.acc = false ∧
    sregWord s 1 0 = some 8 ∧ sregWord (s.setSreg 0x48 0xFFFFFFFC) 0x48 0 = some 0xFFFFFFFC ∧
    sregWord (h.setSreg 0x3D 0xFFFFFFFF) 0x3D 0 = some 3 := by decide +kernel

/-- A state with its program counter, RA and code window set. -/
def standing (i : Instr) (pc ra : Word) (vs : List (Nat × Val)) (ks : List (Nat × DWord)) : State :=
  let s := masked i vs ks
  let s := s.setBun { s.bun with ra := ra }
  s.setStr { s.str with pc := pc }

/-- Witness of TransfersOfControl: every instruction taken and not taken, a target at either end of the window and one past each, RA and
an address aligned and not. -/
theorem test_control_witness : let b := fun (i : Instr) k => branchOf i (standing i 0x1000 0 [] [(3, k)])
    b (.bra 1) 0 = some (1, false, true) ∧ b (.brany 3 1) 1 = some (1, true, true) ∧ b (.brany 3 1) 0x100 = some (1, true, false) ∧
    b (.brall 3 1) 0xFF = some (1, true, true) ∧ b (.brall 3 1) 0xFE = some (1, true, false) ∧ b (.brnone 3 1) 0 = some (1, true, true) ∧
    b (.brnone 3 1) 1 = some (1, true, false) ∧
    (∀ i ∈ ([.bra 1, .brany 3 1, .brall 3 1, .brnone 3 1, .call 1, .ret, .jmpr 4] : List Instr), ready i = true) ∧
    ((0xFFFFFFF8 : Word).toNat : Int) + 4 * (1 : BitVec 21).toInt < 2 ^ 32 ∧ ¬ ((0xFFFFFFFC : Word).toNat : Int) + 4 * (1 : BitVec 21).toInt < 2 ^ 32 ∧
    (0 : Int) ≤ ((4 : Word).toNat : Int) + 4 * (0x1FFFFF : BitVec 21).toInt ∧ ¬ (0 : Int) ≤ ((0 : Word).toNat : Int) + 4 * (0x1FFFFF : BitVec 21).toInt ∧
    ((standing .ret 0 0xFFFFFFFC [] []).bun.ra).toNat % 4 = 0 ∧ ((standing .ret 0 2 [] []).bun.ra).toNat % 4 ≠ 0 ∧
    (pairLane ((standing (.jmpr 4) 0 0 [(4, .u 0xFFFFFFFC), (5, .u 0)] []).readN 4 2) 0).toNat / 2 ^ 32 = (at_ (.jmpr 4)).codeWin.toNat / 2 ^ 32 ∧
    (pairLane ((standing (.jmpr 4) 0 0 [(4, .u 0), (5, .u 1)] []).readN 4 2) 0).toNat / 2 ^ 32 ≠ (at_ (.jmpr 4)).codeWin.toNat / 2 ^ 32 := by
  decide +kernel

/-- Where the stream stands after a word alone in its clause at 0x1000: the next header is two words on; targets by R19, R67, R68, R69. -/
theorem test_control : let p := fun (i : Instr) k => (after i (standing i 0x1000 0x2000 [(4, .u 0x3000), (5, .u 0)] [(3, k)])).str.pc.toNat
    p (.bra 1) 0 = 0x1004 ∧ p (.bra 0x1FFFFF) 0 = 0xFFC ∧ p (.brany 3 4) 1 = 0x1010 ∧ p (.brany 3 4) 0x100 = 0x1008 ∧
    p (.brall 3 4) 0xFF = 0x1010 ∧ p (.brall 3 4) 0x7F = 0x1008 ∧ p (.brnone 3 4) 0 = 0x1010 ∧ p (.call 4) 0 = 0x1010 ∧ p .ret 0 = 0x2000 ∧
    p (.jmpr 4) 0 = 0x3000 ∧ (after (.call 4) (standing (.call 4) 0x1000 0 [] [])).bun.ra = 0x1008 ∧ p .nop 0 = 0x1008 := by decide +kernel

/-- A state with vectors set. -/
def vectored (i : Instr) : State :=
  let s := standing i 0x1000 0 [] []
  { s with dev := { s.dev with ctl := { s.dev.ctl with tvecx := 0x100, tveca := 0x200 } } }

/-- Witness of TrapsTaken and TrapEntry: a word in a clause of another class, TRAP, BRK and NOP ready; a clause with a number, none
outstanding, in and out of handler mode, with a vector and without. -/
theorem test_trap_witness : let s := vectored (.trap 7)
    let c := s.setStr { s.str with clause := { s.str.clause with id := 1 } }
    s.checkWord (hClass s.str.clause.header) true (.iadd 0 0 4 5 6) = some 0x02 ∧ classOf (.iadd 0 0 4 5 6) ≠ some (hClass s.str.clause.header) ∧
    (∀ i ∈ ([.trap 0xFF, .brk, .nop] : List Instr), ready i = true) ∧ c.str.clause.id ≠ 0 ∧ c.str.outst = [] ∧ c.str.handler = false ∧
    c.dev.ctl.tvecx ≠ 0xFFFFFFFF#32 ∧ (at_ (.trap 7)).dev.ctl.tvecx = 0xFFFFFFFF#32 ∧ (0x0C : Nat) ≠ 0x12 := by decide +kernel

/-- TRAP 7 saves its cause, its number, the header's address and EXEC, and goes to the vector (R70, R338, R341); without a vector, or in
handler mode, the group is killed (R339). -/
theorem test_trap : let x := (after (.trap 7) (vectored (.trap 7))).str
    x.trapCause = 0x0C ∧ x.trapInfo = 7 ∧ x.trapPc = 0x1000 ∧ x.trapExec = 0xFF ∧ x.handler = true ∧ x.mask = true ∧ x.pc = 0x100 ∧
    x.exec = 0xFF ∧ (after .brk (vectored .brk)).str.trapCause = 0x0D ∧
    Tab.find? (after .brk (at_ .brk)).groups (at_ .brk).cur.gid = none := by decide +kernel

/-- A stream in its handler, after the trap of a clause of two words at 0x2000 whose region began at 0x1F00. -/
def handling (i : Instr) (cause : Nat) : State :=
  let s := vectored i
  s.setStr { s.str with handler := true, mask := true, trapCause := cause, trapPc := 0x2000, trapExec := 0x0F, trapCount := some 2,
                        rgnPc := 0x1F00, entryExec := 0xF0 }

/-- Witness of TrapReturn, plain and not; RTE.SKIP goes past the clause with the trapped EXEC, RTE to the region (R340, R335). -/
theorem test_return : let s := handling .rte 0x05
    readyIn s .rte = true ∧ readyIn (handling .rteSkip 5) .rteSkip = true ∧ s.str.outst = [] ∧ s.str.trapCause ≠ 0x12 ∧ s.bun.tokenBusy = false ∧
    (after .rteSkip (handling .rteSkip 5)).str.pc = 0x200C ∧ (after .rteSkip (handling .rteSkip 5)).str.exec = 0x0F ∧
    (after .rte s).str.pc = 0x1F00 ∧ (after .rte s).str.exec = 0xF0 ∧ (after .rte s).str.handler = false ∧ (after .rte s).str.mask = false ∧
    (after .rte (handling .rte 0x0C)).str.pc = 0x200C := by decide +kernel

/-- A state with the stream changed. -/
def stream (i : Instr) (f : Stream → Stream) : State := (at_ i).setStr (f (at_ i).str)

/-- A state with barrier 63 initialised to two arrivals, of generation g, n of them made. -/
def barred (i : Instr) (n g : Nat) (f : Stream → Stream) : State := (stream i f).setBar 63 { e := 2, cnt := n, gen := g }

/-- A state with a word of the node's record changed. -/
def noded (s : State) (k : Nat) (w : Word) : State :=
  { s with graph := s.graph.map fun g => { g with nodes := g.nodes.map fun r => r.set k w } }

/-- Witness of Barriers: records that differ and agree, an arrival made with no record, an arrival that is the last and one that is not. -/
theorem test_barrier_witness :
    (∀ i ∈ ([.barInit 63 0x1FFF, .barArrive 63, .barWait 63, .barSync 63] : List Instr), readyIn (barred i 0 0 id) i = true) ∧
    let r := barred (.barWait 63) 0 0 fun x => { x with barRec := [(63, 1)] }
    let c := barred (.barWait 63) 0 0 fun x => { x with clause := { x.clause with arrived := true, gen := 0 } }
    Tab.find? r.str.barRec 63 = some 1 ∧ (r.bar 63).gen = 0 ∧ Tab.find? c.str.barRec 63 = none ∧ c.str.clause.arrived = true ∧
    (c.bar 63).gen = c.str.clause.gen ∧ (r.bar 63).cnt + 1 ≠ (r.bar 63).e ∧ ((barred (.barSync 63) 1 0 id).bar 63).cnt + 1 = ((barred (.barSync 63) 1 0 id).bar 63).e ∧
    r.str.clause.arrived = false ∧ Tab.find? (barred (.barWait 63) 0 0 id).str.barRec 63 = none ∧
    (barred (.barWait 63) 0 0 id).str.clause.arrived = false := by decide +kernel

/-- The first of two arrivals counts, the second starts the next generation and counts from 0 (R134). -/
theorem test_barrier :
    (after (.barArrive 63) (barred (.barArrive 63) 0 0xFFFF id)).bar 63 = { e := 2, cnt := 1, gen := 0xFFFF } ∧
    (after (.barArrive 63) (barred (.barArrive 63) 1 0xFFFF id)).bar 63 = { e := 2, cnt := 0, gen := 0 } ∧
    (after (.barInit 63 5) (barred (.barInit 63 5) 1 9 id)).bar 63 = { e := 5, cnt := 0, gen := 9 } ∧
    (after (.barSync 63) (barred (.barSync 63) 0 9 id)).str.wait = .barrier 63 ∧
    (after (.barSync 63) (barred (.barSync 63) 1 9 id)).str.wait = .nothing ∧
    (after (.barWait 63) (barred (.barWait 63) 0 9 fun x => { x with barRec := [(63, 9)] })).str.wait = .barrier 63 ∧
    (after (.barWait 63) (barred (.barWait 63) 0 9 fun x => { x with barRec := [(63, 8)] })).str.wait = .nothing ∧
    (after (.barWait 63) (barred (.barWait 63) 0 9 id)).str.wait = .barrier 63 ∧
    (after (.barWait 63) (barred (.barWait 63) 0 9 id)).str.clause.gen = 9 ∧
    (let old := fun (s : State) => s.setGrp { s.grp with scrOld := [(0x100, 7)] }
     (after (.barWait 63) (old (barred (.barWait 63) 0 9 fun x => { x with barRec := [(63, 8)] }))).grp.scrOld = [] ∧
     (after (.barArrive 63) (old (barred (.barArrive 63) 0 9 id))).grp.scrOld = [(0x100, 7)]) := by decide +kernel

/-- A state of a launch of two groups of which the current group is the second. -/
def launched (i : Instr) (sect : Sect) (passed : List Nat) (gen : Nat) : State :=
  let s := stream i fun x => { x with clause := { x.clause with arrived := true, gen := 0 } }
  let s := noded (s.setGrp { s.grp with group := 1, sect := sect }) 3 4
  { s with graph := s.graph.map fun g => { g with launches := [(0, { node := 0, total := 2, passed := passed, gbarGen := gen })] } }

/-- Witness of GroupOrder: a FULL group and one that is not; counts that differ and agree; every state of the section. -/
theorem test_group_order_witness :
    (∀ i ∈ ([.acquire, .yield, .gbar, .ordenter, .ordexit] : List Instr), readyIn (launched i .notyet [] 0) i = true) ∧
    (at_ .acquire).grp.isFull = true ∧ (at_ .acquire).grp.acqReq = none ∧
    (launched .gbar .notyet [] 1).launch? 0 = some { node := 0, total := 2, gbarGen := 1 } ∧ (launched .gbar .notyet [] 1).grp.serial = 0 ∧
    (launched .ordenter .notyet [0] 0).grp.group = 1 ∧ (launched .ordenter .notyet [] 0).grp.sect ≠ .passed ∧
    (∀ b ∈ Tab.vals (launched .ordexit .held [] 0).grp.bundles, b.lists = []) := by decide +kernel

/-- ORDENTER waits for the lower group and goes on once it has passed; ORDEXIT passes; either traps in a wrong state (R327). -/
theorem test_group_order : (after .ordenter (launched .ordenter .notyet [] 0)).str.wait = .sect ∧
    (after .ordenter (launched .ordenter .notyet [0] 0)).grp.sect = .held ∧
    (after .ordexit (launched .ordexit .held [0] 0)).grp.sect = .passed ∧
    ((after .ordexit (launched .ordexit .held [0] 0)).launch? 0).map (·.passed) = some [1, 0] ∧
    (after .gbar (launched .gbar .notyet [] 0)).str.wait = .gbar ∧ (after .gbar (launched .gbar .notyet [] 1)).str.wait = .nothing ∧
    (let s := at_ .acquire
     (after .acquire (s.setGrp { s.grp with isFull := false })).grp.acqReq = some 1) ∧ (after .yield (at_ .yield)).str.yielded = true := by
  decide +kernel

/-- Witness of ExitAndReform, and what they do: EXIT ends the stream, REFORM files the lanes of k3 at the target and the others behind
the clause. -/
theorem test_exit_reform : let s := noded (masked (.reform 3 4) [] [(3, 0x03)]) 1 0xFFFFFFFF
    let o : Outst := { id := 1, cls := .mem, seta := 0, setb := 15, marks := {}, srcsRead := false }
    (stream .exit fun x => { x with outst := [o] }).str.outst ≠ [] ∧ ready .exit = true ∧ readyIn s (.reform 3 4) = true ∧ s.bun.poison = [] ∧
    s.bun.autoSlots = [] ∧ (after .exit (stream .exit fun x => { x with outst := [o] })).str.wait = .exit ∧
    (after .exit (at_ .exit)).grp.st = .exiting ∧
    ((after (.reform 3 4) s).grp.rbins.map fun e => (e.1.toNat, e.2.map (·.orig))) = [(16, [0, 1]), (8, [2, 3, 4, 5, 6, 7])] := by
  decide +kernel

/-- The bytes of words from an address up that are not zero. -/
def bytesAt (k : Nat) (ws : List Word) : Bytes :=
  ((List.range (4 * ws.length)).map fun i => (k + i, BitVec.ofNat 8 ((wordAt ws (i / 4)).toNat / 256 ^ (i % 4)))).filter fun c => c.2 ≠ 0

/-- A state whose tables map the first GiB of virtual addresses onto the local memory under the same addresses, as a page of a kind and an
order with WRITE and EXEC, the marks set and held in the TLB, and the second GiB likewise as backing of exact words; data stand above
0x4000. -/
def paged (s : State) (kind ord : Nat) (data : Bytes) : State :=
  let leaf := 0x6C03 + 128 * kind + 32 * ord
  { s with mem := [(0x1000, 1), (0x1002, 2), (0x2000, 1), (0x2002, 3), (0x3000, BitVec.ofNat 8 leaf), (0x3001, BitVec.ofNat 8 (leaf / 256)),
                   (0x3008, 3), (0x3009, 0x6E), (0x300C, 4)] ++ data,
           tlb := [{ cluster := 0, base := 0, size := 30, leaf := BitVec.ofNat 64 leaf, rights := 3, ents := [0x3000] }],
           dev := { s.dev with ctl := { s.dev.ctl with ptRoot := 0x1000, xaccBack := 0x40000000 } } }

/-- paged, with v10:v11 an address and v4 a value. -/
def reach (i : Instr) (kind : Nat) (va : Word) (data : Bytes) : State := paged (given i [(4, .u 0xA1B2C3D4), (5, .a 0 1), (10, .u va), (11, .u 0)]) kind 0 data

/-- Whether a place is plain, as plainPlace says. -/
def plainB (s : State) (acc : Nat) (l : MLoc) : Bool :=
  decide (l.cx = []) && match l.loc with
    | .scr _ => true
    | .mem x => decide (x.kind = 0) && decide (x.ord = 0) && !x.drew &&
      match s.tlb.find? (fun t => t.holds s.cluster x) with
      | some t => decide (acc / 2 % 2 ≠ 1) || t.leaf.getLsbD 13
      | none => false

theorem plainB_spec (s : State) (acc : Nat) (l : MLoc) (h : plainB s acc l = true) : plainPlace s acc l := by
  unfold plainB at h
  unfold plainPlace marked
  simp only [Bool.and_eq_true, decide_eq_true_eq] at h
  refine ⟨h.1, ?_⟩
  cases hl : l.loc with
  | scr off => trivial
  | mem x =>
    have h2 := h.2
    rw [hl] at h2
    simp only [Bool.and_eq_true, decide_eq_true_eq, Bool.not_eq_true'] at h2
    obtain ⟨⟨⟨hk, ho⟩, hd⟩, hf⟩ := h2
    refine ⟨hk, ho, hd, ?_⟩
    cases ht : s.tlb.find? (fun t => t.holds s.cluster x) with
    | none => rw [ht] at hf; simp at hf
    | some t =>
      rw [ht] at hf
      refine ⟨t, rfl, fun ha => ?_⟩
      simp only [Bool.or_eq_true, decide_eq_true_eq] at hf
      rcases hf with hf | hf
      · exact absurd ha hf
      · exact hf

/-- Checked places, where every lane passes, all plain. -/
def plainAll (s : State) (acc : Nat) (ans : Nat → LaneAns) : Option Bool :=
  (gather (s.activeLanes.map fun j => (j, ans j))).toOption.map fun ls => ls.all fun l => plainB s acc l.2

def loads : List Instr :=
  [.ldN8 0 12 10 0xFF, .ldI8 1 12 10 0x100, .ldN16 0 12 10 0, .ldI16 0 12 10 0, .ld32 1 12 10 2, .ld64 0 12 10 0, .ld128 0 12 10 0]
def stores : List Instr := [.st8 0 4 10 0xFF, .st16 0 4 10 0x100, .st32 2 4 10 0, .st64 0 4 10 0, .st128 0 4 10 0]

/-- Witness of LoadResults and StoreResults: on a page of normal RC bytes, at the ends of the offsets, and in scratchpad up to its end. -/
theorem test_memory_witness :
    (∀ i ∈ loads, let s := reach i 0 0x4100 []
      readyIn s i = true ∧ (loadOf i s).bind (fun x => plainAll s 1 x.2.2.2.2) = some true) ∧
    (∀ i ∈ stores, let s := reach i 0 0x4100 []
      readyIn s i = true ∧ (storeOf i s).bind (fun x => plainAll s 2 x.2.2.2) = some true ∧ s.grp.cbuf.length + 8 ≤ 256 ∧
        s.contains s.grp = false ∧ s.grp.cbuf = [] ∧ Memory.wf s.grp.scr = true) ∧
    (∀ i ∈ ([.ldp32 12 10 0, .ldp128 12 10 0] : List Instr), let s := reach i 0 (917504 - 16) []
      readyIn s i = true ∧ (loadOf i s).bind (fun x => plainAll s 1 x.2.2.2.2) = some true) ∧
    (∀ i ∈ ([.stp32 4 10 0, .stp128 4 10 0] : List Instr), let s := reach i 0 (917504 - 16) []
      readyIn s i = true ∧ (storeOf i s).bind (fun x => plainAll s 2 x.2.2.2) = some true) := by decide +kernel

/-- Bytes come little-endian and extended as the form says; the offset counts in units of the form (R62, R63). -/
theorem test_loads : let r := fun (i : Instr) k => ((after i (reach i 0 0x4100 (bytesAt 0x4100 [0x84838281, 2, 3, 4]))).readV k).lane 0 |>.toNat
    r (.ldN8 0 12 10 3) 12 = 0x84 ∧ r (.ldI8 0 12 10 3) 12 = 0xFFFFFF84 ∧ r (.ldN16 0 12 10 1) 12 = 0x8483 ∧
    r (.ldI16 0 12 10 0) 12 = 0xFFFF8281 ∧ r (.ld32 0 12 10 1) 12 = 2 ∧ r (.ld64 0 12 10 1) 13 = 4 ∧ r (.ld128 0 12 10 0) 15 = 4 := by
  decide +kernel

/-- A store's bytes in the view of its core, and what stands beside them; the highest lane's word stays where lanes meet (R63, R180). -/
theorem test_stores : let v := fun (i : Instr) (k : Nat) => ((after i (reach i 0 0x4100 [])).viewByte 0 k).toNat
    v (.st8 0 4 10 0) 0x4100 = 0xD4 ∧ v (.st8 0 4 10 0) 0x4101 = 0 ∧ v (.st16 0 4 10 0) 0x4101 = 0xC3 ∧ v (.st32 0 4 10 0) 0x4103 = 0xA1 ∧
    v (.st32 0 5 10 0) 0x4100 = 7 ∧ v (.st64 0 4 10 0) 0x4104 = 7 ∧ v (.st128 0 4 10 1) 0x4110 = 0xD4 ∧
    (let s := after (.stp32 4 10 0) (reach (.stp32 4 10 0) 0 0x100 [])
     s.grp.scrWord 0x100 = 0xA1B2C3D4) ∧
    (let s := after (.stp128 4 10 0) (reach (.stp128 4 10 0) 0 0x100 [])
     s.grp.scrWord 0x104 = 7) := by decide +kernel

/-- Witness of LaneTraps: a lane that is misaligned, one whose page is not present. -/
theorem test_lane_trap_witness : let i : Instr := .ld32 0 12 10 0
    let s := reach i 0 0x4102 []
    let t := given i [(10, .u 0x4100), (11, .u 0)]
    s.clear i = true ∧ t.clear i = true ∧ 0 ∈ s.activeLanes ∧
    (loadOf i s).map (fun x => x.2.2.2.2 0) = some (.bad 0x04 0x4102) ∧ inAperture (laneVa s 10 0 4 0) = false ∧
    (loadOf i t).map (fun x => x.2.2.2.2 0) = some (.miss 0 [{ vpn := 4, acc := 1, va := 0x4100, path := some 0 }]) := by decide +kernel

/-- A misaligned load traps with ALIGN, one from a page without WRITE cannot be stored to, one from an absent page parks (R62, R345). -/
theorem test_lane_traps : let i : Instr := .ld32 0 12 10 0
    let vec := fun (s : State) => { s with dev := { s.dev with ctl := { s.dev.ctl with tvecx := 0x100 } } }
    (after i (vec (reach i 0 0x4102 []))).str.trapCause = 0x04 ∧ (after i (vec (reach i 0 0x4102 []))).str.trapAddr = 0x4102 ∧
    (after i (vec (reach i 0 0x4102 []))).str.trapInfo = 1 ∧ (after i (vec (reach i 4 0x4100 []))).str.trapCause = 0x07 ∧
    (after i (given i [(10, .u 0x4100), (11, .u 0)])).str.wait = .parked := by decide +kernel

/-- A state with one lane in EXEC. -/
def oneLane (s : State) : State := s.setStr { s.str with exec := 1, clause := { s.str.clause with exec0 := 1, execP := 1 } }

def atoms : List Instr :=
  [.atomAddI32 0 0 12 10 4, .atomAddI64 3 3 12 10 4, .atomMinI32 0 1 12 10 4, .atomMaxI32 1 2 12 10 4, .atomMinN32 2 3 12 10 4,
   .atomMaxN32 0 0 12 10 4, .atomAnd 0 0 12 10 4, .atomOr 0 0 12 10 4, .atomXor 0 0 12 10 4, .atomXchg 0 0 12 10 4, .atomCas 0 0 12 10 4,
   .atomXchg64 0 0 12 10 4]

/-- Witness of AtomicResults: every atomic, and one lane without order on bytes that no cache holds. -/
theorem test_atomic_witness : ∀ i ∈ atoms, let s := oneLane (reach i 0 0x4100 [])
    readyIn s i = true ∧ (atomOf i s).isSome = true ∧
    ((atomOf i s).bind fun x => (gather (s.activeLanes.map fun j => (j, s.atomAns (pairLane (s.readN 10 2) j) 8 x.2.1.toNat))).toOption.map
      fun ls => ls.map fun l => l.2.cx) = some [[]] ∧
    s.contains s.grp = false ∧ s.grp.cbuf = [] ∧ Memory.wf s.mem = true ∧ s.l1 = [] ∧ s.cl = [] ∧ s.targetUp 0x4100 = true := by decide +kernel

/-- Old value in the destination, new value at home; CAS compares the low word of its pair (R181). -/
theorem test_atomics : let run := fun (i : Instr) (b c old : Word) =>
      let s := oneLane (paged (given i [(4, .u b), (5, .u c), (10, .u 0x4100), (11, .u 0)]) 0 0 (bytesAt 0x4100 [old]))
      ((((after i s).readV 12).lane 0).toNat, ((after i s).homeWord 0x4100).toNat)
    run (.atomAddI32 0 2 12 10 4) 2 0 0xFFFFFFFF = (0xFFFFFFFF, 1) ∧ run (.atomMinI32 0 2 12 10 4) 2 0 0xFFFFFFFF = (0xFFFFFFFF, 0xFFFFFFFF) ∧
    run (.atomMaxI32 0 2 12 10 4) 2 0 0xFFFFFFFF = (0xFFFFFFFF, 2) ∧ run (.atomMinN32 0 2 12 10 4) 2 0 0xFFFFFFFF = (0xFFFFFFFF, 2) ∧
    run (.atomMaxN32 0 2 12 10 4) 2 0 1 = (1, 2) ∧ run (.atomAnd 0 2 12 10 4) 0xF0 0 0x3C = (0x3C, 0x30) ∧
    run (.atomOr 0 2 12 10 4) 0xF0 0 0x3C = (0x3C, 0xFC) ∧ run (.atomXor 0 2 12 10 4) 0xF0 0 0x3C = (0x3C, 0xCC) ∧
    run (.atomXchg 0 2 12 10 4) 9 0 7 = (7, 9) ∧ run (.atomCas 0 2 12 10 4) 7 9 7 = (7, 9) ∧ run (.atomCas 0 2 12 10 4) 8 9 7 = (7, 7) ∧
    run (.atomAddI64 0 2 12 10 4) 1 0 0xFFFFFFFF = (0xFFFFFFFF, 0) ∧ run (.atomXchg64 0 2 12 10 4) 9 1 7 = (7, 9) := by decide +kernel

/-- A state whose core holds a dirty copy of byte 0x4100. -/
def dirty (i : Instr) : State := { reach i 0 0x4100 [] with l1 := [(0, [(0x4100, (7, true))])] }

/-- Witness of Fences, and what a release and an acquire at device scope do to the copy (R198, R204). -/
theorem test_fences :
    (∀ i ∈ ([.fenceAcq 3, .fenceRel 0, .fenceFull 2, .fenceLocal, .xfence 4 1 1, .xfence 1 8 2, .prefetch 10, .commit] : List Instr),
      readyIn (dirty i) i = true) ∧
    Tab.find? ((dirty .fenceLocal).l1Of 0) 0x4100 = some (7, true) ∧ (dirty .fenceLocal).targetUp 0x4100 = true ∧
    Tab.find? ((dirty .fenceLocal).acquireLsu 0 2 |>.l1Of 0) 0x4100 = some (7, true) ∧
    ((after (.fenceRel 2) (dirty (.fenceRel 2))).homeByte 0x4100).toNat = 7 ∧ ((dirty (.fenceRel 2)).homeByte 0x4100).toNat = 0 ∧
    ((after (.fenceAcq 2) (dirty (.fenceAcq 2))).homeByte 0x4100).toNat = 0 := by decide +kernel

/-- A state with a spill area at 0x10000: 8 explicit slots and 8 automatic ones. -/
def area (i : Instr) (fwd : List Fwd) : State :=
  let s := paged (given i [(4, .a 10 3)]) 0 0 (bytesAt 0x10140 [8, 8])
  s.setBun { s.bun with spillBase := 1, fwd := fwd }

/-- Witness of SpillAndFill: the last slot, with an entry of the table and without one; the value comes back with its tag (R169 to R171). -/
theorem test_spill : let e : Fwd := { slot := 7, val := .a 10 3, data := [(0x10218, true, [1])], clause := 0 }
    let s := area (.fill 5 7) []
    readyIn (area (.spill 7 4) []) (.spill 7 4) = true ∧ readyIn s (.fill 5 7) = true ∧
    ((area (.spill 7 4) []).slotAcc 7 2).toOption.isSome = true ∧ (s.slotAcc 7 1).toOption.isSome = true ∧ (s.slotAcc 8 1).toOption.isSome = false ∧
    ((s.slotAcc 7 1).toOption.bind fun x => slotVal 8 (leNat (s.areaBytes x.2.2 1)) (s.areaBytes x.2.1 32)) = some (.g (List.replicate 8 0)) ∧
    (after (.spill 7 4) (area (.spill 7 4) [])).bun.fwd.map (fun e => (e.slot, e.val)) = [(7, .a 10 3)] ∧
    (after (.fill 5 7) (area (.fill 5 7) [e])).readV 5 = .a 10 3 ∧ slotVal 8 (slotBytes 8 (.a 10 3)).1 (slotBytes 8 (.a 10 3)).2 = some (.a 10 3) ∧
    (slotBytes 8 (.g [5, 6, 7, 8, 9, 10, 11, 12])).1 = 1 := by decide +kernel

/-- A state with a waiter pool of two, e in v4 and an address in v10:v11. -/
def pool (i : Instr) (e : Word) : State :=
  let s := paged (given i [(4, .u e), (10, .u 0x4100), (11, .u 0)]) 0 0 (bytesAt 0x4100 [5])
  { s with graph := s.graph.map fun g => { g with poolSize := 2, pool := [(0x4100, { gid := 9 }, 0)] } }

/-- Witness of Waits, and what they do (R184 to R187). -/
theorem test_waits : let s := pool (.waita 4 10) 5
    readyIn s (.waita 4 10) = true ∧ (s.waitWord 0x4100).toOption.isSome = true ∧ s.poisonedIn 0x4100 4 = false ∧ s.str.asleep = false ∧
    (after (.waita 4 10) s).str.wait = .waita 0x4100 5 ∧ (after (.waita 4 10) s).str.waiter = true ∧
    ((after (.waita 4 10) s).graph.map fun g => g.pool.length) = some 2 ∧ (after (.waita 4 10) (pool (.waita 4 10) 4)).str.wait = .nothing ∧
    readyIn (pool (.wake 4 10) 1) (.wake 4 10) = true ∧ ((after (.wake 4 10) (pool (.wake 4 10) 1)).graph.map fun g => g.pool) = some [] ∧
    (∀ c : BitVec 2, c ≠ 3 → ready (.waitp 4 10 c) = true) ∧ (917504 - 4) % 4 = 0 ∧ (917504 - 4) + 4 ≤ (at_ (.waitp 4 10 0)).grp.scrSize ∧
    (after (.waitp 4 10 0) (given (.waitp 4 10 0) [(4, .u 1), (10, .u 0)])).str.wait = .waitp 0 1 0 ∧
    (after (.waitp 4 10 1) (given (.waitp 4 10 1) [(4, .u 1), (10, .u 0)])).str.wait = .nothing ∧
    (after (.waitp 4 10 2) (given (.waitp 4 10 2) [(4, .u 0), (10, .u 0)])).str.wait = .nothing := by decide +kernel

/-- Witness of ExactCells, and the example of R233: 2^30, 1, 2^-20 and -2^30 in any order leave 1 + 2^-20, which a load rounds once. -/
theorem test_exact : let xs : List Word := [0x4E800000, 0x3F800000, 0x35800000, 0xCE800000]
    xs.all (fun x => Rules.finite F32 x.toNat) = true ∧ xs.length < 2 ^ 64 ∧
    (match exactSum (xs.map fun x => f32Of x) with
     | .fin _ m _ => decide (m ≠ 0)
     | _ => false) = true ∧
    exactLoad (xs.foldl exactAdd 0) = 0x3F800008 ∧ exactLoad (xs.reverse.foldl exactAdd 0) = 0x3F800008 ∧
    exactLoad (exactStore 0x80000000) = 0 ∧ exactLoad (exactAdd (exactAdd 0 0x7F800000) 0x3F800000) = 0x7F800000 := by decide +kernel

/-- Words of a region of 8 cells at 0x8000, and a cell that one sample of value 1 and weight 1 has left. -/
def regionWords : List Word := [0x8000, 0, 8, 0xFF, 3, 0, 0, 0, 0, 0, 0, 0, 0, 0, 0, 0]
def cellWords : List Word := [1, 1, 256, 0, 0, 1, 0, 0]

/-- A state with that region bound in slot 15, on a page of a kind; v4:v5 hold 1 and 1, v6 the index, v10:v11 an address. -/
def region (i : Instr) (kind : Nat) (idx : Val) : State :=
  let s := paged (given i [(4, .u 0x3F800000), (5, .u 0x3F800000), (6, idx), (10, .u 0x4000), (11, .u 0)]) kind 0
    (bytesAt 0x4000 regionWords ++ bytesAt 0x8000 cellWords)
  s.setGrp { s.grp with regions := [(15, (0x4000, regionWords))] }

/-- Witness of EstimatorAccess: lanes that pass, for XADD on a page of kind 011 and for the others up to the last cell of a region, and a
slot that is not bound. -/
theorem test_estimator_witness :
    (let s := region (.xadd 4 10 2) 3 (.u 0)
     readyIn s (.xadd 4 10 2) = true ∧ (gather (s.activeLanes.map fun j => (j, s.xaddAns (pairLane (s.readN 10 2) j)))).toOption.isSome = true) ∧
    (∀ i ∈ ([.esample 4 6 15, .eload 12 6 15, .edecay 4 15, .esweep 15] : List Instr), let s := region i 1 (.a 0 1)
      readyIn s i = true ∧ (Tab.find? s.grp.regions 15).isSome = true ∧ Tab.find? s.grp.regions 0 = none ∧
      (gather (s.activeLanes.map fun j => (j, s.estAns regionWords ((s.read 6).lane j).toNat 3))).toOption.isSome = true ∧
      (gather ((sweepPages regionWords).map fun p => (0, s.cellAns p 3))).toOption.isSome = true) ∧
    (∀ i ∈ ([.eregion 10 15, .edecay 4 15] : List Instr), let s := region i 0 (.u 0)
      readyIn s i = true ∧ (s.descAcc 0x4000).toOption.isSome = true ∧ regionError regionWords = none ∧
      regionError (regionWords.set 2 0) = some 2 ∧ regionError (regionWords.set 15 1) = some 15) := by decide +kernel

/-- A sample of 1 with weight 1 gives N 1, W 256, S1 256 and S2 256, in place; ELOAD gives mean 1, spread 0, error 0, count 1 (R241, R242). -/
theorem test_estimator : let s := after (.esample 4 6 15) (region (.esample 4 6 15) 1 (.u 7))
    let t := after (.estContributionApply 0) s
    let u := after (.eload 12 6 15) (region (.eload 12 6 15) 1 (.u 0))
    s.contribs.length = 8 ∧ t.contribs.length = 7 ∧ t.homeWords 0x80E0 2 = [1, 1] ∧ t.homeWords 0x80E8 1 = [256] ∧ t.homeWords 0x80F4 1 = [1] ∧
    (List.range 4).map (fun k => ((u.readV (12 + k)).lane 0).toNat) = [0x3F800000, 0, 0, 1] ∧
    (after (.edecay 4 15) (region (.edecay 4 15) 0 (.u 0))).regionCache 0x4000 = (0x3F800000 % 64, 0) ∧
    (after (.eregion 10 15) (region (.eregion 10 15) 0 (.u 0))).regionCache 0x4000 = (3, 0) ∧
    (after (.xadd 4 10 2) (region (.xadd 4 10 2) 3 (.u 0))).contribs.length = 8 := by decide +kernel

/-- A state for records of one word to the node itself, with n records in its bin. -/
def emitting (i : Instr) (n : Nat) : State :=
  let s := given i [(4, .a 0 1), (6, .u 0x10000)]
  { s with graph := s.graph.map fun g => { g with bins := [(0, List.replicate n (0, []))] } }

/-- Witness of Records: room in the bin and none; EXEC empty. -/
theorem test_records_witness : let i : Instr := .emit 4 6 0
    readyIn (emitting i 0) i = true ∧ ready (.cycles 4) = true ∧ ((emitting i 0).sendRecord 0 0x10000 [1]).isSome = true ∧
    ((emitting i 512).sendRecord 0 0x10000 [1]).isSome = false ∧ (emitting i 512).sprouts = [] ∧ 4 < 0x5F ∧
    (after i (emitting i 512)).sprouts.map (·.rcd) = (List.range 8).map (fun k => [BitVec.ofNat 32 k]) ∧ (after i (emitting i 0)).sprouts = [] ∧
    ((after i (emitting i 0)).graph.map fun g => g.launches.map fun l => l.2.records) = some ((List.range 8).map fun k => [[BitVec.ofNat 32 k]]) ∧
    (after (.cycles 4) (at_ (.cycles 4))).readV 4 = .u 1 := by decide +kernel

/-- Words of an MMA block of one row and one column over f16, K 16, tensors 1 and 2, tile 0, and of an MDRAIN block to tensor 3 of f32. -/
def mmaWords : List Word := [0x02010880, 0x00010101, 16, 0, 0, 0, 0, 0, 0, 0, 0, 0, 0, 0, 0, 0]
def drainWords : List Word := [0x000300A0, 0x0101, 0, 0, 0, 0, 0, 0, 0, 0, 0, 0, 0, 0, 0, 0]
/-- Tensors of 16 by 16 in scratchpad at a base. -/
def tensorWords (fmt base stride : Nat) : List Word :=
  [BitVec.ofNat 32 (fmt * 2 ^ 28 + 2 * 2 ^ 25 + 2 ^ 24), BitVec.ofNat 32 base, 0, 0, 0, 16, 16, 0, 0, 0, BitVec.ofNat 32 stride, 0, 0, 0, 0, 0]

/-- A group with both blocks, all of A and B zero but for their first elements, 1 and 2, and tile 0 in an owner state with a command or not. -/
def matrix (s : State) (o : Owner) (cs : Tab MCmd) (elems : Tab Word) : State :=
  let ts : Tab (List Word) := [(1, tensorWords 8 0x1000 32), (2, tensorWords 8 0x2000 32), (3, tensorWords 10 0x3000 64)]
  let s := { s with graph := s.graph.map fun (g : Machine.Graph) => { g with tids := ts } }
  s.setGrp { s.grp with scr := bytesAt 0x100 mmaWords ++ bytesAt 0x140 drainWords ++ bytesAt 0x1000 [0x3C00] ++ bytesAt 0x2000 [0x4000],
                        tiles := [(0, { owner := o, elems := elems })], mcmds := cs }
def mmaCmd : MCmd := { drain := false, block := 0x100, blk := mmaWords, descs := [tensorWords 8 0x1000 32, tensorWords 8 0x2000 32], bid := 0,
                       acc := false, clause := 0 }
def drainCmd : MCmd := { drain := true, block := 0x140, blk := drainWords, descs := [tensorWords 10 0x3000 64], bid := 0, acc := false, clause := 0 }

/-- Witness of MatrixTokens: a tile of each owner, the last row and the last columns it admits, and rows it does not. -/
theorem test_tokens_witness :
    (∀ i ∈ ([.mzero 0, .tkgive 0, .tktake 0, .accrd 4 5 1 0, .accwr 4 5 1 0, .mstat 4] : List Instr), readyIn (noded (at_ i) 5 (96 + 8 * 128)) i = true) ∧
    (∀ o ∈ [Owner.vec, .mxe, .busy], ((matrix (at_ (.mzero 0)) o [] []).grp.tile 0).owner = o) ∧
    (let y := 127 + 56 * 256
     y / 128 % 2 = 0 ∧ y < 2 ^ 14 ∧ y / 256 % 64 + (at_ (.mzero 0)).grp.w ≤ 64) ∧ ¬ (57 * 256) / 256 % 64 + (at_ (.mzero 0)).grp.w ≤ 64 := by decide +kernel

/-- MZERO, the owner's changes, a row written and read back, MSTAT (R276 to R281). -/
theorem test_tokens : let m := fun (i : Instr) o es => after i (matrix (given i [(4, .a 10 1), (5, .u 127)]) o [] es)
    ((m (.mzero 0) .vec [(0, 5)]).grp.tile 0).elems = [] ∧ ((m (.tkgive 0) .vec []).grp.tile 0).owner = .mxe ∧
    ((m (.tktake 0) .mxe []).grp.tile 0).owner = .vec ∧ (m (.tktake 0) .busy []).str.wait = .tile 0 ∧
    ((m (.accwr 4 5 1 0) .vec []).grp.tile 0).elem 127 71 = 17 ∧ ((m (.accwr 4 5 1 0) .vec []).grp.tile 0).elem 127 63 = 0 ∧
    lanesOf (m (.accrd 6 5 1 0) .vec [(127 * 128 + 64, 9)]) 6 = [9, 0, 0, 0, 0, 0, 0, 0] ∧ ((m (.mstat 6) .busy []).readV 6) = .u 2 := by decide +kernel

/-- Witness of MatrixCommands: blocks that keep their rules, each with the tile in every owner state, and blocks that do not. -/
theorem test_commands_witness : let s := matrix (given (.mma 5) [(5, .u 0x100)]) .mxe [] []
    readyIn s (.mma 5) = true ∧ readyIn (matrix (given (.mdrain 5) [(5, .u 0x140)]) .mxe [] []) (.mdrain 5) = true ∧
    (s.block 0x100 3).toOption = some mmaWords ∧ (s.block 0x140 3).toOption = some drainWords ∧ Tab.get [] s.grp.engOld 3 = [] ∧ mmaBad mmaWords 8 = none ∧
    drainBad drainWords 8 = none ∧ mmaBad (mmaWords.set 15 1) 8 = some 15 ∧ drainBad (drainWords.set 1 0) 8 = some 1 ∧
    (s.tensor 1).toOption = some (tensorWords 8 0x1000 32) ∧ (s.tensor 2).toOption = some (tensorWords 8 0x2000 32) ∧
    (s.tensor 3).toOption = some (tensorWords 10 0x3000 64) ∧ mmaTensorsBad mmaWords (tensorWords 8 0x1000 32) (tensorWords 8 0x2000 32) = false ∧
    tFmt (tensorWords 10 0x3000 64) = dFmt drainWords ∧ nTiles (s.nodeRec 0) = 8 ∧ 0x100 % 64 = 0 ∧ 917440 + 64 ≤ s.grp.scrSize := by decide +kernel

/-- MMA starts its command on a tile of MXE, traps on one of VEC, stalls on one that is BUSY (R277, R289). -/
theorem test_commands : let m := fun (i : Instr) a o => after i (matrix (vectored i) o [] [] |> fun s => s.setBun { s.bun with v := [(5, .val (.u a))] })
    ((m (.mma 5) 0x100 .mxe).grp.tile 0).owner = .busy ∧ (Tab.find? (m (.mma 5) 0x100 .mxe).grp.mcmds 0).isSome = true ∧
    (m (.mma 5) 0x100 .vec).str.trapCause = 0x09 ∧ (m (.mma 5) 0x100 .busy).str.wait = .tile 0 ∧
    (m (.mdrain 5) 0x140 .mxe).grp.mcmds.map (fun c => c.2.drain) = [true] ∧ (m (.mdrain 5) 0x141 .mxe).str.trapCause = 0x04 := by decide +kernel

/-- A command at work, outside any word. -/
def working (c : MCmd) (elems : Tab Word) : State := matrix (at_ .nop) .busy [(0, c)] elems

/-- Witness of MatrixWork. -/
theorem test_work_witness : let s := working mmaCmd []
    Tab.find? (s.group 0).mcmds 0 = some mmaCmd ∧ mmaCmd.parked = false ∧ s.resident 0 = true ∧ Memory.wf (s.group 0).scr = true ∧
    mRows mmaWords = 1 ∧ mCols mmaWords = 1 ∧ 0 < mK mmaWords ∧ mmaChunk (mAtype mmaWords) (mBtype mmaWords) = 16 ∧
    (match chunkReads s.tick 0 mmaCmd with
     | .ok _ _ => true
     | _ => false) = true ∧
    drainCmd.cur < mRows drainWords ∧ tSpace (tensorWords 10 0x3000 64) = true ∧ tPack (tensorWords 10 0x3000 64) = false ∧
    tInside (tensorWords 10 0x3000 64) [0, 0] = true ∧ dAmax drainWords = false ∧ 0x140 + 32 ≤ 0x3000 ∧ 0x3000 + 1 * 4 ≤ (s.group 0).scrSize := by
  decide +kernel

/-- The chunk adds 1 times 2 to the element and, being the last, gives the tile back to VEC; the row is drained as it stands (R286, R293). -/
theorem test_work : let s := after (.mmaChunk 0 0) (working mmaCmd [])
    let t := after (.mdrainRow 0 0) (working drainCmd [(0, 0x40400000)])
    ((s.group 0).tile 0).elem 0 0 = 0x40000000 ∧ ((s.group 0).tile 0).owner = .vec ∧ (s.group 0).mcmds = [] ∧
    leNat ((List.range 4).map fun j => (t.group 0).scrByte (0x3000 + j)) = 0x40400000 ∧ ((t.group 0).tile 0).owner = .mxe ∧
    leNat ((List.range 4).map fun j => (t.group 0).scrByte (0x140 + 28 + j)) = 1 := by decide +kernel

/-- A bundle with token 1 pending or written. -/
def tokened (i : Instr) (written : Bool) : State :=
  let s := given i [(4, .u 5), (8, .u 0x40800000)]
  s.setBun { s.bun with toks := [(1, { pending := true, dest := 9, fn := 2, opnd := .u 0x40800000, exec := 0x0F, written := written })] }

/-- Witness of SpecialQueue. -/
theorem test_special_queue_witness :
    (∀ i ∈ ([.sfi 7 9 8 2, .sfwait 0xFF, .sfpoll 3 0xFF] : List Instr), ∀ w ∈ [true, false], readyIn (tokened i w) i = true) ∧
    (let s := tokened (.sfi 1 9 8 2) false
     (Tab.get {} s.bun.toks 1).pending = true ∧ (Tab.get {} s.bun.toks 7).pending = false ∧ sfiUniform s.grp.w (s.read 8) s.exec0 = true ∧
     (∀ e ∈ (tokened .nop true).bun.toks, e.2.written = true) ∧ ∃ e ∈ (tokened .nop false).bun.toks, e.2.written = false) := by decide +kernel

/-- SFI of a pending token traps; 1/4 and the root of 4; SFWAIT waits until the result is there (R97, R297 to R299). -/
theorem test_special_queue : specialWord 0 0x40800000 = 0x3E800000 ∧ specialWord 2 0x40800000 = 0x40000000 ∧ specialWord 0 0x80000000 = 0xFF800000 ∧
    lanesOf (after (.sfiResult 0 0 1) (tokened .nop false)) 9 = [0x40000000, 0x40000000, 0x40000000, 0x40000000, 0, 0, 0, 0] ∧
    (after (.sfwait 2) (tokened (.sfwait 2) false)).str.wait = .tokens 2 ∧ (after (.sfwait 2) (tokened (.sfwait 2) true)).str.wait = .nothing ∧
    (after (.sfpoll 3 2) (tokened (.sfpoll 3 2) false)).readK 3 = 0 ∧ (after (.sfpoll 3 2) (tokened (.sfpoll 3 2) true)).readK 3 = 0xFF ∧
    (after (.sfi 7 9 8 0) (tokened (.sfi 7 9 8 0) false)).bun.toks.map (fun t => (t.1, t.2.pending)) = [(1, true), (7, true)] := by decide +kernel

/-- A state of the A-stream with x registers, n walks in progress, and a clause that has a number. -/
def astream (i : Instr) (xs : Tab Word) (ws : List Walk) : State :=
  let s := at_ i
  let s := s.setBun { s.bun with walks := ws }
  s.setStr { s.str with x := xs, clause := { s.str.clause with id := 1 } }

/-- A load walk, or a store walk, on queue 2: two points 64 bytes apart from 0x4100, one word an entry, four bytes between lanes. -/
def walkOn (store : Bool) : Walk :=
  { pat := { base := 0x4100, l := 8, cs := [(2, 64), (1, 0), (1, 0), (1, 0)] }, store := store, n := 1, q := 2, ls := 4, point := 0, acc := true, clause := 0 }

/-- Words of a tensor of 8 words of 32 bits at 0x4100 in memory. -/
def lineWords : List Word := [0x42000000, 0x4100, 0, 0, 0, 8, 0, 0, 0, 0, 0, 0, 0, 0, 0, 0]

/-- Witness of QueuesAndPatterns: a fifth walk and a fourth; a valid descriptor and one that is not. -/
theorem test_patterns_witness : let ws := fun n => List.replicate n (walkOn false)
    (∀ i ∈ ([.agdim 3 4 3, .agbase 3 4, .agld 0x70 3 0, .agst 0x7F 3 2] : List Instr), readyIn (astream i [] (ws 3)) i = true) ∧
    (∀ i ∈ ([.agld 0x70 3 0, .agst 0x7F 3 2] : List Instr), (after i (astream i [] (ws 4))).str.wait = .room ∧
      (after i (astream i [] (ws 3))).bun.walks.length = 4) ∧
    (let s := reach (.tidset 10 255) 0 0x4100 (bytesAt 0x4100 lineWords)
     readyIn s (.tidset 10 255) = true ∧ (match s.memAcc s.party 0x4100 64 1 [0] with
       | .ok (.mem y) => decide (s.homeWords y.key 16 = lineWords) && !s.poisonedIn y.key 64
       | _ => false) = true) ∧
    tensorBad lineWords = none ∧ tensorBad (lineWords.set 15 1) = some 15 ∧ ready (.qstat 4 15) = true ∧
    (at_ (.qstat 4 15)).bun.queue 15 = {} := by decide +kernel

/-- AGDIM and AGBASE set the pattern, L 0 giving the width; TIDSET binds; QSTAT reads 10 for an entry held and one visible (R258 to R263). -/
theorem test_patterns :
    (after (.agdim 3 4 1) (astream (.agdim 3 4 1) [(3, 5), (4, 0xFFFFFFFC)] [])).bun.pat.cs = [(1, 0), (5, 0xFFFFFFFC), (1, 0), (1, 0)] ∧
    (after (.agbase 2 4) (astream (.agbase 2 4) [(4, 0x4100), (5, 1)] [])).bun.pat.base = 0x100004100 ∧
    (after (.agbase 2 4) (astream (.agbase 2 4) [(2, 3)] [])).bun.pat.l = 3 ∧ (after (.agbase 2 4) (astream (.agbase 2 4) [] [])).bun.pat.l = 8 ∧
    ((after (.tidset 10 255) (reach (.tidset 10 255) 0 0x4100 (bytesAt 0x4100 lineWords))).graph.bind fun g => Tab.find? g.tids 255) = some lineWords ∧
    (let s := at_ (.qstat 4 2)
     (after (.qstat 4 2) (s.setBun (s.bun.setQueue 2 { ents := [{ val := .u 1 }, { val := .u 2, pop := some false }], heldX := [.u 3] }))).readV 4 =
      .u (1 + 8 + 64)) := by decide +kernel

/-- A bundle with a walk and a queue. -/
def walking (store : Bool) (ents : List QEnt) : State :=
  let s := paged (at_ .nop) 0 0 (bytesAt 0x4100 [1, 2, 3, 4, 5, 6, 7, 8])
  s.setBun ({ s.bun with walks := [walkOn store] }.setQueue 2 { ents := ents })

/-- Witness of WalkPoints: the last point of a pattern, a walk that can read and one that can write. -/
theorem test_walk_witness : let s := walking false []
    let w := walkOn false
    let u : State := { s.tick with cur := { gid := 0, bid := 0, acc := true } }
    (1 < 2 ∧ 0 < 1 ∧ { w with point := 1 }.point = 1 + 2 * (0 + 1 * (0 + 1 * 0)) ∧ w.parked = false ∧ s.resident 0 = true ∧
      w.point < w.pat.points ∧ { w with point := 1 }.point < w.pat.points) ∧
    (s.bundle 0 0).walks = [w] ∧ ((u.walkPlaces w).toOption.map fun ls => ls.all fun l => plainB u 1 l.2) = some true ∧
    ((u.walkPlaces (walkOn true)).toOption.map fun ls => ls.all fun l => plainB u 2 l.2) = some true ∧ w.n ≤ ((s.bundle 0 0).queue 2).room ∧
    1 ≤ (((walking true [{ val := .a 10 1 }]).bundle 0 0).queue 2).avail.length ∧
    (((walking true [{ val := .a 10 1 }]).bundle 0 0).queue 2).popBad 1 = false ∧ (s.group 0).cbuf = [] := by decide +kernel

/-- A point of a load walk pushes an entry, one of a store walk pops one and writes it. -/
theorem test_walk : let s := after (.walkPoint 0 0 0) (walking false [])
    let t := after (.walkPoint 0 0 0) (walking true [{ val := .a 10 1 }])
    ((s.bundle 0 0).queue 2).ents.map (fun e => (List.range 8).map fun j => (e.val.lane j).toNat) = [[1, 2, 3, 4, 5, 6, 7, 8]] ∧
    (s.bundle 0 0).walks.map (·.point) = [1] ∧ ((t.bundle 0 0).queue 2).ents = [] ∧ (t.viewByte 0 0x4104).toNat = 11 ∧
    (after (.walkPoint 0 0 0) (walking true [])).bun.walks = [walkOn true] := by decide +kernel

/-- Words of a layout record over that tensor, two slots of 16 bytes at 0x400, arrival word at 0x500 from 7; of a SORT, a BIN and a COLL block. -/
def layoutWords (drain : Bool) : List Word :=
  [BitVec.ofNat 32 (4 * 2 ^ 24 + (if drain then 2 ^ 23 else 0) + 2 * 2 ^ 12), 0x400, 16, 0, 0x500, 7, 4, 0, 0, 0, 0, 0, 0, 0, 0, 0]
def sortWords : List Word := [0, 2, 0x4100, 0, 0x4200, 0, 0x4300, 0, 0x500, 9, 0, 0, 0, 0, 0, 0]
def binWords : List Word := [0x20000, 3, 0x4100, 0, 0x4200, 0, 0, 0x500, 9, 0, 0, 0, 0, 0, 0, 0]
def collWords : List Word := [0x30000000, 5, 0, 0, 0, 0, 0, 0, 0x500, 9, 0, 0, 0, 0, 0, 0]

/-- A group with a block at 0x100 and context 3, v5 the block's offset, v6 a count. -/
def context (i : Instr) (blk : List Word) (x : Ctx) (n : Word) : State :=
  let s := paged (given i [(5, .u 0x100), (6, .u n)]) 0 1 (bytesAt 0x4100 [1, 0, 3, 4, 5, 6, 7, 8])
  let s := { s with graph := s.graph.map fun (g : Machine.Graph) => { g with tids := [(4, lineWords)] },
                    dev := { s.dev with coll := [(0, [0x80000000, 0xF0000000])] } }
  s.setGrp { s.grp with scr := bytesAt 0x100 blk, ctxs := [(3, x)] }

/-- A stream in context 3: state, slots begun and released. -/
def streamCtx (st : CtxState) (drain : Bool) (done released : Nat) : Ctx :=
  { st := st, kind := .stream, block := 0x100, blk := layoutWords drain, desc := lineWords, total := 2, done := done, released := released }

/-- Witness of Contexts: closed, held and running contexts; records and blocks that keep their rules and do not; a count at its bound. -/
theorem test_contexts_witness :
    (∀ i ∈ ([.sopen 5 3, .copy 5 3, .sort 5 3, .bin 5 3, .coll 5 3, .sgo 3, .sslot 6 3, .sclose 3, .sstat 4 3] : List Instr),
      readyIn (context i [] {} 0) i = true) ∧
    (let s := context (.sopen 5 3) (layoutWords false) {} 1
     (s.block 0x100).toOption = some (layoutWords false) ∧ (s.tensor 4).toOption = some lineWords ∧ (s.grp.ctx 3).st = .closed ∧
     layoutBad (layoutWords false) lineWords false s.grp.scrSize = none ∧ layoutBad (layoutWords true) lineWords true s.grp.scrSize = none ∧
     layoutBad ((layoutWords false).set 1 1) lineWords false s.grp.scrSize = some 1 ∧ slotTotal (layoutWords false) lineWords false = 2 ∧
     sortBad sortWords s.grp.scrSize = false ∧ binBad binWords s.grp.scrSize = none ∧ s.patchTrap binWords 2 0 0 = none ∧
     collBad collWords (s.collEntry 0) s.grp.scrSize = false ∧ s.collCtx 0 5 = none ∧ srcBytes collWords (s.collEntry 0) = 0) ∧
    1 ≤ 2 ∧ 2 + (streamCtx .running true 0 0).released ≤ (streamCtx .running true 0 0).total ∧ (streamCtx .running true 0 0).st = .running := by
  decide +kernel

/-- What the commands leave: SOPEN holds and sets the arrival word, SGO runs, SSLOT releases within its bound and else traps, SCLOSE closes,
SSTAT tells the state (R265 to R268). -/
theorem test_contexts : let s := after (.sopen 5 3) (context (.sopen 5 3) (layoutWords false) {} 1)
    let m := fun (i : Instr) (x : Ctx) n => after i (let s := context i [] x n; { s with dev := { s.dev with ctl := { s.dev.ctl with tvecx := 0x100 } } })
    (s.grp.ctx 3).st = .held ∧ (s.grp.ctx 3).total = 2 ∧ s.grp.scrWord 0x500 = 7 ∧
    ((m (.sgo 3) (streamCtx .held false 0 0) 0).grp.ctx 3).st = .running ∧ (m (.sgo 3) {} 0).str.trapCause = 0x0F ∧
    ((m (.sslot 6 3) (streamCtx .running true 0 0) 2).grp.ctx 3).released = 2 ∧ (m (.sslot 6 3) (streamCtx .running true 0 0) 3).str.trapInfo = 0x631 ∧
    ((m (.sclose 3) (streamCtx .held false 0 0) 0).grp.ctx 3).st = .closed ∧
    (let x := (m (.sclose 3) (streamCtx .running true 0 1) 0).grp.ctx 3
     x.closing = true ∧ x.bound = 1 ∧ { x with released := 2 }.slotReady = true ∧ { x with released := 2, done := 1 }.slotReady = false) ∧
    (m (.sstat 4 3) (streamCtx .running false 2 1) 0).readV 4 = .u 0x40010002 ∧
    ((m (.sort 5 3) (streamCtx .done false 0 0) 0)).str.trapInfo = 0x431 ∧
    ((after (.sort 5 3) (context (.sort 5 3) sortWords {} 0)).grp.ctx 3).kind = .sort ∧
    ((after (.bin 5 3) (context (.bin 5 3) binWords {} 0)).grp.ctx 3).kind = .bin ∧
    ((after (.copy 5 3) (context (.copy 5 3) (layoutWords false) {} 0)).grp.ctx 3).kind = .copy ∧
    ((after (.coll 5 3) (context (.coll 5 3) collWords {} 0)).grp.ctx 3).st = .closed := by decide +kernel

/-- SRC and DST of a collective cover no page, and one page. -/
theorem test_coll_pages : let s := context (.coll 5 3) collWords {} 0
    s.tick.rangePages s.grp.engine 1 0 1 0 0 = .ok () s.tick ∧ s.tick.rangePages s.grp.engine 2 0 5 0x4100 4 = .ok () s.tick :=
  ⟨by rfl, by rfl⟩

/-- The page that an engine path reaches as engPlain says, if it does. -/
def engB (s : State) (g path acc : Nat) (va : DWord) (n : Nat) : Option Xlat :=
  match s.globAcc (s.group g).engine va acc [0] with
  | .ok (.mem x) =>
    match s.tlb.find? (fun t => t.holds (s.group g).cluster x) with
    | some t =>
      if !inAperture va && decide (va.toNat % 2 ^ x.size + n ≤ 2 ^ x.size) && !x.drew && (decide (acc / 2 % 2 ≠ 1) || t.leaf.getLsbD 13) &&
          (decide (acc ≠ 1) || !s.pathPoison (s.group g).core path x.key n) then some x else none
    | none => none
  | _ => none

theorem engB_spec (s : State) (g path acc : Nat) (va : DWord) (n : Nat) (x : Xlat) (h : engB s g path acc va n = some x) :
    engPlain s g path acc va n x := by
  unfold engB at h
  split at h
  · split at h
    · split at h
      · rename_i hg _ t ht hc
        obtain rfl := Option.some.inj h
        simp only [Bool.and_eq_true, Bool.or_eq_true, decide_eq_true_eq, Bool.not_eq_true'] at hc
        obtain ⟨⟨⟨⟨h1, h2⟩, h3⟩, h4⟩, h5⟩ := hc
        exact ⟨h1, hg, h2, ⟨h3, t, ht, fun ha => h4.resolve_left fun hn => hn ha⟩, fun ha => h5.resolve_left fun hn => hn ha⟩
      · cases h
    · cases h
  · cases h

/-- A state with a context at work. -/
def workCtx (blk : List Word) (x : Ctx) : State := context .nop blk x 0
def sortCtx (done : Nat) : Ctx := { st := .running, kind := .sort, blk := sortWords, total := 2, done := done }
def binCtx : Ctx := { st := .running, kind := .bin, blk := binWords, total := 2 }

/-- What an answer of an engine gives, if it goes on. -/
def eGo {α : Type} : EAns α → Option (α × State)
  | .ok a s => some (a, s)
  | _ => none

/-- Witness of ContextWork, its first, second and last slot clauses: an engine path that reads and writes; a slot to fill, one to drain. -/
theorem test_slot_witness :
    (let s := workCtx [] (streamCtx .running false 0 0)
     let x := (s.group 0).ctx 3
     s.resident 0 = true ∧ x.slotReady = true ∧ lDrain x.blk = false ∧ tSpace x.desc = false ∧ tPack x.desc = false ∧ x.curA = 0 ∧
     Memory.wf (s.group 0).scr = true ∧ tileElems x.blk x.desc = 4 ∧ 0x400 + 4 * 4 ≤ 0x500 ∧ 0x500 + 4 ≤ (s.group 0).scrSize ∧
     (∀ j ∈ List.range 4, tInside x.desc (tileIndex x.blk x.desc 0 j) = true ∧
       (engB s 0 2 1 (elemPlace x.desc (tileIndex x.blk x.desc 0 j)).1 4).isSome = true) ∧
     (engB s 0 2 2 0x4100 8).isSome = true ∧ (s.group 0).cbuf = [] ∧ s.targetUp 0x4100 = true ∧ Memory.wf s.mem = true ∧
     (s.tick.moveElems (fillElem 0 x 0x400) 0 3 x 4 0).toOption.isSome = true ∧
     (let d := lineWords.set 5 6
      tInside d (tileIndex x.blk d 1 2) = false ∧ tInside d (tileIndex x.blk d 1 1) = true)) ∧
    (let s := workCtx [] (streamCtx .running true 0 2)
     let x := (s.group 0).ctx 3
     s.resident 0 = true ∧ x.slotReady = true ∧ lDrain x.blk = true ∧ (s.tick.moveElems (drainElem1 0 x 0x400) 0 3 x 4 0).toOption.isSome = true ∧
     (engB s 0 2 2 (elemPlace x.desc (tileIndex x.blk x.desc 0 3)).1 4).isSome = true ∧ 0x400 + 16 ≤ (s.group 0).scrSize) := by decide +kernel

/-- Witness of ContextWork's SORT and BIN: pages of every pair and key; a pass that is the last and one that is not. -/
theorem test_sort_witness :
    (∀ d ∈ [0, 3], let s := workCtx [] (sortCtx d)
     let x := (s.group 0).ctx 3
     let src := sortSide sortWords (decide (d % 2 = 1))
     s.resident 0 = true ∧ x.st = .running ∧ x.kind = .sort ∧ x.parked = false ∧ x.curA = 0 ∧ x.work = [] ∧ sCount sortWords = 2 ∧
       (∀ i ∈ [0, 1], (engB s 0 2 1 (elemAt src.1 i (sKey sortWords)) (sKey sortWords)).isSome = true ∧ (engB s 0 2 1 (elemAt src.2 i 4) 4).isSome = true) ∧
       (match s.tick.sortReads 0 3 x 2 with
        | .ok (u, y) => (u.sortWrites 0 3 (byDigit y.elems d) y 2).toOption.isSome &&
            (match eGo (u.engWrite 0 2 (elemAt src.1 0 4) (leBytes 4 9)) with
             | some (_, t) => (eGo (t.engWrite 0 2 (elemAt src.2 0 4) (leBytes 4 9))).isSome
             | none => false)
        | _ => false) = true) ∧ sKey sortWords = 4 ∧
    (let s := workCtx [] binCtx
     let x := (s.group 0).ctx 3
     s.resident 0 = true ∧ x.st = .running ∧ x.kind = .bin ∧ x.parked = false ∧ x.work = [] ∧ x.done = 0 ∧ x.curA = 0 ∧ x.curB = 0 ∧ x.skip = 0 ∧
       bNpatch binWords = 0 ∧ bNbin binWords = 2 ∧ bCount binWords = 3 ∧
       (∀ i ∈ [0, 1, 2], (engB s 0 2 1 (elemAt (bKeys binWords) i 4) 4).isSome = true) ∧
       (match s.tick.binKeys 0 3 { x with work := List.replicate 3 0 } 3 with
        | .ok (u, y) => decide (y.work = [1, 1, 1]) && (u.binCounts 0 3 { y with done := 1, curA := 0 } 2).toOption.isSome &&
            (eGo (u.engWrite 0 2 (elemAt (bCounts binWords) 0 4) (leBytes 4 1))).isSome
        | _ => false) = true) := by decide +kernel

/-- A slot filled and counted; two keys sorted by their passes; keys 1, 0 and 3 counted in two bins (R266, R269, R270). -/
theorem test_context_work : let s := after (.slotFill 0 3) (workCtx [] (streamCtx .running false 0 0))
    let t := after (.slotDrain 0 3) (workCtx [] (streamCtx .running true 0 2))
    let u := after (.sortPass 0 3) (workCtx [] (sortCtx 0))
    let v := after (.binCompletion 0 3) (workCtx [] binCtx)
    (s.group 0).scrWords 0x400 4 = [1, 0, 3, 4] ∧ (s.group 0).scrWord 0x500 = 8 ∧ ((s.group 0).ctx 3).done = 1 ∧
    (t.group 0).scrWord 0x500 = 8 ∧ ((t.group 0).ctx 3).done = 1 ∧ ((u.group 0).ctx 3).done = 1 ∧ u.homeWords 0x4300 2 = [0, 1] ∧
    v.homeWords 0x4200 2 = [1, 1] ∧ ((v.group 0).ctx 3).st = .closed ∧ (v.group 0).scrWord 0x500 = 9 ∧
    byDigit (byDigit [(0x201, 1), (0x102, 2), (0x101, 3), (0x201, 4)] 0) 1 = [(0x101, 3), (0x102, 2), (0x201, 1), (0x201, 4)] := by decide +kernel

/-- A COLL of group 0 that waits for its members, in a device at the root of the tree with one subtree below, port 2. -/
def gathering (up : Bool) : State :=
  let s := workCtx [] { st := .running, kind := .coll, blk := collWords, curA := 1 }
  { s with dev := { s.dev with coll := [(0, [0x80000001, 0xF0001004])], ports := [(2, { up := up, tags := [7] })],
                               collIn := [(ownPort, xferOf collWords 1 [])] } }
def xfer (members tag : Nat) : CollXfer := { xferOf collWords members [] with tag := tag }

/-- Witness of ContextWork's transfers: a port that is down, a tag that came before, no COLL, members missing, all there, one too many. -/
theorem test_transfer : let s := gathering true
    let t := fun (s : State) m tag => after (.collTransfer 2 (xfer m tag)) s
    let u := fun m => s.tick.collPut 2 (xfer m 8)
    let ctx := fun (v : State) => ((v.group 0).ctx 3).st
    (t { s with dev := { s.dev with hulls := 0 } } 1 8).dev.collIn.length = 1 ∧ s.accepts = true ∧ (t (gathering false) 1 8).dev.collIn.length = 1 ∧ (t s 1 7).dev.collIn.length = 1 ∧
    ((t { s with groups := [] } 1 8).dev.collIn.map (·.1)) = [ownPort, 2] ∧ s.collCtx 0 5 = some (0, 3) ∧ s.resident 0 = true ∧
    ((u 0).collHeld collWords).all (fun y => decide (y.1 ≠ sentPort)) = true ∧ (u 0).collOdd ((s.group 0).ctx 3) = false ∧
    heldMembers ((u 0).collHeld collWords) 15 = 1 ∧ heldMembers ((u 1).collHeld collWords) 15 = cgSub (s.collEntry 0) ∧
    (u 2).collOdd ((s.group 0).ctx 3) = true ∧ (t s 0 8).dev.collIn.length = 2 ∧ ctx (t s 0 8) = .running ∧
    ctx (t s 1 8) = .closed ∧ ((t s 1 8).group 0).scrWord 0x500 = 9 ∧ ((t s 1 8).dev.collOut.map (·.1)) = [2] ∧ downPorts (s.collEntry 0) = [2] ∧
    ctx (t s 2 8) = .error ∧ (t s 2 8).dev.collIn = [] := by decide +kernel

/-- The camera of R305's example, and a hierarchy descriptor. -/
def cameraWords : List Word :=
  [0, 0, 0, 0x3F800000, 0, 0, 0, 0xBF800000, 0, 0, 0, 0x3F800000, 0x40800000, 0x40800000, 0x40800000, 0x40800000, 0, 0x7F800000,
   0, 0, 0, 0, 0, 0, 0, 0, 0, 0, 0, 0, 0, 0]
def bvhWords : List Word := [0x8000, 0, 0x9000, 0, 1, 0, 0, 0, 0, 0, 0, 0, 0, 0, 0, 0]

/-- A state with both in memory at 0x4100 and 0x4200, the camera and slot 3 bound, and a ray along z in v16 to v23. -/
def rays (i : Instr) (va : Word) : State :=
  let s := paged (given i [(4, .u 3), (5, .u 1), (6, .u 0x3F000000), (7, .u 0x3F000000), (10, .u va), (11, .u 0), (16, .u 0), (17, .u 0), (18, .u 0),
    (19, .u 0), (20, .u 0), (21, .u 0), (22, .u 0x3F800000), (23, .u 0x7F800000)]) 0 1 (bytesAt 0x4100 cameraWords ++ bytesAt 0x4200 bvhWords)
  s.setGrp { s.grp with camera := some (0x4100, cameraWords), bvhs := [(3, (0x4200, bvhWords))] }

/-- A triangle across the ray at distance 1, and a lane that holds a hit at distance 2. -/
def triangle : List Byte :=
  ([0xBF800000, 0xBF800000, 0x3F800000, 0x3F800000, 0xBF800000, 0x3F800000, 0, 0x3F800000, 0x3F800000, 7, 0, 0] : List Word).flatMap
    fun w => leBytes 4 w.toNat
def hitLane : TLane := { lane := 0, ray := [0, 0, 0, 0, 0, 0, 0x3F800000, 0x7F800000],
                         hit := some { t := 0x40000000, b1 := 0, b2 := 0, prim := 9, inst := 0, negd := false } }
def worldFrame : TFrame := { top := false, o := [0, 0, 0], d := [0, 0, 0x3F800000], root := 0 }

/-- A bundle with a TRACE whose lanes have ended. -/
def traced : State :=
  let s := rays .nop 0
  s.setBun { s.bun with traces := [{ slot := 3, desc := bvhWords, mode := 0, d := 24, uni := false, lanes := [hitLane, { hitLane with lane := 1, hit := none }],
                                     exec := 0x01, clause := 0 }] }

/-- Witness of Traversal: blocks that keep their rules and do not; TRACE with EXEC empty and not; a TRACE that has ended; a nearer hit. -/
theorem test_traversal_witness :
    (∀ i ∈ ([.camset 10, .bvhset 10 3, .camgen 24 4, .trace 24 16 0 3] : List Instr), readyIn (rays i 0x4100) i = true) ∧
    (let s := rays (.camset 10) 0x4100
     (match s.memAcc s.party 0x4100 128 1 [0], s.memAcc s.party 0x4200 64 1 [0] with
      | .ok (.mem y), .ok (.mem z) => decide (s.homeWords y.key 32 = cameraWords) && decide (s.homeWords z.key 16 = bvhWords)
      | _, _ => false) = true) ∧
    cameraBad cameraWords = none ∧ cameraBad (cameraWords.set 12 0) = some 12 ∧ cameraBad (cameraWords.set 31 1) = some 31 ∧ bvhBad bvhWords = none ∧
    bvhBad (bvhWords.set 4 0) = some 4 ∧ (at_ (.camgen 24 4)).grp.camera = none ∧ Tab.find? (at_ (.trace 24 16 0 3)).grp.bvhs 3 = none ∧
    (rays (.trace 24 16 0 3) 0).exec0 ≠ 0 ∧ ((rays (.trace 24 16 0 3) 0).readN 16 8).all Val.isU = true ∧ (rays (.trace 24 16 0 3) 0).fullExec = true ∧
    (traced.bundle 0 0).traces.length = 1 ∧ (List.range 6).all (fun j => decide ((traced.bundle 0 0).vreg (24 + j) = .val (.u 0))) = true ∧
    ((hitLane.meet 0 worldFrame triangle).hit.map fun h => (h.t, h.prim)) = some (0x3F800000, 7) := by
  decide +kernel

/-- R305's example; TRACE begins a traversal; a hit is written in the lane EXEC had, and not in another; children in order (R311, R312). -/
theorem test_traversal : let c := after (.camgen 24 4) (rays (.camgen 24 4) 0)
    (List.range 8).map (fun k => ((c.readV (24 + k)).lane 0).toNat) = [0, 0, 0, 0, 0xBE000000, 0x3F200000, 0x3F800000, 0x7F800000] ∧
    ((after (.camset 10) (rays (.camset 10) 0x4100)).grp.camera.map (·.1)) = some 0x4100 ∧
    (Tab.find? (after (.bvhset 10 0) (rays (.bvhset 10 0) 0x4200)).grp.bvhs 0).map (·.1) = some 0x4200 ∧
    (after (.trace 24 16 0 3) (rays (.trace 24 16 0 3) 0)).bun.traces.map (fun t => (t.d, t.uni, t.lanes.length)) = [(24, true, 1)] ∧
    (after (.traceCompletion 0 0 0) traced).bun.traces = [] ∧
    (List.range 6).map (fun k => (((after (.traceCompletion 0 0 0) traced).readV (24 + k)).lane 0).toNat) = [0x40000000, 0, 0, 9, 0, 1] ∧
    (((after (.traceCompletion 0 0 0) traced).readV 24).lane 1) = 0 ∧
    ((hitLane.meet 1 worldFrame triangle).hit.map fun h => h.prim) = some 9 := by decide +kernel

/-- A node whose child 0 is the box from (-1, -1, 1) to (1, 1, 2), an instance that doubles x and moves it by 1, and a lane with a ray. -/
def boxNode : List Byte :=
  ([0xBF800000, 0xBF800000, 0x3F800000, 0x0101, 0x01000000, 0x0101] : List Word).flatMap fun w => leBytes 4 w.toNat
def twice : List Byte :=
  ([0x40000000, 0, 0, 0x3F800000, 0, 0x3F800000, 0, 0, 0, 0, 0x3F800000, 0, 0x80, 0, 0, 0] : List Word).flatMap fun w => leBytes 4 w.toNat

/-- Witness of Traversal's tests: a triangle hit, through its inside and through an edge it owns or does not, and missed, all values
finite; a box entered and one passed by; an instance entered and one whose ray is lost; a ray's axes (R313 to R315). -/
theorem test_traversal_tests : let p := sheared worldFrame triangle
    let at_ := fun x : Word => { worldFrame with o := [x, 0, 0] }
    let hits := fun f => (triTest f triangle).isSome
    let fin := fun x : Machine.Num => match x with
      | .fin .. => true
      | _ => false
    ((List.range 3).all fun j => Rules.finite F32 (p j).1.toNat && Rules.finite F32 (p j).2.1.toNat) = true ∧
    ([edgeOf false (p 2) (p 1), edgeOf false (p 0) (p 2), edgeOf false (p 1) (p 0)].all fin) = true ∧
    hits worldFrame = true ∧ hits (at_ 0x40000000) = false ∧ (hits (at_ 0x3F000000) != hits (at_ 0xBF000000)) = true ∧
    boxEnter hitLane worldFrame boxNode 0 = some 0x3F800000 ∧ boxEnter hitLane (at_ 0x40000000) boxNode 0 = none ∧
    ((instFrame hitLane.ray 5 twice).map fun f => (f.o, f.d, f.inst)) = some ([0x3F800000, 0, 0], [0, 0, 0x3F800000], 5) ∧
    (instFrame [0, 0, 0, 0, 0, 0, 0x7F800000, 0] 5 twice).isNone = true ∧ shear [0, 0, 0x3F800000] = (0, 1, 2, 0, 0, 0x3F800000) ∧
    shear [0, 0xBF800000, 0] = (0, 2, 1, 0x80000000, 0x80000000, 0xBF800000) := by decide +kernel

/-- Words of a layered target of one pixel at 0x4000: heads at 0x4100, four nodes at 0x4200, lists of two, rule OVER. -/
def layerWords : List Word := [0x00010001, 2, 0x4100, 0, 0x4200, 0, 4, 0, 0, 0, 0, 0, 0, 0, 0, 0]

/-- A state with that target bound in slot 3, n nodes in the pixel's list and the rest free; one lane, a fragment at depth 1.5 in v4 to v7. -/
def layered (i : Instr) (n : Nat) : State :=
  let head : Word := if n = 0 then 0x00FFFFFF else BitVec.ofNat 32 (n * 2 ^ 24)
  let node := fun (k : Nat) => ([if k = 0 then 0x3F800000 else 0x40000000, 0x3C003C00, 0x3C003C00,
    if k + 1 = n ∨ k = 3 then 0x00FFFFFF else BitVec.ofNat 32 (k + 1)] : List Word)
  let s := paged (given i [(4, .u 0x3FC00000), (5, .u 0), (6, .u 0), (7, .u 0), (10, .u 0x4000), (11, .u 0)]) 2 0
    (bytesAt 0x4000 (layerWords.set 7 (if 4 ≤ n then 0x00FFFFFF else BitVec.ofNat 32 n)) ++ bytesAt 0x4100 [head] ++
      bytesAt 0x4200 ((List.range 4).flatMap node))
  let s := oneLane s
  s.setGrp { s.grp with layers := [(3, (0x4000, layerWords))] }

def layerTarget (s : State) : Target := { p := s.party, va := 0x4000, desc := layerWords, dkey := 0x4000 }

/-- Whether a piece of a list operation performs, and what it answers. -/
def laOk {α : Type} : LAns α → Option α
  | .ok x _ => some x
  | _ => none

/-- Witness of ListOperations: a target bound and not; lists of no, one and two entries, the last full; nodes free. -/
theorem test_lists_witness :
    (∀ i ∈ ([.mltset 10 3, .fragins 4 3, .lpop 24 7 3, .lresolve 24 7 3, .lclear 7 3] : List Instr), readyIn (layered i 1) i = true) ∧
    (let s := layered (.fragins 4 3) 1
     let t := layerTarget s
     let lanes := fun k => s.activeLanes.map fun i => (i, (s.readN (if k = 4 then 4 else 7) k).map fun v => v.lane i)
     s.exec0 ≠ 0 ∧ s.bun.lists = [] ∧ Tab.find? s.grp.layers 0 = none ∧ Tab.find? s.grp.layers 3 = some (0x4000, layerWords) ∧
     (∀ k ∈ [1, 2, 3], (s.listPlaces k 0x4000 layerWords (lanes 1)).1.toOption = some 0x4000 ∧ (s.listPlaces k 0x4000 layerWords (lanes 1)).2 = []) ∧
     (s.listPlaces 0 0x4000 layerWords (lanes 4)).1.toOption = some 0x4000 ∧
     (s.tick.reserveNodes t (lanes 4).length 3 []).toOption.map (·.1) = some [1] ∧ Memory.wf s.mem = true ∧ s.targetUp 0x4100 = true ∧ 0x4100 % 4 = 0 ∧
     layerBad layerWords = none ∧ layerBad (layerWords.set 1 1) = some 1 ∧ layerBad (layerWords.set 15 1) = some 15 ∧
     (match s.memAcc s.party 0x4000 64 1 [2] with
      | .ok (.mem y) => decide (layerBad (s.homeWords y.key 16) = none) && !s.poisonedIn y.key 64
      | _ => false) = true ∧
     laOk (s.listInsert t 0x4100 0x3FC00000 0 [1]) = some [] ∧ laOk ((layered .nop 2).listInsert t 0x4100 0x3FC00000 0 [3]) = some [3] ∧
     (laOk (s.listPop t 0x4100)).isSome = true ∧ (laOk ((layered .nop 2).listResolve t 0x4100)).isSome = true ∧
     (layered .nop 0).homeWord 0x4100 = 0x00FFFFFF) := by decide +kernel

/-- FRAGINS lengthens a list in front of a deeper entry, and merges in a full one; LPOP takes the front; LRESOLVE and LCLEAR empty it. -/
theorem test_lists : let head := fun (i : Instr) n => ((after i (layered i n)).homeWord 0x4100).toNat
    head (.fragins 4 3) 0 = 0x01000000 ∧ head (.fragins 4 3) 1 = 0x02000000 ∧ head (.fragins 4 3) 2 = 0x12000000 ∧
    head (.lpop 24 7 3) 2 = 0x01000001 ∧ ((after (.lpop 24 7 3) (layered (.lpop 24 7 3) 2)).readV 24).lane 0 = 0x3F800000 ∧
    head (.lpop 24 7 3) 0 = 0x00FFFFFF ∧ ((after (.lpop 24 7 3) (layered (.lpop 24 7 3) 0)).readV 24).lane 0 = 0x7F800000 ∧
    head (.lresolve 24 7 3) 2 = 0x00FFFFFF ∧ head (.lclear 7 3) 1 = 0x00FFFFFF ∧
    ((after (.mltset 10 0) (layered (.mltset 10 0) 1)).grp.layers.map (·.1)) = [0, 3] := by decide +kernel

/-- A stream that stands before a clause at 0x4100, which memory holds there: a header and a word. -/
def fresh (h w : Word) (f : Stream → Stream) : State :=
  let s := paged (at_ .nop) 0 0 (bytesAt 0x4100 [h, w])
  s.setStr (f { s.str with clause := {}, pc := 0x4100 })

/-- Word iaddi v4, v4, -1 of the manual. -/
def iaddiWord : Word := 0x401027FF
/-- Headers of one word of class ALU, without flags, waiting on f11, and of class MEM raising f0 and f11. -/
def aluHeader : Word := 0xC7F80001
def waitHeader : Word := aluHeader ||| BitVec.ofNat 32 (2 ^ (7 + 11))
def memHeader : Word := BitVec.ofNat 32 (3 * 2 ^ 30 + 0 * 2 ^ 23 + 11 * 2 ^ 19 + 1 * 2 ^ 4 + 1)

def live : Outst := { id := 7, cls := .mem, seta := 11, setb := 0, marks := {}, srcsRead := false }

/-- Witness of ClauseFlow: headers as named; a stream that can take up a clause, one that waits on f11, one without room in its flags. -/
theorem test_clause_witness :
    hClass aluHeader = .alu ∧ hCount aluHeader = 1 ∧ hSeta aluHeader = 15 ∧ hSetb aluHeader = 15 ∧ headerOk false aluHeader = true ∧
    hRgn aluHeader = false ∧ longLatency .alu = false ∧ (hWait waitHeader).testBit 11 = true ∧ headerOk false waitHeader = true ∧
    hClass memHeader = .mem ∧ hSeta memHeader = 11 ∧ hSetb memHeader = 0 ∧ headerOk false memHeader = true ∧ headerOk false 1 = false ∧
    (let s := fresh aluHeader iaddiWord id
     s.canIssue { gid := 0 } = true ∧ s.str.pend = none ∧ s.str.due = [] ∧ s.str.resumeAt = 0 ∧ (at_ .nop).canIssue { gid := 0 } = false ∧
     (fresh aluHeader iaddiWord fun x => { x with flags := [(11, 64)] }).str.flag 11 = 64 ∧
     (fresh aluHeader iaddiWord fun x => { x with outst := [live], flags := [(0, 1), (11, 1)] }).clauseWorks { gid := 0 } 7 = false ∧
     (fresh aluHeader iaddiWord fun x => { x with outst := [live] }).str.out? 7 = some live ∧
     (match s.scan .alu 0x4100 1 1 1 (s.setStr { s.str with clause := { header := aluHeader, words := [0], idx := 0, exec0 := 0xFF, execP := 0xFF } }) [] with
      | .ok ws => decide (ws.map (fun x => x.2.1) = [.iaddi 4 4 0x7FF]) && decide (hazards false (s.standing s.cur) (numbered ws) = none)
      | _ => false) = true) := by decide +kernel

/-- The clause issues whole, waits on its flag, or for room; a header of zeros of class traps; completion lowers both flags (R11 to R15). -/
theorem test_clause : let run := fun (s : State) => after (.clauseIssue 0 0 false) s
    let busy := fresh aluHeader iaddiWord fun x => { x with outst := [live], flags := [(0, 1), (11, 1)] }
    (run (fresh aluHeader iaddiWord id)).str.clause.words = [iaddiWord] ∧
    (run (fresh waitHeader iaddiWord fun x => { x with flags := [(11, 1)] })).str.wait = .flags 11 ∧
    (run (fresh waitHeader iaddiWord id)).str.clause.words = [iaddiWord] ∧
    (run (fresh memHeader 0x88041402 fun x => { x with flags := [(0, 63)] })).str.wait = .room ∧
    (let s := fresh 1 iaddiWord id
     (run { s with dev := { s.dev with ctl := { s.dev.ctl with tvecx := 0x100 } } }).str.trapCause = 0x01) ∧
    (after (.clauseCompletion 0 0 false 7) busy).str.flag 0 = 0 ∧ (after (.clauseCompletion 0 0 false 7) busy).str.flag 11 = 0 ∧
    (after (.sourcesRead 0 0 false 7) busy).str.flag 0 = 0 ∧ (after (.sourcesRead 0 0 false 7) busy).str.flag 11 = 1 := by decide +kernel

/-- A group of two bundle indexes with eight strands filed at 0x40, out of order. -/
def filedGroup : State :=
  let s := noded (at_ .nop) 5 (2 * 2 ^ 16 + 1 * 2 ^ 11 + 96)
  s.setGrp { s.grp with nb := 2, rbins := [(0x40, (List.range 8).map fun k => { orig := 7 - k, regs := [BitVec.ofNat 32 (70 + k), 0, 0, 0], since := 0 })] }

/-- The state at a clock. -/
def clocked (s : State) (c : Nat) : State := { s with clock := c }

/-- A launch with serial 5 of the placed node, with no group of it started. -/
def launching : State :=
  let s := noded (at_ .nop) 16 (2 * 2 ^ 16 + 8)
  { s with graph := s.graph.map fun (g : Machine.Graph) => { g with launches := [(5, { node := 0, total := 1 })] } }

/-- Witness of GroupEvents, and what they do. -/
theorem test_group_events : let bins := filedGroup.grp.rbins
    let t := after (.freshBundleDraw 0) filedGroup
    firstBin (bins.filter fun e => binReady filedGroup.grp e) = bins.head? ∧ (Tab.find? filedGroup.grp.bundles 1).isNone = true ∧
    (t.bundle 0 1).orig = [0, 1, 2, 3, 4, 5, 6, 7] ∧ (t.bundle 0 1).xs.pc = 0x40 ∧ (((t.bundle 0 1).vreg 0) = .val (.a 77 0xFFFFFFFF)) ∧
    (after (.reformageExpiry 0 0x40) (clocked filedGroup 2)).grp.aged = [0x40] ∧ (after (.reformageExpiry 0 0x40) (clocked filedGroup 1)).grp.aged = [] ∧
    (after (.starvationPromotion 0 0) (clocked (at_ .nop) 4095)).bun.promoted = true ∧
    (after (.starvationPromotion 0 0) (clocked (at_ .nop) 4094)).bun.promoted = false ∧
    (let z := clocked (stream .nop fun x => { x with wait := .waita 0x4100 5 }) 1023
     z.str.asleep = true ∧ z.str.waiter = false ∧ (after (.waitaPoll 0 0 false) z).str.wakeTry = true) ∧
    (let a := (at_ .nop).setGrp { (at_ .nop).grp with st := .prologue, isFull := false, acqReq := some 0 }
     (a.oldestReq 0).isSome = true ∧ (a.loadWith 0 0).fits = true ∧ (after (.acquireGrant 0) a).grp.st = .full) ∧
    ((launching.launch? 5).map fun l => (launching.canAdmit l 1, nCohort (launching.nodeRec 0), l.nextUp.isSome)) = some (true, false, true) ∧
    ((after (.groupAdmission 5 1) launching).group 1).core = 1 ∧ ((after (.groupAdmission 5 1) launching).group 1).st = .prologue := by decide +kernel

/-- A bin with a record since clock 0, and a completion in the Hull's queue. -/
def binned : State :=
  let s := noded (at_ .nop) 4 (1 * 2 ^ 16 + 1023)
  { s with graph := s.graph.map fun (g : Machine.Graph) => { g with bins := [(0, [(0, [5])])] }, dev := { s.dev with fifo := [[0, 0, 0, 9]] } }

theorem test_group_events2 : nBinTimer (binned.nodeRec 0) = 1 ∧ binned.bin 0 = [(0, [5])] ∧ 0 < binned.dev.hulls ∧
    (after (.binTimerExpiry 0) (clocked binned 1023)).bin 0 = [] ∧ (after (.binTimerExpiry 0) (clocked binned 1022)).bin 0 = [(0, [5])] ∧
    ((after (.binTimerExpiry 0) (clocked binned 1023)).launch? 1).map (·.records) = some [[5]] ∧
    binned.groups.all (fun p => p.2.st != .exiting) = true ∧ (after .completionAck binned).dev.fifo = [] ∧
    (let s := { binned with graph := binned.graph.map fun (g : Machine.Graph) => { g with lastAdm := [(0, 0, 0)] } }
     ((after .staggerExpiry s).graph.map fun g => g.lastAdm) = some []) := by decide +kernel

/-- A group whose only stream waits at a barrier, with a save requested. -/
def saving : State :=
  let s := noded (stream (.barSync 3) fun x => { x with wait := .barrier 3 }) 5 96
  s.setGrp { s.grp with scrSize := 64, saving := some 0, bars := [(3, { e := 2, cnt := 1 })] }

/-- Two streams that stand still, at the limit of the hang detector. -/
def hanging : State :=
  let s := saving.setGrp { saving.grp with saving := none }
  { s with hangCtr := 256, dev := { s.dev with ctl := { s.dev.ctl with hangLimit := 256, svec := 0x300 } } }

/-- Witness of SavesAndTimers, and what a save and HANG do: a group that can be saved and, once it is, restored. -/
theorem test_saves : saving.canSave 0 = true ∧ ((after (.groupSave 0) saving).group 0).st = .saved ∧ ((after (.groupSave 0) saving).group 0).husk.isSome = true ∧
    (let t := after (.groupSave 0) saving
     t.canRestore 0 1 = true ∧ t.poisonedIn (hullKey ((t.group 0).husk.getD 0)) (huskSize (t.nodeRec 0) (t.group 0)) = false) ∧
    hanging.hangIdle = true ∧ hanging.hangOut = false ∧ hanging.edges.length = 1 ∧ hanging.dev.ctl.hangLimit.toNat ≤ hanging.hangCtr ∧
    (after .hangDetection hanging).str.trapCause = 0x12 ∧ (after .hangDetection hanging).str.pc = 0x300 ∧ (after .hangDetection hanging).hangCtr = 0 := by
  decide +kernel

/-- Deadlines and FAULTSAVE at their clocks. -/
theorem test_timers : let d := (at_ .nop).setGrp { (at_ .nop).grp with deadline := some 5 }
    let f := (stream .nop fun x => { x with wait := .parked }).setGrp { (stream .nop fun x => { x with wait := .parked }).grp with faultAt := some 0 }
    (after .deadlineExpiry (clocked d 4)).groups = [] ∧ (after .deadlineExpiry (clocked d 3)).grp.st = .full ∧
    (after .faultsaveExpiry (clocked f 4095)).grp.saving = some 1 ∧ (after .faultsaveExpiry (clocked f 4094)).grp.saving = none := by decide +kernel

/-- An addition on its way to an exact cell, and the host's window. -/
def adding : State :=
  let s := paged (at_ .nop) 0 0 []
  { s with contribs := [{ sample := false, line := 0x101, keys := (List.range 48).map (0x5000 + ·), x := 0x3F800000, owner := {}, clause := 0 }],
           overlay := [(9, [(0x6000, 7)])], l1 := [(0, [(0x4100, (7, true))])], cl := [(0, [(0x4100, (8, true))])],
           dev := { s.dev with hdmBase := 0x40000000, hdmLen := 0x40000000, ports := [(11, { up := true })] } }

/-- Witness of MemoryEvents, and what they do. -/
theorem test_memory_events : let s := adding
    s.contribs.length = 1 ∧ s.targetUp 0x5000 = true ∧ Memory.wf s.mem = true ∧ s.targetUp 0x4100 = true ∧
    exactLoad ((after (.estContributionApply 0) s).readCell 0x101 ((List.range 48).map (0x5000 + ·))) = 0x3F800000 ∧
    (after (.overlayEviction 9) s).homeByte 0x6000 = 7 ∧ (after (.overlayEviction 9) s).overlay = [] ∧
    (after (.lineEviction false 0 (0x4100 / 64)) s).viewByte 0 0x4100 = 7 ∧ (after (.lineEviction true 0 (0x4100 / 64)) s).homeByte 0x4100 = 8 ∧
    (after (.uncorrectableError 0x5004) s).poisonedAt 0x5000 = true ∧ (after (.uncorrectableError 0x5004) s).poisonedAt 0x5008 = false ∧
    s.inHdm 0x7FFFFFFF 1 = true ∧ s.inHdm 0x7FFFFFFF 2 = false ∧ s.inHdm 0x3FFFFFFF 1 = false ∧
    (after (.hostHdmAccess true 0x7FFFFFFF [5]) s).homeByte 0x7FFFFFFF = 5 ∧ s.peerValid 0x5000 2 = true ∧
    (after (.peerRequest 11 { tag := 1, op := .write 0x5000 [1, 2] }) s).homeByte 0x5001 = 2 ∧
    (let t := after (.peerRequest 11 { tag := 1, op := .write 0x5000 [1, 2] }) s
     (after (.peerRequest 11 { tag := 1, op := .write 0x5000 [3, 4] }) t).homeByte 0x5001 = 2) := by decide +kernel

theorem test_links : let p := fun (s : State) => Tab.get {} s.dev.ports 11
    (p (after (.flitReplay 11) adding)).retries = 1 ∧ (p (after (.linkDown 11) adding)).up = false ∧
    (p (after (.linkUp 11 5) (after (.linkDown 11) adding))) = { up := true, peer := 5 } ∧ adding.dev.mode = 0 := by decide +kernel

/-- A state whose mailbox m has a ring of 16 entries at 0x100000 in the host's memory and is bound to the placed node, of generation 1. -/
def boxed (m : Nat) : State :=
  let s := at_ .nop
  { s with graph := s.graph.map fun (g : Machine.Graph) => { g with gen := 1 },
           dev := { s.dev with mboxes := [(m, { ring := some (0x100000, 4), bound := some 0x10000 })] } }

/-- The seal of a message of len words with SEQ seq. -/
def sealOf (len seq : Nat) : DWord := BitVec.ofNat 64 (len * 2 ^ 16 + seq)

/-- What a message sends to its mailbox: the last entry that waits there. -/
def told (t : State) (m : Nat) : Option (List Word) := (t.mbox m).waiting.getLast?

/-- The last entry after a message of type n to mailbox m of a state; the type stands in word 0, with NREC or zeros below. -/
def sent (s : State) (n m len seq : Nat) (ws : List Word) : Option (List Word) :=
  told (after (messageOf n m (sealOf len seq) ws) s) m

/-- Witness of Messages: an open mailbox in turn, bound to a node that is resident. -/
theorem test_mailbox : (boxed 0).mboxOpen 0 = true ∧ ((boxed 0).mbox 0).isBusy = false ∧ ((boxed 0).mbox 0).held = [] ∧ ((boxed 0).mbox 0).seq = 0xFFFF ∧
    (boxed 63).mboxOpen 63 = true ∧ (boxed 63).mboxOpen 64 = false ∧ (boxed 0).liveNode 0x10000 = some 0 ∧ (boxed 0).liveNode 0x20000 = none ∧
    nRecw ((boxed 0).nodeRec 0) = 1 ∧ nCamera ((boxed 0).nodeRec 0) = false ∧ (boxed 0).binRoom 0 = true := by decide +kernel

/-- Each failure has its own code (R381, R382): SEQ, length, type, mailbox, binding, node, record count. -/
theorem test_message_errors : let s := boxed 0
    sent s 2 0 3 1 [0x02000000, 5, 0x10000] = some [1, 1, 1] ∧ sent s 2 0 0 0 [0x02000000] = some [1, 0, 2] ∧
    sent s 2 0 63 0 [0x02000000] = some [1, 0, 2] ∧ sent s 1 0 3 0 [0x09000000] = some [1, 0, 2] ∧ sent s 1 0 3 0 [0] = some [1, 0, 2] ∧
    sent (boxed 5) 2 5 3 0 [0x02000000, 5, 0x10000] = some [1, 0, 3] ∧
    sent { s with dev := { s.dev with mboxes := [(0, { ring := some (0x100000, 4) })] } } 1 0 2 0 [0x01000001, 9] = some [1, 0, 4] ∧
    sent (after (.deviceReset []) s) 1 0 2 0 [0x01000001, 9] = none ∧
    sent { s with graph := none } 1 0 2 0 [0x01000001, 9] = some [1, 0, 5] ∧ sent s 1 0 2 0 [0x01000000, 9] = some [1, 0, 6] ∧
    sent s 1 0 1 0 [0x01000001, 9] = some [1, 0, 6] ∧ sent s 2 0 3 0 [0x02000000, 0, 0x10000] = some [1, 0, 2] ∧
    sent s 2 0 3 0 [0x02000000, 64, 0x10000] = some [1, 0, 2] ∧ sent s 2 0 3 0 [0x02000000, 63, 0xFFFF] = some [1, 0, 2] ∧
    sent s 2 0 3 0 [0x02000000, 63, 0x11000] = some [1, 0, 2] ∧ sent s 3 0 5 0 [0x03000000, 63, 0x40, 0, 3] = some [1, 0, 2] ∧
    sent s 3 0 5 0 [0x03000000, 63, 0x40, 0, 13] = some [1, 0, 2] ∧ sent s 3 0 5 0 [0x03000000, 63, 0x20, 0, 4] = some [1, 0, 2] ∧
    sent s 7 0 11 0 [0x07000000, 1, 2, 3, 4, 5, 6, 7, 8, 0x20, 0] = some [1, 0, 2] ∧
    sent { s with dev := { s.dev with mode := 1 } } 2 0 3 0 [0x02000000, 5, 0x10000] = some [1, 0, 3] ∧
    (after (.bind 64 (sealOf 3 0) [0x02000000]) s).dev.mboxes = s.dev.mboxes := by decide +kernel

/-- BIND, REPLYCFG, PREEMPT, WITHDRAW and RECORD do what R382 and R351 say; a RECORD waits where the bins have no room. -/
theorem test_messages : let s := boxed 0
    let run := fun (n len : Nat) (ws : List Word) => after (messageOf n 0 (sealOf len 0) ws) s
    (told (run 2 3 [0x02000000, 63, 0x10FFF]) 0 = some [1, 0, 0] ∧ ((run 2 3 [0x02000000, 63, 0x10FFF]).mbox 63).bound = some 0x10FFF) ∧
    ((run 3 5 [0x03000000, 63, 0x40, 1, 12]).mbox 63).ring = some (0x100000040, 12) ∧ (run 5 2 [0x05000000, 0x1FF]).preempt.classes = 0xFF ∧
    (after (.withdraw 0 (sealOf 2 1) [0x06000000, 1]) (run 5 2 [0x05000000, 1])).preempt.classes = 0 ∧
    (run 5 2 [0x05000000, 1]).grp.deadline = some 0x100001 ∧ (run 5 2 [0x05000000, 2]).grp.deadline = none ∧
    ((after (.withdraw 0 (sealOf 2 1) [0x06000000, 1]) (run 5 2 [0x05000000, 1])).grp.deadline = none) ∧
    ((run 1 2 [0x01000001, 9]).launch? 1).map (·.records) = some [[9]] ∧ (run 1 2 [0x01000001, 9]).bin 0 = [] ∧
    (let full := { s with graph := s.graph.map fun (g : Machine.Graph) => { g with bins := [(0, (List.range 512).map fun _ => (0, [5]))] } }
     let t := after (.record 0 (sealOf 2 0) [0x01000001, 9]) full
     full.binRoom 0 = false ∧ (t.mbox 0).isBusy = true ∧ (t.bin 0).length = 512 ∧
     (let u := { t with graph := s.graph }
      let v := match (t.mbox 0).held with
        | [(1, h, ws)] => after (.record 0 h ws) u
        | _ => u
      (v.mbox 0).held = [] ∧ (v.launch? 1).map (·.records) = some [[9]])) := by decide +kernel

/-- ATTEST answers with the report's length, RESTART resets the device, its counter cleared where CLEAR asks (R407, R408). -/
theorem test_attest_restart : let s := boxed 0
    let t := after (.attest 0 (sealOf 11 0) [0x07000000, 1, 2, 3, 4, 5, 6, 7, 8, 0x40, 0]) s
    let n := { s with dev := { s.dev with failCount := 2, mboxes := [] } }
    (t.mbox 0).waiting = [[1, 0, 0, 460]] ∧
    (after (.restart 0 (sealOf 2 0) [0x08000000, 1]) n).dev.failCount = 0 ∧ (after (.restart 0 (sealOf 2 0) [0x08000000, 0]) n).dev.failCount = 2 ∧
    (after (.restart 0 (sealOf 2 0) [0x08000000, 0]) n).dev.mode = 2 ∧ (after (.restart 0 (sealOf 2 0) [0x08000000, 0]) n).graph = none := by
  decide +kernel

/-- A state with a graph's image of one node at physical address 0x8000, a LOAD of which names its code to stand from virtual 0. -/
def imaged : State :=
  let s := boxed 0
  let rcd : List Word := [0, 0, BitVec.ofNat 32 (64 * 2 ^ 18 + 2 ^ 7 + 1), 0, 0, 8 * 2 ^ 7 + 96, 0x2000, 0x2000, 512, 0, 0, 0, 0, 0, 0, 0, 8]
  let s := paged s 0 0 (bytesAt 0x8000 [0x10001, 64, 8, 64, 0, 256] ++ bytesAt 0x8040 [aluHeader, iaddiWord] ++ bytesAt 0x8100 rcd)
  { s with mem := Bytes.write s.mem 0x3001 0x68 }

def loadWords : List Word := [0x04000000, 0x8000, 0, 512, 0x1000000, 0, 0x1000000, 0, 0, 0, 0, 0, 0, 0, 0, 0]

/-- A LOAD whose checks pass waits for its groups; one that asks for a spill area of 15 MiB is refused, with its word; so is one without tables. -/
theorem test_load : let run := fun (s : State) (ws : List Word) => after (.load 0 (sealOf 16 0) ws) s
    let t := run imaged loadWords
    imaged.loadCheck loadWords = none ∧ t.loading.isSome = true ∧ t.dev.swap = true ∧ t.grp.drains = true ∧ t.graph = imaged.graph ∧
    (told (run imaged (loadWords.set 6 0xFF0000)) 0) = some [1, 0, 7, 2, 0xFFFFFFFF, 6, 0xFF0000] ∧
    (told (run (boxed 0) loadWords) 0) = some [1, 0, 7, 1, 0xFFFFFFFF, 0, 0] ∧
    (told (run { imaged with dev := { imaged.dev with ctl := {} } } loadWords) 0) = some [1, 0, 7, 10, 0xFFFFFFFF, 0, 0] := by decide +kernel

/-- imaged with the load under way, and every group of the old graph gone. -/
def swapping (ws : List Word) : State :=
  { imaged with groups := [], loads := 1, loading := some { mbox := 0, seq := 0, words := ws }, preempt := { swap := true },
                dev := { imaged.dev with swap := true } }

/-- Witness of LoadsAndReset, loads: a load with no group left installs the image, the code at its window; a frozen graph comes back under RESUME. -/
theorem test_install : let t := after .loadInstall (swapping loadWords)
    let frozen : Frozen := { pa := 0x9000, img := [], graph := { gen := 7, nodes := [] }, groups := [], nstats := [], vecs := (8, 12, 16) }
    let r := after .loadInstall { swapping ((loadWords.set 1 0x9000).set 10 2) with frozen := [frozen] }
    (imaged.groups.map fun p => p.2.st) = [.full] ∧ (swapping loadWords).groups = [] ∧
    (t.graph.map fun g => (g.gen, g.nodes.length, g.codeSize, g.errBox)) = some (2, 1, 8, 0) ∧ t.loading = none ∧ t.dev.swap = false ∧
    told t 0 = some [1, 0, 0, 2] ∧ t.homeWord 0 = aluHeader ∧ t.homeWord 4 = iaddiWord ∧
    (r.graph.map fun g => (g.gen, g.spill)) = some (7, 0x1000000) ∧ r.dev.ctl.tvecx = 8 ∧ r.dev.ctl.svec = 16 ∧ told r 0 = some [1, 0, 0, 7] := by
  decide +kernel

/-- A device with corrected errors of stack 0 recorded. -/
def erring (es : List (Nat × Nat × Nat)) : State := { boxed 0 with dev := { (boxed 0).dev with cetab := [(0, es)] } }

/-- The device after one more error of bank 5; seven errors of it, each in a row and a column of its own. -/
def fixed (es : List (Nat × Nat × Nat)) (row col : Nat) : Device := (after (.correctedError 0 5 row col) (erring es)).dev
def seven : List (Nat × Nat × Nat) := (List.range 7).map fun i => (5, i, 10 + i)

/-- Witness of LoadsAndReset, repairs: a core is lost at the third firing; errors of one cell, row, column and bank are told apart. -/
theorem test_repairs : let s := boxed 0
    (after (.timingDetectorFire 0 2) s).dev.coresOut = [] ∧ (after (.timingDetectorFire 511 3) s).dev.coresOut = [511] ∧
    (after (.timingDetectorFire 512 3) s).dev.coresOut = [] ∧ (after (.timingDetectorFire 0 3) s).grp.saving = some 1 ∧
    (after (.correctedError 12 5 3 4) (erring [(5, 3, 4)])).dev.cetab = [(0, [(5, 3, 4)])] ∧
    (fixed [(6, 3, 4)] 3 4).spares = [] ∧ (fixed [(5, 3, 4)] 3 4).cetab = [(0, [(5, 3, 4), (5, 3, 4)])] ∧
    (fixed seven 7 17).banksUsed = [(0, [(5, 64)])] := by decide +kernel

theorem test_migration : let t := after (.bankMigrationChunk 0) (after (.correctedError 0 5 7 17) (erring seven))
    let full := { erring seven with dev := { (erring seven).dev with banksUsed := [(0, [(1, 64), (2, 65)])] } }
    t.dev.bankMig = [(0, [(5, 64, 1)])] ∧ (Tab.get {} t.dev.hash 0).repair = 0x80004005 ∧ (Tab.get {} t.dev.hash 0).done = 1 ∧
    (after (.correctedError 0 5 7 17) full).dev.banksUsed = [(0, [(1, 64), (2, 65)])] := by decide +kernel

/-- boxed, without a group. -/
def idle : State := { boxed 0 with groups := [] }

/-- A start sequence that passes. -/
def started : StartRun := { romOk := true, fusesOk := true, stack := none, primaryOk := true, standbyOk := true }

/-- A copy of firmware whose body is 64 zero bytes, signed with a nonce and a private key of 1; the fuses that let version 3 of it run. -/
def firm (svn hash sig : Nat) : List Byte :=
  leBytes 4 0x48554C4C ++ leBytes 4 svn ++ leBytes 4 64 ++ leBytes 4 0 ++ beBytes 64 hash ++ beBytes 66 ecG.1 ++ beBytes 66 sig ++
    List.replicate 108 0
def zerosHash : Nat :=
  0x7be9fda48f4179e611c698a73cff09faf72869431efee6eaad14de0cb44bbf66503f752b7a8eb17083355f3ce6eb7d2806f236b25af96a24e22b887405c20081
def sig3 : Nat :=
  0xc699b8bd38971bc996a35bbaec2880a5a61dfd7fe32058e40499a6b525c8fe582411549a17216da47f5a73973974bcc3e6d6f03826dd115376520d2d415c33586b
def keyHash3 : Nat :=
  0x127eaee055a0b8954411a6e0e65d800266a878725bf8e1dc4b00ab88d4ba3ac8a460c873f545ad51e2628bdc065286890eb0ec78070cb810f9d675bac0149241
def fused : Config.Fuses := { serial := [1, 2], idKey := 2, minSvn := 3, firmKey := ecG, keyHash := beBytes 64 keyHash3 }

def good : List Byte := firm 3 zerosHash sig3

/-- The version the fuses name passes every check of R406 (the hash and the signature were made by a program of its own). -/
theorem test_firmware : fwCode fused good = 0 := by decide +kernel

theorem test_bad_firmware : fwCode fused [] = 1 ∧ fwCode fused (firm 3 (zerosHash + 1) sig3) = 2 := by decide +kernel

/-- idle, with those fuses and firmware in both copies, or only in one or none. -/
def stored (a b : List Byte) : State := { idle with dev := { idle.dev with fuses := fused, store := (a, b) } }

/-- What a start sequence leaves: MODE, controllers, stage, code, failures, and the copy that runs. -/
def bootOf (t : State) : List Nat := [t.dev.mode, t.dev.hulls, t.dev.bootStage, t.dev.bootCode, t.dev.failCount, t.dev.fw]
def boot (s : State) (r : StartRun) : List Nat := bootOf (after (.deviceReset [r]) s)

theorem bootOf_runs (u : State) (hz : bootOf u = [2, 0, 0, 0, 0, 0]) :
    (u.dev.fwCode 0 = 1 → u.dev.fwCode 1 = 1 → [{ started with romOk := false }, { started with fusesOk := false }, started].map
      (fun r => bootOf (u.startRuns [r])) = [[2, 0, 1, 1, 1, 0], [2, 0, 2, 1, 1, 0], [2, 0, 3, 1, 1, 0]]) ∧
    (u.dev.fwCode 0 = 0 → [started, { started with stack := some 11 }, { started with primaryOk := false }, { started with standbyOk := false }].map
      (fun r => bootOf (u.startRuns [r])) = [[0, 2, 0, 0, 0, 0], [2, 0, 4, 27, 1, 0], [2, 0, 5, 1, 1, 0], [2, 0, 5, 2, 1, 0]]) ∧
    (u.dev.fwCode 0 = 1 → u.dev.fwCode 1 = 0 → bootOf (u.startRuns [started]) = [0, 2, 0, 0, 0, 1]) := by
  simp only [bootOf, List.cons.injEq, and_true] at hz
  obtain ⟨h1, h2, h3, h4, h5, h6⟩ := hz
  refine ⟨fun a b => ?_, fun a => ?_, fun a b => ?_⟩ <;>
    simp [bootOf, State.startRuns, Device.startFailure, started, State.mapDev, *]

/-- Witness of LoadsAndReset, the start sequence: copy A runs, else copy B; it ends where its stages say. -/
theorem test_boot : ([{ started with romOk := false }, { started with fusesOk := false }, started].map (boot (stored [] [])) =
      [[2, 0, 1, 1, 1, 0], [2, 0, 2, 1, 1, 0], [2, 0, 3, 1, 1, 0]]) ∧
    ([started, { started with stack := some 11 }, { started with primaryOk := false }, { started with standbyOk := false }].map (boot (stored good [])) =
      [[0, 2, 0, 0, 0, 0], [2, 0, 4, 27, 1, 0], [2, 0, 5, 1, 1, 0], [2, 0, 5, 2, 1, 0]]) ∧ boot (stored [] good) started = [0, 2, 0, 0, 0, 1] :=
  have z : ∀ a b, bootOf (stored a b).tick.resetDevice = [2, 0, 0, 0, 0, 0] := fun _ _ => rfl
  ⟨(bootOf_runs (stored [] []).tick.resetDevice (z _ _)).1 test_bad_firmware.1 test_bad_firmware.1,
    (bootOf_runs (stored good []).tick.resetDevice (z _ _)).2.1 test_firmware,
    (bootOf_runs (stored [] good).tick.resetDevice (z _ _)).2.2 test_bad_firmware.1 test_firmware⟩

/-- Witness of LoadsAndReset, controllers: the standby takes over once; a lone one that fails stops what the window takes. -/
theorem test_hulls : let s := idle
    let one := { s with dev := { s.dev with hulls := 1 } }
    let v := after .hullFailure one
    s.dev.hulls = 2 ∧ (after .hullTakeover one).dev.hulls = 1 ∧ v.dev.hulls = 0 ∧ v.graph.isSome = true ∧ one.dev.mode ≠ 2 ∧
    ((after (.linkUp 3 5) v).port 3).up = false ∧ ((after (.linkUp 3 5) one).port 3).up = true ∧ (after .hullFailure s).dev.hulls = 2 ∧
    (after (.deviceReset []) s).dev.mode = 2 ∧
    (let t := after (.deviceReset [started]) { s with dev := { s.dev with failCount := 3 } }
     t.dev.mode = 1 ∧ t.dev.hulls = 1 ∧ t.dev.failCount = 3) := by decide +kernel

/-- A stored substitution shows from stage 4 on, in each region of its stack, and not before (R405, R418). -/
theorem test_stored_repairs : let s := { stored [] [] with dev := { (stored [] []).dev with banksUsed := [(2, [(9, 64), (5, 65)])] } }
    (after (.deviceReset [started]) s).dev.hash = [] ∧ (Tab.get {} (repairedHash s.dev.banksUsed) (48 * 2 + 47)).repair = 0x40004105 := by decide +kernel

/-- A device without a graph, a replay entry waiting in mailbox 5, with every counter the window clears at 3. -/
def windowed : State :=
  let s := State.reset
  { s with dev := { s.dev with
      mboxes := [(5, { ring := some (0x100000, 4), put := 31, get := 30, waiting := [[1, 9, 0, 7], [3, 0, 5]], busy := true, rdrop := 3 })],
      nstats := [(4095, { stale := 3, orderr := true, ckill := 3, restore := 3 })],
      ports := [(11, { dropwr := 3, retries := 3 })] } }

/-- Witness of ControlWindow: the first entry that waits is written at its place with its phase, a full ring keeps it (R383). -/
theorem test_reply_entry : let t := after (.replyEntryWrite 5) windowed
    let a := memKey 1 (0x100000 + 64 * 15)
    let full := { windowed with dev := { windowed.dev with mboxes := [(5, { windowed.mbox 5 with get := 15 })] } }
    (windowed.mbox 5).full = false ∧ (full.mbox 5).full = true ∧ t.homeWord a = 0x00010009 ∧ t.homeWord (a + 8) = 7 ∧
    (t.mbox 5).put = 32 ∧ (t.mbox 5).busy = false ∧ (after (.replyEntryWrite 5) full).mem = [] ∧
    (after (.replyEntryWrite 5) t).homeWord (memKey 1 0x100000) = 0x80030000 := by decide +kernel

/-- Each clear clears its own counter; those of numbers the part does not have clear nothing (R381, R385, R395). -/
theorem test_clears : let s := windowed
    ((after (.replygetWrite 5 9) s).mbox 5).get = 9 ∧ ((after (.rdropClear 5) s).mbox 5).rdrop = 0 ∧
    ((after (.stalecntClear 4095) s).nstat 4095) = { orderr := true, ckill := 3, restore := 3 } ∧
    ((after (.orderrClear 4095) s).nstat 4095) = { stale := 3, ckill := 3, restore := 3 } ∧
    ((after (.lossesClear 4095) s).nstat 4095) = { stale := 3, orderr := true } ∧
    (after (.dropwrClear 11) s).port 11 = { retries := 3 } ∧ (after (.retriesClear 11) s).port 11 = { dropwr := 3 } ∧
    (after (.dropwrClear 12) s).dev.ports = s.dev.ports ∧ (after (.rdropClear 64) s).dev.mboxes = s.dev.mboxes ∧
    (after (.stalecntClear 4096) s).dev.nstats = s.dev.nstats := by decide +kernel

/-- Region descriptors and the host's window: taken while no graph is resident, within their limits (R379, R394). -/
theorem test_descriptors : let s := windowed
    let h := fun (off n : Nat) (v : DWord) => (after (.hashDescriptorWrite off n v) s).hashOf (off / 64)
    let d := fun (b l : DWord) => (after (.hdmDecoderWrite b l) s).dev.hdmLen
    (h (575 * 64 + 28) 4 5).slices = [0xFFFFFFFF, 0xFFFFFFFF, 0xFFFFFFFF, 0xFFFFFFFF, 0xFFFFFFFF, 0xFFFFFFFF, 0xFFFFFFFF, 5] ∧
    (h 0 8 0x700000006).slices.take 3 = [6, 7, 0xFFFFFFFF] ∧ (h 32 4 0).valid = false ∧ (h 64 2 5) = {} ∧ (h 36 8 5) = {} ∧
    (after (.hashDescriptorWrite (576 * 64) 4 5) s).dev.hash = [] ∧ (after (.hashDescriptorWrite 0 4 5) (at_ .nop)).dev.hash = [] ∧
    d 0 0x40000000 = 0x40000000 ∧ d 0x40000000 (575 * 0x40000000) = 575 * 0x40000000 ∧ d 0x40000000 (576 * 0x40000000) = 0 ∧ d 1 0x40000000 = 0 ∧
    (after (.hdmDecoderWrite 0 0x40000000) (at_ .nop)).dev.hdmLen = 0 := by decide +kernel

/-- Fields of the control block take the values they may have, and no others (R336); a seal is a message (R381). -/
theorem test_control_block : let s := windowed
    let w := fun (off n : Nat) (v : DWord) => (after (.registerWrite off n v) s).readWindow off n
    w 0x100 4 0x104 = 0x104 ∧ w 0x104 4 0x105 = 0xFFFFFFFF ∧ w 0x10C 4 0x1000 = 0x1000 ∧ w 0x10C 4 0xFFF = 0x1000000 ∧ w 0x10C 4 0x80000000 = 0x80000000 ∧
    w 0x10C 4 0x80000001 = 0x1000000 ∧ w 0x110 8 0xFFFFFFFFFFFFFFFF = 0x000FFFFFFFFFF000 ∧ w 0x118 8 0x40 = 0x40 ∧ w 0x118 8 0x41 = 0 ∧ w 0x128 4 57 = 57 ∧
    w 0x128 4 58 ≠ 58 ∧ w 0x130 4 256 = 256 ∧ w 0x130 4 255 = 4096 ∧ w 0x138 8 0x8000000000000004 = 0x8000000000000004 ∧ w 0x140 8 2 = 0 ∧
    w 0x100 2 0 = 0xFFFFFFFF ∧ w 0x1F00 4 7 = 7 ∧ w 0x1500 4 7 = 0 := by decide +kernel

theorem test_seal : let s := boxed 0
    let x := { s with dev := { s.dev with mboxes := [(0, { s.mbox 0 with words := 0x05000000 :: 2 :: List.replicate 60 0 })] } }
    (after (.registerWrite 0x1000 4 0x05000000) s).readWindow 0x1000 4 = 0x05000000 ∧
    (after (.registerWrite 0x10F8 8 0x20000) x).preempt.classes = 2 ∧ (after (.registerWrite 0x10F8 8 0x20000) x).readWindow 0x5000 4 = 0 ∧
    (after (.registerWrite 0x12C 4 2) s).dev.ctl.tlbBusy = true ∧ (after (.registerWrite 0x12C 4 1) s).dev.ctl.tlbPend.isSome = true := by decide +kernel

/-- A stream of cluster 0 whose fetch of 0x4100 waits for a page, the page being the one FAIL names. -/
def fetching (acc : Bool) : State :=
  let s := paged (at_ .nop) 0 0 (bytesAt 0x4100 [aluHeader, iaddiWord])
  let w : Who := { gid := 0, bid := 0, acc := acc }
  let s := (s.setStr { s.str with clause := {}, pc := 0x4100, wait := .parked })
  { s with parked := [{ who := .fetch w, cluster := 0, core := 0, path := 0, misses := [{ vpn := 4, acc := 0, word := 15, va := 0x4100 }] }],
           dev := { s.dev with ctl := { s.dev.ctl with tvecx := 0x100 }, fwins := [(0, { put := 2 ^ 32 + 8, failVa := 0x4000, keys := [(4, some 0), (5, none)] })] } }

/-- Witness of PageFaults, and what they do: FBGET, invalidations, REPLAYALL that takes the fetch up again, FAIL that traps it. -/
theorem test_page_faults : let s := fetching false
    let k := fun (c : CtlBlock) => { s with dev := { s.dev with ctl := c } }
    let win := fun (t : State) => Tab.get {} t.dev.fwins 0
    (win (after (.fbgetWrite 0 0) s)).get = 2 ^ 32 ∧ (win (after (.fbgetWrite 0 8) s)).get = 2 ^ 32 + 8 ∧
    (win (after (.fbgetWrite 0 9) s)).get = 2 ^ 32 ∧ (win (after (.fbgetWrite 0 0xFFFFFFFF) s)).get = 2 ^ 32 ∧ (win s).put = 2 ^ 32 + 8 ∧
    (after .tlbInvalidateRange (k { tlbInvVa := 0x3FFFF000, tlbInvSz := 12 })).dev.ctl.tlbPend = some (0x3FFFF000, 12) ∧
    (after .tlbInvalidationComplete (k { tlbBusy := true, tlbPend := some (0x3FFFF000, 12) })).tlb = [] ∧
    (after .tlbInvalidationComplete (k { tlbBusy := true, tlbPend := some (0x40000000, 12) })).tlb.length = 1 ∧
    s.parked.map (fun p => p.who == .fetch s.cur) = [true] ∧ s.str.wait = .parked ∧ s.stopped s.cur = false ∧
    s.str.handler = false ∧ s.str.clause = {} ∧ s.str.outst = [] ∧ s.str.held = none := by decide +kernel

theorem test_replay_fail : let s := fetching false
    let r := after (.replayall 0) s
    let f := after (.fail 0) s
    r.str.clause.words = [iaddiWord] ∧ r.parked = [] ∧ (Tab.get {} r.dev.fwins 0).keys = [] ∧
    f.str.trapCause = 0x05 ∧ f.str.handler = true ∧ f.str.mask = true ∧ f.str.trapPc = 0x4100 ∧ f.cur = s.cur ∧ f.str.pc = 0x100 ∧ f.str.trapAddr = 0x4100 ∧ f.str.trapInfo = 0x4000000F ∧ f.parked = [] ∧
    (Tab.get {} f.dev.fwins 0).keys = [(5, none)] ∧ (after (.replayall 1) s).parked = s.parked := by decide +kernel

/-- Witness of StepRunsTheWord: a placed word is the next, and a step runs it; without one, the event at the agenda's head happens. -/
theorem test_step : let w : Word := iaddiWord
    let s := (State.reset.withFetchWord 32 w.toNat)
    let e := { State.reset with agenda := [.flitReplay 0, .hullFailure] }
    s.wordNow = some w ∧ decodeTableWord 32 w.toNat = some (.iaddi 4 4 0x7FF) ∧
    (match step s with | .next t => (t.readV 4).lane 7 | _ => 0) = 0xFFFFFFFF ∧
    e.wordNow = none ∧ (match step e with | .next t => t.agenda | _ => []) = [.hullFailure] ∧ classOf (.flitReplay 0) = none := by decide +kernel

/-- Witness of MemoryForm, MemoryKept and HangCounterKept. -/
theorem test_memory : let m : Bytes := Bytes.writeList [] 0x4100 [1, 0, 2]
    m = [(0x4100, 1), (0x4102, 2)] ∧ Memory.wf m = true ∧ Bytes.writeList m 0x4100 [0, 0, 0] = [] ∧ Memory.wf [(2, 1), (1, 1)] = false ∧
    Memory.wf [(1, 0)] = false ∧ (match step (at_ .nop) with | .next t => Memory.wf t.mem && decide (t.hangCtr = 0) | _ => false) = true := by
  decide +kernel

/-- Witness of WordFrame's pops: the oldest entry that no pop holds is taken, and stays, held by its stream (R24, R254). -/
theorem test_pops : let i : Instr := .mov 0 4 0x71
    let s := at_ i
    let s := s.setBun (s.bun.setQueue 1 { ents := [{ val := .u 1, pop := some true }, { val := .u 2 }, { val := .u 3 }] })
    readyIn s i = true ∧ popsOf i = [(1, 1)] ∧ (after i s).readV 4 = .u 2 ∧
    ((after i s).bun.queue 1).ents.map (fun e => (e.val, e.pop)) = [(.u 1, some true), (.u 2, some false), (.u 3, none)] := by decide +kernel

/-- Witness of SelectResults' tags: a mask whose bits are all equal, and one whose bits are not (R57, R60). -/
theorem test_select_tags : let s := fun i k => masked i [(5, Val.u 7), (6, .u 8)] [(3, k)]
    let tag := fun i k => ((after i (s i k)).readV 4).tag
    tag (.sel 0 3 4 5 6) 0xFF = 0 ∧ tag (.sel 0 3 4 5 6) 0x0F = 2 ∧ tag (.movk 0 4 3) 0 = 0 ∧ tag (.movk 0 4 3) 1 = 2 ∧
    (s .nop 0).lanes = 8 ∧ (s .nop 0).cur.acc = false := by decide +kernel

/-- By the table of R90: a NaN gives 0, a saturated bound, the canonical NaN, NaR; −Inf in e4m3 gives its NaN with the sign; a small value in
a tapered format does not become 0. R84: a NaN gives way, two give the canonical one. -/
theorem test_special_values : let f := fun (i : Instr) (a : Word) => out i [(5, .u a)] 4
    f (.cvt 4 5 0x0 0xA 0) 0x7FC00000 = 0 ∧ f (.cvt 4 5 0x0 0xA 0) 0xFF800000 = 0xFFFFFF80 ∧ f (.cvt 4 5 0x1 0xA 0) 0x7F800000 = 0xFF ∧
    f (.cvt 4 5 0x8 0xA 0) 0x7F800001 = 0x7E00 ∧ f (.cvt 4 5 0xC 0xA 0) 0xFF800000 = 0xFF ∧ f (.cvt 4 5 0xE 0xA 0) 0x7F800000 = 0x80 ∧
    f (.cvt 4 5 0xE 0xA 0) 0x00000001 = 1 ∧ f (.cvt 4 5 0xE 0xA 0) 0x80000000 = 0 ∧ (F32.decode 0x7F800001).isNan = true ∧
    F32.minmax true 0x7F800001 0x3F800000 = 0x3F800000 ∧ F32.minmax false 0x7F800001 0xFFC00000 = 0x7FC00000 := by decide +kernel

/-- Witness of RoundNearest and RoundDirected, the tapered formats and e4m3: 1 and 3.25 within, one past the largest value, 512 past 448. -/
theorem test_round_tapered : (∀ m ∈ [7, 5], let top : ℚ := 2 ^ (2 * (m - 1))
      1 / top ≤ |valueOf (.fin true 13 (-2))| ∧ |valueOf (.fin true 13 (-2))| ≤ top ∧ top ≤ |valueOf (.fin false 1 13)|) ∧
    448 < |valueOf (.fin true 1 9)| ∧ E4M3.encode .rup (.fin true 1 9) = 0xFE ∧ taperEncode 7 .rne (.fin false 13 (-2)) = 0x5A ∧
    taperEncode 7 .rne (.fin true 13 (-2)) = 0xDA ∧ finite E4M3 E4M3.maxPat = true ∧ valueOf (E4M3.decode E4M3.maxPat) = 448 ∧
    valueOf (F16.decode F16.maxPat) < |valueOf (.fin false 1 16)| := by decide +kernel

/-- Witness of TransfersOfControl's counts: 6 of 8 lanes in EXEC at a conditional branch, of the A-stream its one lane (R101). -/
theorem test_branch_counts : let i : Instr := .brany 3 1
    let s := at_ i
    let s := s.setStr { s.str with exec := 0x3F, clause := { s.str.clause with exec0 := 0x3F, execP := 0x3F } }
    s.bun.live = 0xFF ∧ s.tick.countBranch.grp.branches = 1 ∧ s.tick.countBranch.grp.occSum * 8 = 6 * 64 * occUnit ∧
    (after i s).grp.branches = 1 ∧ (after (.bra 1) (at_ (.bra 1))).grp.branches = 0 := by decide +kernel

/-- Witness of SpecialRegisters: original strand, hierarchy, shape readout; XACCWIN and XACCBACK aligned. -/
theorem test_hierarchy : let s := given (.gets 4 5) [(5, .a 0 1), (6, .g [1, 2, 3, 4, 5, 6, 7, 8])]
    let s := s.setBun { s.bun with orig := [9, 10] }
    let g := fun n => (List.range 1).map fun _ => (sregWord s n 0).map BitVec.toNat
    g 5 = [some 9] ∧ g 0x60 = [some (1 * 4 ^ 5 + 2 * 4 ^ 6)] ∧ g 0x67 = [some (s.budget s.grp)] ∧ g 0x69 = [some 0xFF] ∧ g 0x6B = [some 0] ∧
    g 0x17 = [some 1] ∧ g 0x0F = [some 0] ∧ lanesOf (after (.gets 4 5) s) 4 = List.replicate 8 9 ∧
    s.dev.ctl.xaccWin.toNat % 4 = 0 ∧ s.dev.ctl.xaccBack.toNat % 4 = 0 := by decide +kernel

/-- Witness of TrapEntry: a clause without a number, beside a command of MXE that is outstanding (R337, R341). -/
theorem test_trap_beside : let o : Outst := { id := 9, cls := .mxe, seta := 0, setb := 15, marks := {}, srcsRead := true }
    let s := (vectored (.trap 7)).setStr { (vectored (.trap 7)).str with outst := [o] }
    let x := (after (.trap 7) s).str
    s.str.clause.id = 0 ∧ x.trapCause = 0x0C ∧ x.pc = 0x100 ∧ x.outst.map (·.id) = [9] ∧
    (∀ p ∈ s.str.outst, p.id ≠ s.str.clause.id ∨ s.str.clause.id = 0 → p.cls = .mxe ∨ p.cls = .ste) := by decide +kernel

/-- Witness of TrapReturn: another clause issued in handler mode is waited for, one issued before the trap is not; after PREEMPT the stream
goes on at TRAPPC with the EXEC of then, at TRAPPC after a fetch that faulted (R335, R340). -/
theorem test_return_waits : let o := fun h : Bool => ({ id := 9, cls := .mxe, seta := 0, setb := 15, marks := {}, srcsRead := true, handler := h } : Outst)
    let s := fun (c : Nat) h => (handling .rte c).setStr { (handling .rte c).str with outst := [o h] }
    let f := (handling .rte 5).setStr { (handling .rte 5).str with trapCount := none, trapInfo := 0x4000000F }
    (after .rte (s 5 true)).str.wait = .exit ∧ (after .rte (s 5 false)).str.pc = 0x1F00 ∧ (after .rte (s 0x11 false)).str.pc = 0x2000 ∧
    (after .rte (s 0x11 false)).str.exec = 0x0F ∧ (after .rte f).str.pc = 0x2000 ∧ (s 5 true).bun.tokenBusy = false := by decide +kernel

/-- Witness of LoadResults' older bytes: a word of the scratchpad an engine has written, which a read buffer may hold from before, and one
it has not (R195, R216). -/
theorem test_old_bytes : let i : Instr := .ldp32 12 10 0
    let s := reach i 0 0x100 []
    let s := s.setGrp { s.grp with scrOld := [(0x100, 7)] }
    let u : State := s.scrWriteEng 0 0x200 [5]
    (Tab.find? s.grp.scrOld 0x100).isSome = true ∧ (Tab.find? s.grp.scrOld 0x104).isSome = false ∧
    u.grp.scrByte 0x200 = 5 ∧ (Tab.find? u.grp.scrOld 0x200) = some 0 := by decide +kernel

/-- Witness of AtomicResults' lanes at one place: eight lanes add 1 to one word in turn, each getting what the one before left (R181). -/
theorem test_atomic_lanes : let i : Instr := .atomAddI32 0 2 12 10 4
    let s := paged (given i [(4, .u 1), (10, .u 0x4100), (11, .u 0)]) 0 0 (bytesAt 0x4100 [40])
    ((gather (s.activeLanes.map fun j => (j, s.atomAns (pairLane (s.readN 10 2) j) 4 2))).toOption.map
      fun ls => (ls.length, ls.all fun p => decide (p.2 = (ls.headD (0, p.2)).2))) = some (8, true) ∧ s.bun.fwd = [] ∧
    lanesOf (after i s) 12 = [40, 41, 42, 43, 44, 45, 46, 47] ∧ (after i s).homeWord 0x4100 = 48 := by decide +kernel

/-- Witness of Fences' paths: UO stores of two streams and a path's clean and dirty copies; FENCE.LOCAL performs the own stream's, in their
order; XFENCE writes a path's home and drops its clean copy (R201, R209, R210). -/
theorem test_paths : let u := fun (g : Nat) (b : Byte) => ({ who := { gid := g }, clause := 0, core := 0, key := 0x4200, bytes := [b] } : UoStore)
    let s := fun i => { reach i 0 0x4100 [] with uoq := [u 0 3, u 9 5, u 0 4], pbuf := [(2, [(0x4100, (7, true)), (0x4104, (8, false))])] }
    let t := fun i => after i (s i)
    (t .fenceLocal).uoq.map (·.who.gid) = [9] ∧ (t .fenceLocal).homeByte 0x4200 = 4 ∧ (s .nop).targetUp 0x4200 = true ∧
    (t (.xfence 4 4 2)).homeByte 0x4100 = 7 ∧ (t (.xfence 4 4 2)).pbuf = [] ∧ (t (.xfence 8 8 2)).pbuf.length = 1 ∧
    (t (.xfence 1 4 0)).uoq.map (·.who.gid) = [9] ∧ ((t (.xfence 1 4 0)).pathBuf 0 2).map (·.1) = [0x4100] := by decide +kernel

/-- Witness of SpillAndFill's full table: SPILL stalls on the 17th entry, FILL takes the newest of its slot (R171). -/
theorem test_spill_full : let e : Nat → Fwd := fun k => { slot := 7, val := .u (BitVec.ofNat 32 k), data := [], clause := 0 }
    let s := area (.spill 7 4) ((List.range 16).map e)
    readyIn s (.spill 7 4) = true ∧ (s.slotAcc 7 2).toOption.isSome = true ∧ (after (.spill 7 4) s).str.wait = .room ∧
    (after (.spill 7 4) s).bun.fwd.length = 16 ∧ (after (.fill 5 7) (area (.fill 5 7) [e 3, e 4])).readV 5 = .u 3 := by decide +kernel

/-- Witness of Waits' polls and writes: a stream that polls takes no record although the pool has room; a write that meets a WAITP's
condition is remembered, though the word changes again (R185, R187). -/
theorem test_waits2 : let s := pool (.waita 4 10) 5
    let p := s.setStr { s.str with wait := .waita 0x4100 5, waiter := false, wakeTry := true }
    let i : Instr := .waitp 4 10 0
    let w := given i [(4, .u 1), (10, .u 0x100)]
    let w := w.setStr { w.str with wait := .waitp 0x100 1 0 }
    let h := { w with groups := w.groups.map fun g => (g.1, (g.2.scrPut 0x100 (leBytes 4 1)).scrPut 0x100 (leBytes 4 2)) }
    p.str.asleep = false ∧ p.str.wait.isWaita = true ∧ (after (.waita 4 10) p).str.waiter = false ∧
    ((after (.waita 4 10) p).graph.map fun g => g.pool.length) = some 1 ∧ h.grp.hits = [(0, false)] ∧
    (after i h).str.wait = .nothing ∧ (after i h).grp.hits = [] ∧ (after i w).str.wait = .waitp 0x100 1 0 := by decide +kernel

/-- Witness of EstimatorRegions: ESWEEP reports a lagging cell and sets its REQ, keeps records in order behind one that waits for room, and
ends at a poisoned cell; a rejected count goes to word 9 (R238, R245). -/
theorem test_sweep : let i : Instr := .esweep 15
    let rw := (regionWords.set 7 100).set 8 0x10000
    let s := fun n => let s := region i 1 (.u 0)
      let s := noded (noded s 2 (wordAt (s.nodeRec 0) 2 + 0xC000)) 4 1023
      let s := { s with graph := s.graph.map fun (g : Machine.Graph) => { g with bins := [(0, List.replicate n (0, []))] } }
      s.setGrp { s.grp with regions := [(15, (0x4000, rw))] }
    let t := after i (s 0)
    let q := { s 0 with poisoned := [0x8020 / 8] }
    readyIn (s 0) i = true ∧ (gather ((sweepPages rw).map fun p => (0, (s 0).cellAns p 3))).toOption.isSome = true ∧
    t.sprouts = [] ∧ ((t.bin 0).map (·.2)).length = 8 ∧ ((t.bin 0).map (·.2)).head? = some [15, 0, 1, 0] ∧
    (ECell.ofNat (leNat (t.homeBytes 0x8000 32))).req = true ∧
    (after i (s 512)).sprouts.map (fun p => p.rcd.take 2) = (List.range 8).map (fun j => [15, BitVec.ofNat 32 j]) ∧
    (after i (s 512)).str.wait = .nothing ∧ (after i q).str.due.map (fun d => (d.cause, d.info)) = [(0x10, 0x8000003F)] ∧
    (let r := (region (.edecay 4 15) 0 (.u 0)).setRegion 0x4000 (3, 6)
     (after (.edecay 4 15) r).homeWord (0x4000 + 36) = 6 ∧ (after (.edecay 4 15) r).regionCache 0x4000 = (3, 0)) := by decide +kernel

/-- Witness of SpecialQueue's SFWAIT: a token that is not named stays; the values of R97 at whole and half numbers. -/
theorem test_tokens_named : let s := tokened (.sfwait 2) true
    let s := s.setBun { s.bun with toks := s.bun.toks ++ [(5, { pending := true, written := true, dest := 10 })] }
    (after (.sfwait 2) s).bun.toks.map (fun t => (t.1, t.2.pending)) = [(5, true)] := by decide +kernel

theorem test_exact_points : specialWord 5 0x40400000 = 0 ∧ specialWord 6 0x40400000 = 0xBF800000 ∧ specialWord 6 0x3F000000 = 0 ∧
    specialWord 5 0x3F000000 = 0x3F800000 ∧ specialWord 3 0x40400000 = 0x41000000 ∧ specialWord 4 0x41000000 = 0x40400000 ∧
    specialWord 0 0x41000000 = 0x3E000000 ∧ specialWord 11 0x3F800000 = 0 ∧ specialWord 2 0xBF800000 = 0x7FC00000 ∧
    valueOf (f32Of 0x40400000) = 3 ∧ valueOf (f32Of 0x3F000000) = 0 + 1 / 2 ∧ valueOf (f32Of 0x41000000) = (2 : ℚ) ^ 3 ∧
    valueOf (f32Of 0xBF800000) < 0 ∧ (f32Of 0x7F800001).isNan = true := by decide +kernel

/-- Witness of Traversal's blocks, and of what the TRV path sees there. -/
theorem test_blocks_read : let s := rays (.camset 10) 0x4100
    let seen := fun k n => (List.range n).map fun i => BitVec.ofNat 32 (leNat ((List.range 4).map fun j => s.pathByte 0 4 (k + (4 * i + j))))
    s.poisonedIn 0x4100 128 = false ∧ seen 0x4100 32 = cameraWords ∧ seen 0x4200 16 = bvhWords ∧ s.poisonedIn 0x4200 64 = false ∧
    (∀ t ∈ (traced.bundle 0 0).traces, t.parked = false ∧ t.uni = false ∧ t.d + 6 ≤ 0x60 ∧ t.lanes.all (fun l => l.stack.isEmpty && l.fault.isNone) = true) := by
  decide +kernel

/-- Witness of ListOperations' walks: a list of two with room after the first, one that is full; the closest pair merges. -/
theorem test_list_walks : let s := layered .nop 2
    let t := layerTarget s
    let w := s.homeWord 0x4100
    let es := laOk (s.listWalk t (fun _ => false) 2 (w.toNat % 2 ^ 24))
    let l := (es.getD []).map fun e => e.depth
    l = [0x3F800000, 0x40000000] ∧ (es.getD []).Pairwise (fun p q => q.before p = false) ∧ (es.getD []).all (fun p => p.w.length == 4) = true ∧
    ((es.getD []).filter fun p => p.node.isNone).length = 0 ∧
    (mergeClosest 0 (es.getD [])).map (fun p => (p.depth, p.node, p.mcount)) = [(0x3F800000, some 0, 1)] ∧
    (laOk (s.listWalk t (fun e => e.node == some 1) 2 (w.toNat % 2 ^ 24))).isSome = true ∧ (laOk (s.readNode t 0)).isSome = true ∧
    (match (layered .nop 1).listWalk t (fun e => e.node == some 1) 1 0 with
     | .ok es v => decide (es.length = 1) && (laOk (v.writeNode t 1 [1, 2, 3, 4])).isSome
     | _ => false) = true := by decide +kernel

/-- aluHeader with RGN set. -/
def rgnHeader : Word := aluHeader ||| 0x08000000

/-- Witness of ClauseFlow's region entry, PREEMPT, engine traps, save and room, each once WAIT reads zero; what a clause's words find is held
with it (R332, R333, R352, R359). -/
theorem test_clause_order : let run := fun (s : State) => after (.clauseIssue 0 0 false) s
    let vec := fun (s : State) => { s with dev := { s.dev with ctl := { s.dev.ctl with tvecx := 0x100 } } }
    let s := fun f => fresh rgnHeader iaddiWord f
    let e : Trap := { cause := 0x10, info := 0x80000023 }
    let p := fun b => vec { s (fun x => { x with pnote := true, due := [e] }) with preempt := { classes := if b then 255 else 0 } }
    hRgn rgnHeader = true ∧ headerOk false rgnHeader = true ∧ (run (s id)).str.rgnPc = 0x4100 ∧ (run (s id)).str.rgnCount = 1 ∧
    (p true).affected ((p true).group 0) = true ∧ (run (p true)).str.trapCause = 0x11 ∧ (run (p true)).str.rgnPc = 0x4100 ∧
    (run (p false)).str.trapCause = 0x10 ∧ (run (p false)).str.rgnPc = 0x4100 ∧
    (run (vec (fresh waitHeader iaddiWord fun x => { x with flags := [(11, 1)], due := [e] }))).str.wait = .flags 11 ∧
    (run (vec (fresh waitHeader iaddiWord fun x => { x with flags := [(11, 1)], due := [{ e with atOnce := true }] }))).str.trapCause = 0x10 ∧
    firstDue [e, { cause := 0x10, info := 0x80000005 }] = some { cause := 0x10, info := 0x80000005 } ∧
    (let v := (s id).setGrp { (s id).grp with saving := some 0 }
     (run v).str.clause.words = [] ∧ (run v).str.rgnCount = 1) ∧
    (let m := reach .nop 0 0x4200 (bytesAt 0x4100 [memHeader, 0x88041402])
     (run (m.setStr { m.str with clause := {}, pc := 0x4100 })).str.clause.pins.map (fun x => (x.base, x.size)) = [(0, 30)]) := by decide +kernel

/-- Witness of GroupEvents' new cases: only a ready bundle is promoted; an expired timer with no Hull leaves its kick; the lowest GROUP to
start again goes first. -/
theorem test_group_events3 : let idle' := (at_ .nop).setBun { (at_ .nop).bun with isReady := false }
    let b := clocked { binned with dev := { binned.dev with hulls := 0 } } 1023
    let again := fun (k : Nat) => ({ group := k, tries := 1, sect := .notyet, avoid := none } : Again)
    let l := { launching with graph := launching.graph.map fun (g : Machine.Graph) => { g with launches :=
      [(5, { node := 0, total := 9, next := 4, again := [again 3, again 1] })] } }
    (at_ .nop).bun.started = true ∧ (at_ .nop).bun.isReady = true ∧
    (after (.starvationPromotion 0 0) (clocked idle' 4095)).bun.promoted = false ∧
    (after (.binTimerExpiry 0) b).dev.kicks = [0] ∧ (after (.binTimerExpiry 0) b).bin 0 = [(0, [5])] ∧
    ((after (.groupAdmission 5 1) l).group 1).group = 1 ∧ ((after (.groupAdmission 5 1) l).group 1).sysIdx = l.dev.sysIdx := by decide +kernel

/-- An acknowledged group leaves; the next completion stands first. -/
theorem test_ack : let s := binned.setGrp { binned.grp with st := .exiting }
    let s := { s with dev := { s.dev with fifo := [[0, 0, 0, 0], [0, 0, 0, 9]] } }
    (after .completionAck s).groups = [] ∧ (after .completionAck s).dev.fifo = [[0, 0, 0, 9]] := by decide +kernel

/-- A group saved for FAULTSAVE waits for the first REPLAYALL of its cluster; what peers have parked survives a reset of the context. -/
theorem test_saved_for_fault : let s := saving.setGrp { saving.grp with saving := some 1 }
    let t := after (.groupSave 0) s
    let d := (at_ .nop).setGrp { (at_ .nop).grp with deadline := some 5 }
    let p := fun who => ({ who := who, cluster := 0, core := 0, path := 1, misses := [] } : Parked)
    (t.group 0).awaits = some 0 ∧ t.canRestore 0 1 = false ∧ ((after (.replayall 1) t).group 0).awaits = some 0 ∧
    ((after (.replayall 0) t).group 0).awaits = none ∧ (after (.replayall 0) t).canRestore 0 1 = true ∧
    ((after .deadlineExpiry { clocked d 4 with parked := [p (.ctx 0 3), p (.peer 2 (.write 5 [1]))] }).parked.map fun q => q.who.gid?) = [none] := by
  decide +kernel

/-- Witness of MemoryEvents: a link that goes down drops and counts what is outstanding there; nothing is taken once the sole controller
has failed. -/
theorem test_links_down : let k := memKey 13 0
    let s := { adding with contribs := adding.contribs ++ [{ sample := false, line := k / 64, keys := [k], x := 5, owner := {}, clause := 0 }],
                           uoq := [{ who := {}, clause := 0, core := 0, key := k, bytes := [1] }] }
    let t := after (.linkDown 11) s
    let dead := { adding with dev := { adding.dev with hulls := 0 } }
    keyTarget k = 13 ∧ t.contribs.length = 1 ∧ t.uoq = [] ∧ (Tab.get {} t.dev.ports 11).dropwr = 2 ∧ adding.accepts = true ∧ dead.accepts = false ∧
    (after (.hostHdmAccess true 0x7FFFFFFF [5]) dead).homeByte 0x7FFFFFFF = 0 ∧
    ((after (.peerRequest 11 { tag := 1, op := .write 0x5000 [1, 2] }) dead).port 11).tags = [] := by decide +kernel

/-- Witness of ControlWindow: an entry raises its mailbox's vector, or pends where it is masked; only a LOAD's own reply, the last, frees it. -/
theorem test_vectors : let s := fun m ws => { windowed with dev := { windowed.dev with
      msix := [(5, { masked := m })],
      mboxes := [(5, { windowed.mbox 5 with waiting := ws })] } }
    let t := fun m ws => after (.replyEntryWrite 5) (s m ws)
    Tab.get {} (t false [[1, 9, 0]]).dev.msix 5 = { masked := false, raised := 1 } ∧ Tab.get {} (t true [[1, 9, 0]]).dev.msix 5 = { pending := true } ∧
    ((t true [[1, 9, 0], [1, 8, 0]]).mbox 5).busy = true ∧ ((t true [[1, 8, 0]]).mbox 5).busy = false ∧ ((t true [[3, 8, 0]]).mbox 5).busy = true ∧
    (let dead := { windowed with dev := { windowed.dev with hulls := 0 } }
     ((after (.rdropClear 5) dead).mbox 5).rdrop = 3 ∧ (after (.registerWrite 0x100 4 0x104) dead).readWindow 0x100 4 = 0xFFFFFFFF) := by decide +kernel

/-- Witness of PageFaults: an invalidation waits for a clause that holds an affected translation; an access that is retried finds no clean
copy (R344, R371). -/
theorem test_pins : let x : Xlat := { key := 0, kind := 0, ord := 0, leaf := 3, base := 0, size := 30, ents := [] }
    let s := stream .nop fun y => { y with clause := { y.clause with pins := [x] } }
    let s := { (paged s 0 0 []) with dev := { s.dev with ctl := { tlbBusy := true, tlbPend := some (0, 12) } } }
    let far := { s with dev := { s.dev with ctl := { tlbBusy := true, tlbPend := some (0x40000000, 12) } } }
    let f := { fetching false with l1 := [(0, [(0x4100, (7, false)), (0x4200, (8, true))])] }
    (after .tlbInvalidationComplete s).tlb.length = 1 ∧ (after .tlbInvalidationComplete s).dev.ctl.tlbBusy = true ∧
    (after .tlbInvalidationComplete far).dev.ctl.tlbBusy = false ∧ (after .tlbInvalidationComplete far).str.clause.pins = [x] ∧
    ((after (.replayall 0) f).l1Of 0).map (·.1) = [0x4200] ∧ f.accepts = true ∧
    (after (.replayall 0) { f with dev := { f.dev with hulls := 0 } }).parked.length = 1 := by decide +kernel

/-- Witness of LoadsAndReset: no repair without a Hull; a spare bank that is bad has no spare; a pattern left in the table is found again. -/
theorem test_repairs2 : let dead := { erring seven with dev := { (erring seven).dev with hulls := 0 } }
    (after (.correctedError 0 5 7 17) dead).dev.banksUsed = [] ∧ (after (.correctedError 0 5 7 17) dead).dev.cetab.length = 1 ∧
    (let t := (after (.correctedError 0 64 7 17) (erring ((List.range 7).map fun i => (64, i, 10 + i)))).dev
     t.banksUsed = [] ∧ t.spares = []) ∧
    errorClass [(9, 1), (9, 2), (9, 3), (7, 17)] = some (1, 9) ∧ errorClass [(1, 9), (2, 9), (3, 9), (3, 9)] = some (2, 9) ∧
    (erring seven).sparesUsed 0 5 1 = 0 ∧
    (after (.bankMigrationChunk 0) { dead with dev := { dead.dev with bankMig := [(0, [(5, 64, 0)])] } }).dev.hash = [] ∧
    (after (.timingDetectorFire 0 3) { boxed 0 with dev := { (boxed 0).dev with mode := 1 } }).dev.coresOut = [] := by decide +kernel

/-- Witness of StepRunsTheWord's notes: a bundle that cannot issue is noted as not ready, with the clock. -/
theorem test_notes : let s := clocked (stream .nop fun x => { x with wait := .parked }) 7
    s.wordNow = none ∧ (s.noteReady.bundle 0 0).isReady = false ∧ (s.noteReady.bundle 0 0).ready = 7 := by decide +kernel

/-- Words of the worked examples and tables of the manual, which prints them in hexadecimal, decode to the instructions printed beside them:
integers and immediates. -/
theorem test_decode_alu :
    decode 0x00214287 = some (.iadd 0 1 5 5 7) ∧ decode 0x06018307 = some (.imax 0 0 6 6 7) ∧ decode 0x56081004 = some (.iaddi64 2 2 4) ∧
    decode 0x401027FF = some (.iaddi 4 4 0x7FF) ∧ decode 0x50002000 = some (.icmpiEq 0 4 0) ∧ decode 0x5C180804 = some (.affine 6 1 4) := by decide +kernel

/-- Floating point and conversions. -/
theorem test_decode_float :
    decode 0x1B020103 = some (.ffma 0 0 8 2 3) ∧ decode 0x28008205 = some (.fcmpLt 0 0 2 4 5) ∧
    decode 0x18628206 = some (.fadd 0 3 10 4 6) ∧ decode 0x682444D5 = some (.cvt 9 8 9 10 5) ∧
    decode 0x191A0205 = some (.fsub 0 0 0x68 4 5) := by decide +kernel

/-- Exchange, reductions, masks and barriers. -/
theorem test_decode_lanes :
    decode 0x35428201 = some (.redadd 0 2 10 4 1) ∧ decode 0x3302050F = some (.shflDn 0 8 10 15) ∧
    decode 0x38043401 = some (.readlane 0 16 0x68 1) ∧ decode 0x31018281 = some (.shflXor 0 6 5 1) ∧
    decode 0x6C060800 = some (.kexecAnd 3) ∧ decode 0x6D000000 = some (.kexecSave 8) ∧ decode 0x7E080002 = some (.barInit 0 2) ∧
    decode 0x7E202000 = some (.barSync 1) := by decide +kernel

/-- Loads, stores, fences, estimators, waits. -/
theorem test_decode_memory :
    decode 0x88141C00 = some (.ld32 0 20 14 0) ∧ decode 0x960C2014 = some (.st128 0 12 16 20) ∧ decode 0x9E181C00 = some (.stp128 24 14 0) ∧
    decode 0xB80840C0 = some (.xfence 2 1 2) ∧ decode 0xB84040C0 = some (.esample 4 6 0) ∧ decode 0xB84880C0 = some (.eload 8 6 0) ∧
    decode 0xB8600040 = some (.eregion 2 0) := by decide +kernel

/-- Matrix, special functions, queues, stream engines, layers. -/
theorem test_decode_engines :
    decode 0xB8303042 = some (.waitp 3 2 2) ∧ decode 0xBA000160 = some (.mma 11) ∧ decode 0xBA298020 = some (.accrd 24 1 0 0) ∧
    decode 0xBB089103 = some (.sfi 1 9 8 3) ∧ decode 0xBC004010 = some (.tidset 4 1) ∧ decode 0xBC08F000 = some (.sopen 15 0) ∧
    decode 0xBC4850C0 = some (.agdim 5 6 0) ∧ decode 0xBC5F00E0 = some (.agld 0x70 7 0) ∧ decode 0xBD280500 = some (.fragins 40 0) ∧
    decode 0xBD32C560 = some (.lpop 44 43 0) := by decide +kernel

/-- One ill-formed term for each check of a word, which the check refuses, beside the nearest good one. -/
theorem test_ill_formed :
    [Instr.iadd 0 3 4 5 6, .imin 0 2 4 5 6, .shli 4 5 32, .cvt 4 5 0 0 7, .barInit 0 0, .ld32 2 4 10 0, .st32 1 4 10 0, .xfence 0 1 0, .xfence 1 0 0,
      .waitp 1 2 3, .xadd 4 6 1, .sfi 0 4 5 14, .agld 0x70 4 3, .emit 4 5 16].all (fun i => !fieldsLegal i && !i.wellFormed) = true ∧
    [Instr.iadd 0 2 4 5 6, .imin 0 1 4 5 6, .shli 4 5 31, .cvt 4 5 0 0 6, .barInit 0 1, .ld32 1 4 10 0, .st32 2 4 10 0, .xfence 1 1 0,
      .waitp 1 2 2, .xadd 4 6 2, .sfi 0 4 5 13, .agld 0x70 4 2, .emit 4 5 15].all (·.wellFormed) = true ∧
    (Instr.iadd 0 0 4 5 0x6A).streamOk false = false ∧ (Instr.iadd64 0 5 6 8).wellFormed = false ∧ (Instr.iadd64 0 4 6 8).wellFormed = true ∧
    (Instr.movk 0 4 5).streamOk true = false ∧ (Instr.agdim 5 6 0).streamOk false = false ∧ (Instr.agdim 5 6 0).wellFormed = true ∧
    (Instr.iadd 1 0 4 5 6).nbOk = false ∧ (Instr.iadd 1 0 4 5 6).wellFormed = false ∧ (Instr.iadd 1 0 4 5 0x70).wellFormed = true := by decide +kernel

/-- Events with an argument past the part's numbers are ill-formed; at the bound they are well-formed. -/
theorem test_ill_formed_events :
    [Instr.acquireGrant 512, .groupAdmission 0 512, .groupRestore 0 512, .timingDetectorFire 512 1, .replayall 64, .fail 64, .fbgetWrite 64 0,
      .fbstatClear 64, .replyEntryWrite 64, .replygetWrite 64 0, .rdropClear 64, .record 64 0 (List.replicate 62 0), .bind 0 0 [],
      .dropwrClear 12, .retriesClear 12, .flitReplay 12, .linkDown 12, .linkUp 12 0, .hashDescriptorWrite 0 2 0, .registerWrite 0 16 0,
      .correctedError 12 0 0 0, .correctedError 0 66 0 0, .bankMigrationChunk 12, .sfiResult 0 0 8, .slotFill 0 16, .slotDrain 0 16, .sortPass 0 16,
      .binCompletion 0 16, .mmaChunk 0 8, .mdrainRow 0 8, .lineEviction true 64 0, .lineEviction false 512 0, .binTimerExpiry 4096,
      .stalecntClear 4096, .orderrClear 4096, .lossesClear 4096].all (fun i => !i.wellFormed) = true ∧
    [Instr.acquireGrant 511, .groupAdmission 0 511, .groupRestore 0 511, .timingDetectorFire 511 1, .replayall 63, .fail 63, .fbgetWrite 63 0,
      .fbstatClear 63, .replyEntryWrite 63, .replygetWrite 63 0, .rdropClear 63, .record 63 0 (List.replicate 62 0),
      .bind 0 0 (List.replicate 62 0), .dropwrClear 11, .retriesClear 11, .flitReplay 11, .linkDown 11, .linkUp 11 0, .hashDescriptorWrite 0 8 0,
      .registerWrite 0 4 0, .correctedError 11 65 0 0, .bankMigrationChunk 11, .sfiResult 0 0 7, .slotFill 0 15, .slotDrain 0 15, .sortPass 0 15,
      .binCompletion 0 15, .mmaChunk 0 7, .mdrainRow 0 7, .lineEviction true 63 0, .lineEviction false 511 0, .binTimerExpiry 4095,
      .stalecntClear 4095, .orderrClear 4095, .lossesClear 4095].all (·.wellFormed) = true := by decide +kernel

end

end Sys2Proof.Tests
end

section
/-!
SUPPORT. Proofs of the statements of the sequential machine's integer results and mask modes: O1 (02 R54, R55, R57, R58, 04 R113, R128)
and O8 (02 R52).
-/
namespace Sys2Proof.Machine
open Sys2Proof.Rules

/-! ## Sums, differences and products as exact numbers -/

theorem bv_sub_eq_ofInt {w : Nat} (x y : BitVec w) : x - y = BitVec.ofInt w ((x.toNat : Int) - y.toNat) := by
  rw [Int.sub_eq_add_neg, BitVec.ofInt_add, BitVec.ofInt_neg, BitVec.ofInt_natCast, BitVec.ofInt_natCast, BitVec.ofNat_toNat,
    BitVec.ofNat_toNat, BitVec.setWidth_eq, BitVec.setWidth_eq, BitVec.sub_eq_add_neg]

/-- A sum with an immediate sign-extended (01 R30, 02 R58). -/
theorem bv_add_signExtend {v w : Nat} (x : BitVec w) (n : BitVec v) :
    x + n.signExtend w = BitVec.ofInt w ((x.toNat : Int) + n.toInt) := by
  rw [BitVec.ofInt_add, BitVec.ofInt_natCast, BitVec.ofNat_toNat, BitVec.setWidth_eq]; rfl

/-- A product with an immediate sign-extended. -/
theorem bv_mul_signExtend {v w : Nat} (x : BitVec w) (n : BitVec v) :
    x * n.signExtend w = BitVec.ofInt w (x.toInt * n.toInt) := by
  rw [BitVec.ofInt_mul, BitVec.ofInt_toInt]; rfl

theorem bv_ofNat_mul_signExtend {v w : Nat} (j : Nat) (n : BitVec v) :
    BitVec.ofNat w j * n.signExtend w = BitVec.ofInt w (j * n.toInt) := by
  rw [BitVec.ofInt_mul, BitVec.ofInt_natCast]; rfl

/-- Bits [63:32] of a product are its quotient by 2^32, rounded down. -/
theorem high_word_ofInt (z : Int) : (BitVec.ofInt 64 z).extractLsb' 32 32 = BitVec.ofInt 32 (z / 2 ^ 32) := by
  apply BitVec.eq_of_toNat_eq
  rw [BitVec.extractLsb'_toNat, BitVec.toNat_ofInt, BitVec.toNat_ofInt, Nat.shiftRight_eq_div_pow]
  omega

/-! ## The lane functions of R54 -/

theorem iaddOp_eq (m : BitVec 2) (x y : Word) : iaddOp m x y =
    if m = 0#2 then BitVec.ofNat 32 (x.toNat + y.toNat)
    else if m = 1#2 then sat (-2 ^ 31) (2 ^ 31 - 1) (x.toInt + y.toInt) else sat 0 (2 ^ 32 - 1) (x.toNat + y.toNat) := rfl

theorem isubOp_eq (m : BitVec 2) (x y : Word) : isubOp m x y =
    if m = 0#2 then BitVec.ofInt 32 ((x.toNat : Int) - y.toNat)
    else if m = 1#2 then sat (-2 ^ 31) (2 ^ 31 - 1) (x.toInt - y.toInt) else sat 0 (2 ^ 32 - 1) ((x.toNat : Int) - y.toNat) := by
  rw [← bv_sub_eq_ofInt]; rfl

theorem imulhOp_eq (m : BitVec 2) (x y : Word) : imulhOp m x y =
    if m = 0#2 then BitVec.ofInt 32 (x.toInt * y.toInt / 2 ^ 32)
    else if m = 1#2 then BitVec.ofNat 32 (x.toNat * y.toNat / 2 ^ 32) else BitVec.ofInt 32 (x.toInt * y.toNat / 2 ^ 32) := by
  unfold imulhOp
  by_cases h0 : m = 0#2
  · simp [h0, high_word_ofInt]
  · by_cases h1 : m = 1#2
    · simp only [h1, high_word_ofInt, if_true, ← BitVec.ofInt_natCast]; rfl
    · simp [h0, h1, high_word_ofInt]

theorem imacOp_eq (x y z : Word) : z + x * y = BitVec.ofNat 32 (z.toNat + x.toNat * y.toNat) := by
  rw [BitVec.ofNat_add, BitVec.ofNat_mul]; simp

theorem iminOp_eq (m : BitVec 2) (x y : Word) : iminOp m x y =
    if m = 0#2 then BitVec.ofInt 32 (min x.toInt y.toInt) else BitVec.ofNat 32 (min x.toNat y.toNat) := by
  simp only [iminOp, min_def, apply_ite (BitVec.ofInt 32), apply_ite (BitVec.ofNat 32), BitVec.ofInt_toInt, BitVec.ofNat_toNat,
    BitVec.setWidth_eq]

theorem imaxOp_eq (m : BitVec 2) (x y : Word) : imaxOp m x y =
    if m = 0#2 then BitVec.ofInt 32 (max x.toInt y.toInt) else BitVec.ofNat 32 (max x.toNat y.toNat) := by
  simp only [imaxOp, max_def, apply_ite (BitVec.ofInt 32), apply_ite (BitVec.ofNat 32), BitVec.ofInt_toInt, BitVec.ofNat_toNat,
    BitVec.setWidth_eq]

theorem shCount_lt (y : Word) : shCount y < 32 := Nat.mod_lt _ (by decide)

theorem shlOp_eq (x y : Word) : shlOp x y = BitVec.ofNat 32 (x.toNat * 2 ^ shCount y) := by
  apply BitVec.eq_of_toNat_eq
  rw [shlOp, BitVec.toNat_shiftLeft, Nat.shiftLeft_eq, BitVec.toNat_ofNat]

theorem shrOp_eq (x y : Word) : shrOp x y = BitVec.ofNat 32 (x.toNat / 2 ^ shCount y) := by
  rw [← Nat.shiftRight_eq_div_pow, ← BitVec.toNat_ushiftRight, BitVec.ofNat_toNat, BitVec.setWidth_eq, shrOp]

theorem sarOp_eq (x y : Word) : sarOp x y = BitVec.ofInt 32 (x.toInt / 2 ^ shCount y) := by
  rw [sarOp, BitVec.sshiftRight_eq, Int.shiftRight_eq_div_pow]; norm_cast

/-- A rotation puts the bits shifted out at the top below those that stay (02 R54). -/
theorem rotlOp_eq (x y : Word) : rotlOp x y =
    BitVec.ofNat 32 (x.toNat * 2 ^ shCount y % 2 ^ 32 + x.toNat * 2 ^ shCount y / 2 ^ 32) := by
  have hc := shCount_lt y
  generalize hk : shCount y = c at hc
  have hsplit : 2 ^ 32 = 2 ^ c * 2 ^ (32 - c) := by rw [← Nat.pow_add]; congr 1; omega
  have hlow : x.toNat * 2 ^ c % 2 ^ 32 = 2 ^ c * (x.toNat % 2 ^ (32 - c)) := by
    rw [hsplit, Nat.mul_comm x.toNat, Nat.mul_mod_mul_left]
  have hhigh : x.toNat * 2 ^ c / 2 ^ 32 = x.toNat / 2 ^ (32 - c) := by
    rw [hsplit, Nat.mul_comm x.toNat, Nat.mul_div_mul_left _ _ (Nat.two_pow_pos c)]
  have hlt : x.toNat / 2 ^ (32 - c) < 2 ^ c := by
    rw [Nat.div_lt_iff_lt_mul (Nat.two_pow_pos _), ← hsplit]; exact x.isLt
  have hval : (rotlOp x y).toNat = x.toNat * 2 ^ c % 2 ^ 32 + x.toNat * 2 ^ c / 2 ^ 32 := by
    rw [rotlOp, hk, BitVec.toNat_rotateLeft, Nat.mod_eq_of_lt hc, Nat.shiftLeft_eq, Nat.shiftRight_eq_div_pow, hhigh, hlow,
      Nat.two_pow_add_eq_or_of_lt hlt]
  rw [← hval, BitVec.ofNat_toNat, BitVec.setWidth_eq]

theorem popcOp_eq (x : Word) : popcOp x = BitVec.ofNat 32 ((List.range 32).countP fun j => x.getLsbD j) := by
  rw [popcOp, List.countP_eq_length_filter]

/-- Numbers below n that are no less than k. -/
theorem countP_range_ge (k n : Nat) : (List.range n).countP (fun j => decide (k ≤ j)) = n - k := by
  induction n with
  | zero => simp
  | succ n ih =>
    rw [List.range_succ, List.countP_append, ih]
    by_cases h : k ≤ n <;> simp [h] <;> omega

/-- The leading zeros are the positions above the highest one (02 R54). -/
theorem clzOp_eq (x : Word) : clzOp x = BitVec.ofNat 32 ((List.range 32).countP fun j => decide (x.toNat < 2 ^ j)) := by
  unfold clzOp
  by_cases h : x = 0
  · subst h; decide
  · have hx : x.toNat ≠ 0 := fun e => h (BitVec.eq_of_toNat_eq e)
    simp only [← Nat.log2_lt hx, if_neg h, ← Nat.succ_le_iff, countP_range_ge]
    congr 1; omega

/-- The sum that brevOp forms, over the first k positions: bits 31 to 32 - k of the reversed word. -/
theorem reverse_sum (x : Word) : ∀ k, k ≤ 32 →
    (List.range k).foldl (fun n i => if x.getLsbD i then n + 2 ^ (31 - i) else n) 0 =
      2 ^ (32 - k) * (x.reverse.toNat / 2 ^ (32 - k))
  | 0, _ => by have := x.reverse.isLt; simp only [List.range_zero, List.foldl_nil]; omega
  | k + 1, hk => by
    have hbit : x.getLsbD k = x.reverse.toNat.testBit (31 - k) := by
      change _ = x.reverse.getLsbD (31 - k)
      rw [BitVec.getLsbD_reverse, BitVec.getMsbD]
      have : 32 - 1 - (31 - k) = k := by omega
      simp [this]; omega
    have hexp : 32 - k = (31 - k) + 1 := by omega
    rw [List.range_succ, List.foldl_append, List.foldl_cons, List.foldl_nil, reverse_sum x k (by omega), hbit, hexp,
      show 32 - (k + 1) = 31 - k by omega, Nat.testBit_eq_decide_div_mod_eq, Nat.pow_succ, ← Nat.div_div_eq_div_mul]
    generalize x.reverse.toNat / 2 ^ (31 - k) = q
    conv_rhs => rw [← Nat.div_add_mod q 2]
    rcases Nat.mod_two_eq_zero_or_one q with h | h <;> simp [h] <;> ring

theorem brevOp_eq (x : Word) : brevOp x = x.reverse := by
  rw [brevOp, reverse_sum x 32 (Nat.le_refl _)]; simp

/-! ## Bit fields (02 R55) -/

theorem fieldLen_eq (y : Word) : fieldLen y = fieldCut y := rfl
theorem shCount_eq (y : Word) : shCount y = fieldPos y := rfl

/-- A field lies within the word: it is cut at bit 31 (02 R55). -/
theorem fieldPos_add_fieldCut_le (y : Word) : fieldPos y + fieldCut y ≤ 32 := by
  have := shCount_lt y
  rw [shCount_eq] at this
  unfold fieldCut; omega

/-- The mask of a field has its bits from its position up to its cut length. -/
theorem fieldMask_getLsbD (y : Word) (j : Nat) :
    (fieldMask y).getLsbD j = (decide (fieldPos y ≤ j) && decide (j < fieldPos y + fieldCut y)) := by
  have hle := fieldPos_add_fieldCut_le y
  rw [fieldMask, fieldLen_eq, shCount_eq, BitVec.getLsbD_ofNat, Nat.testBit_mul_two_pow, Nat.testBit_two_pow_sub_one,
    Bool.eq_iff_iff]
  simp only [Bool.and_eq_true, decide_eq_true_eq]
  omega

/-- A field moved to bit 0. -/
theorem field_shifted (x y : Word) : (x &&& fieldMask y) >>> shCount y =
    BitVec.ofNat 32 (x.toNat / 2 ^ fieldPos y % 2 ^ fieldCut y) := by
  apply BitVec.eq_of_getLsbD_eq
  intro j hj
  rw [BitVec.getLsbD_ushiftRight, BitVec.getLsbD_and, fieldMask_getLsbD, shCount_eq, BitVec.getLsbD_ofNat,
    Nat.testBit_mod_two_pow, Nat.testBit_div_two_pow, BitVec.getLsbD, Nat.add_comm j]
  simp only [hj, Nat.le_add_right, decide_true, Bool.true_and, Nat.add_lt_add_iff_left, Bool.and_comm]

/-- A number of n bits has its top bit set where it is in the upper half. -/
theorem testBit_top {n f : Nat} (hf : f < 2 ^ (n + 1)) : f.testBit n = decide (2 ^ (n + 1) ≤ 2 * f) := by
  rw [Nat.testBit_eq_decide_div_mod_eq, decide_eq_decide, Nat.pow_succ]
  rw [Nat.pow_succ] at hf
  by_cases h : f < 2 ^ n
  · rw [Nat.div_eq_of_lt h]; omega
  · have : f / 2 ^ n = 1 := Nat.div_eq_of_lt_le (by omega) (by omega)
    omega

/-- Ones above a number of n bits make it that number less 2^n. -/
theorem ofNat_or_not_mask {n f : Nat} (hf : f < 2 ^ n) :
    BitVec.ofNat 32 f ||| ~~~BitVec.ofNat 32 (2 ^ n - 1) = BitVec.ofInt 32 ((f : Int) - 2 ^ n) := by
  have hdisj : BitVec.ofNat 32 f &&& ~~~BitVec.ofNat 32 (2 ^ n - 1) = 0#32 := by
    apply BitVec.eq_of_getLsbD_eq
    intro j hj
    simp only [BitVec.getLsbD_and, BitVec.getLsbD_not, BitVec.getLsbD_ofNat, Nat.testBit_two_pow_sub_one, hj]
    by_cases h : j < n
    · simp [h]
    · simp [Nat.testBit_lt_two_pow (Nat.lt_of_lt_of_le hf (Nat.pow_le_pow_right (by decide) (Nat.le_of_not_lt h)))]
  have hmask : BitVec.ofNat 32 (2 ^ n - 1) = BitVec.ofInt 32 (2 ^ n) - 1#32 := by
    have h1 : 1 ≤ 2 ^ n := Nat.one_le_two_pow
    have h2 : ((2 ^ n - 1 : Nat) : Int) = 2 ^ n + -1 := by push_cast [h1]; ring
    rw [← BitVec.ofInt_natCast, h2, BitVec.ofInt_add, BitVec.sub_eq_add_neg]; rfl
  rw [← BitVec.add_eq_or_of_and_eq_zero _ _ hdisj, BitVec.not_eq_neg_add, hmask, Int.sub_eq_add_neg, BitVec.ofInt_add,
    BitVec.ofInt_neg, BitVec.ofInt_natCast]
  ring

theorem bfxOp_eq (m : BitVec 2) (x y : Word) : bfxOp m x y =
    BitVec.ofInt 32 (if m = 1#2 ∧ 0 < fieldCut y ∧ 2 ^ fieldCut y ≤ 2 * (x.toNat / 2 ^ fieldPos y % 2 ^ fieldCut y)
      then ((x.toNat / 2 ^ fieldPos y % 2 ^ fieldCut y : Nat) : Int) - 2 ^ fieldCut y
      else (x.toNat / 2 ^ fieldPos y % 2 ^ fieldCut y : Nat)) := by
  have hle := fieldPos_add_fieldCut_le y
  simp only [bfxOp, field_shifted, fieldLen_eq]
  generalize fieldCut y = n at hle ⊢
  have hf : x.toNat / 2 ^ fieldPos y % 2 ^ n < 2 ^ n := Nat.mod_lt _ (Nat.two_pow_pos n)
  generalize x.toNat / 2 ^ fieldPos y % 2 ^ n = f at hf ⊢
  rw [apply_ite (BitVec.ofInt 32), BitVec.ofInt_natCast, ← ofNat_or_not_mask hf]
  refine if_congr (and_congr_right fun _ => and_congr_right fun hn => ?_) rfl rfl
  obtain ⟨k, rfl⟩ := Nat.exists_eq_add_one.mpr hn
  rw [Nat.add_sub_cancel, BitVec.getLsbD_ofNat, testBit_top hf]
  simp; omega

/-- BFI puts the field between the bits of d below it and those above it (02 R55). -/
theorem bfiOp_eq (z x y : Word) : bfiOp z x y =
    BitVec.ofNat 32 (z.toNat % 2 ^ fieldPos y + x.toNat % 2 ^ fieldCut y * 2 ^ fieldPos y +
      z.toNat / 2 ^ (fieldPos y + fieldCut y) * 2 ^ (fieldPos y + fieldCut y)) := by
  apply BitVec.eq_of_getLsbD_eq
  intro j hj
  rw [bfiOp, BitVec.getLsbD_or, BitVec.getLsbD_and, BitVec.getLsbD_and, BitVec.getLsbD_not, fieldMask_getLsbD, shCount_eq,
    BitVec.getLsbD_shiftLeft, BitVec.getLsbD_ofNat]
  generalize fieldPos y = p
  generalize fieldCut y = n
  have hsum : z.toNat % 2 ^ p + x.toNat % 2 ^ n * 2 ^ p + z.toNat / 2 ^ (p + n) * 2 ^ (p + n) =
      2 ^ p * (2 ^ n * (z.toNat / 2 ^ (p + n)) + x.toNat % 2 ^ n) + z.toNat % 2 ^ p := by rw [Nat.pow_add]; ring
  rw [hsum, Nat.testBit_two_pow_mul_add _ (Nat.mod_lt _ (Nat.two_pow_pos p)),
    Nat.testBit_two_pow_mul_add _ (Nat.mod_lt _ (Nat.two_pow_pos n)), Nat.testBit_mod_two_pow, Nat.testBit_mod_two_pow,
    Nat.testBit_div_two_pow, BitVec.getLsbD, BitVec.getLsbD]
  by_cases hp : j < p
  · have : ¬ p ≤ j := by omega
    simp [hp, this, hj]
  · by_cases hn : j < p + n
    · have h1 : p ≤ j := by omega
      have h2 : j - p < n := by omega
      simp [hp, hn, h1, h2, hj]
    · have h1 : ¬ j - p < n := by omega
      have h2 : j - p - n + (p + n) = j := by omega
      simp [hp, hn, h1, h2, hj]

/-! ## Tags of the shared operations (02 R57, 04 R112) -/

theorem Val.isU_eq_tag (v : Val) : v.isU = decide (v.tag = 0) := by cases v <;> rfl

/-- A uniform value has one word in every lane. -/
theorem Val.lane_of_isU {v : Val} (h : v.isU = true) (j : Nat) : v.lane j = v.lane 0 := by
  cases v with
  | u x => rfl
  | a x t => simp [Val.isU] at h
  | g l => simp [Val.isU] at h

theorem State.tag_map1 (s : State) (f : Word → Word) (x : Val) : (s.map1 f x).tag = if x.tag = 0 then 0 else 2 := by
  cases x <;> rfl

theorem State.tag_map2 (s : State) (f : Word → Word → Word) (x y : Val) :
    (s.map2 f x y).tag = if x.tag = 0 ∧ y.tag = 0 then 0 else 2 := by
  cases x <;> cases y <;> rfl

theorem State.tag_map3 (s : State) (f : Word → Word → Word → Word) (x y z : Val) :
    (s.map3 f x y z).tag = if x.tag = 0 ∧ y.tag = 0 ∧ z.tag = 0 then 0 else 2 := by
  cases x <;> cases y <;> cases z <;> rfl

theorem State.tag_affAdd (s : State) (f : Word → Word → Word) (x y : Val) :
    (s.affAdd f x y).tag = if x.tag = 0 ∧ y.tag = 0 then 0 else if x.tag ≤ 1 ∧ y.tag ≤ 1 then 1 else 2 := by
  cases x <;> cases y <;> rfl

theorem State.tag_affScale (s : State) (f : Word → Word → Word) (x y : Val) :
    (s.affScale f x y).tag = if x.tag = 0 ∧ y.tag = 0 then 0 else if x.tag = 1 ∧ y.tag = 0 then 1 else 2 := by
  cases x <;> cases y <;> rfl

/-- With a uniform second operand a sum or a product has the tag of the first. -/
theorem State.tag_affAdd_u (s : State) (f : Word → Word → Word) (x : Val) (n : Word) : (s.affAdd f x (.u n)).tag = x.tag := by
  cases x <;> rfl

theorem State.tag_affScale_u (s : State) (f : Word → Word → Word) (x : Val) (n : Word) : (s.affScale f x (.u n)).tag = x.tag := by
  cases x <;> rfl

/-! ## An effect that is one result -/

/-- Effect r writes one word to d, with tag t and lanes f. -/
def State.givesWord (s : State) (r : Res) (d : BitVec 7) (t : Nat) (f : Nat → Word) : Prop :=
  ∃ v : Val, r = .done (s.aluWrite d [v]) ∧ v.tag = t ∧ ∀ j, j < s.lanes → v.lane j = f j

/-- Effect r writes a pair to d, word k with tag t k, and lanes f. -/
def State.givesPair (s : State) (r : Res) (d : BitVec 7) (t : Nat → Nat) (f : Nat → DWord) : Prop :=
  ∃ lo hi : Val, r = .done (s.aluWrite d [lo, hi]) ∧ (lo.tag = t 0 ∧ hi.tag = t 1) ∧
    ∀ j, j < s.lanes → pairLane [lo, hi] j = f j

section
variable (s : State) {g2 f2 : Word → Word → Word} {g3 f3 : Word → Word → Word → Word}

theorem State.givesWord_map1 (g : Word → Word) (d : BitVec 7) (x : Val) :
    s.givesWord (.done (s.aluWrite d [s.map1 g x])) d (if x.tag = 0 then 0 else 2) fun j => g (x.lane j) :=
  ⟨_, rfl, s.tag_map1 g x, fun _ hj => s.lane_map1 g x hj⟩

theorem State.givesWord_map2 (h : ∀ x y, g2 x y = f2 x y) (d : BitVec 7) (x y : Val) :
    s.givesWord (.done (s.aluWrite d [s.map2 g2 x y])) d (if x.tag = 0 ∧ y.tag = 0 then 0 else 2)
      fun j => f2 (x.lane j) (y.lane j) :=
  ⟨_, rfl, s.tag_map2 g2 x y, fun _ hj => (s.lane_map2 g2 x y hj).trans (h _ _)⟩

theorem State.givesWord_map3 (h : ∀ x y z, g3 x y z = f3 x y z) (d : BitVec 7) (x y z : Val) :
    s.givesWord (.done (s.aluWrite d [s.map3 g3 x y z])) d (if x.tag = 0 ∧ y.tag = 0 ∧ z.tag = 0 then 0 else 2)
      fun j => f3 (x.lane j) (y.lane j) (z.lane j) :=
  ⟨_, rfl, s.tag_map3 g3 x y z, fun _ hj => (s.lane_map3 g3 x y z hj).trans (h _ _ _)⟩

/-- A value written as it stands, whatever its shape. -/
theorem State.givesWord_val (d : BitVec 7) (v : Val) : s.givesWord (.done (s.aluWrite d [v])) d v.tag v.lane :=
  ⟨_, rfl, rfl, fun _ _ => rfl⟩

end

/-- Tag and lanes of a result may be given by equal ones. -/
theorem State.givesWord.congr {s : State} {r : Res} {d : BitVec 7} {t u : Nat} {f g : Nat → Word} (h : s.givesWord r d t f) (ht : t = u)
    (hf : ∀ j, f j = g j) : s.givesWord r d u g := by
  obtain ⟨v, hr, hv, hl⟩ := h
  exact ⟨v, hr, hv.trans ht, fun j hj => (hl j hj).trans (hf j)⟩

/-- A sum or difference g under mode m: where it wraps, mode 0, it keeps affine shape (02 R57, 04 R112). -/
theorem State.givesWord_affAdd (s : State) {g : Word → Word → Word} {p : BitVec 2 → Word → Word → Word} (hp : p 0#2 = g)
    (hg : ∀ x y j, j < s.lanes → (s.affAdd g x y).lane j = g (x.lane j) (y.lane j)) (m : BitVec 2) (d : BitVec 7) (x y : Val) :
    s.givesWord (.done (s.aluWrite d [if m = 0#2 then s.affAdd g x y else s.map2 (p m) x y])) d
      (if x.tag = 0 ∧ y.tag = 0 then 0 else if m = 0#2 ∧ x.tag ≤ 1 ∧ y.tag ≤ 1 then 1 else 2)
      fun j => p m (x.lane j) (y.lane j) := by
  refine ⟨_, rfl, ?_⟩
  by_cases hm : m = 0#2
  · subst hm
    simp only [if_true, true_and, hp]
    exact ⟨s.tag_affAdd g x y, hg x y⟩
  · simp only [hm, false_and, if_false]
    exact ⟨s.tag_map2 _ x y, fun _ hj => s.lane_map2 _ x y hj⟩

/-- The effect of a one-word integer instruction (02 R54, R55, R57). -/
theorem perform_intResult (s : State) {i : Instr} {d a b : BitVec 7} {f : Word → Word → Word → Word}
    (h : intResult i = some (d, a, b, f)) :
    s.givesWord (perform i s) d (intShape i (s.read a).tag (s.read b).tag (s.read d).tag)
      fun j => f ((s.read a).lane j) ((s.read b).lane j) ((s.read d).lane j) := by
  cases i with
  | iadd n m =>
    cases h
    exact (s.givesWord_affAdd (p := iaddOp) rfl (fun x y _ => s.lane_affAdd x y) m d _ _).congr rfl fun _ => iaddOp_eq _ _ _
  | isub n m =>
    cases h
    exact (s.givesWord_affAdd (p := isubOp) rfl (fun x y _ => s.lane_affSub x y) m d _ _).congr rfl fun _ => isubOp_eq _ _ _
  | imul => cases h; exact ⟨_, rfl, s.tag_affScale _ _ _, fun _ hj => s.lane_affMul _ _ hj⟩
  | imulh n m => cases h; exact s.givesWord_map2 (imulhOp_eq m) d _ _
  | imac => cases h; exact s.givesWord_map3 imacOp_eq d _ _ _
  | imin n m => cases h; exact s.givesWord_map2 (iminOp_eq m) d _ _
  | imax n m => cases h; exact s.givesWord_map2 (imaxOp_eq m) d _ _
  | and | or | xor | andn => cases h; exact s.givesWord_map2 (fun _ _ => rfl) d _ _
  | shl =>
    cases h
    exact ⟨_, rfl, s.tag_affScale _ _ _, fun _ hj => (s.lane_affShl _ _ hj).trans (shlOp_eq _ _)⟩
  | shr => cases h; exact s.givesWord_map2 shrOp_eq d _ _
  | sar => cases h; exact s.givesWord_map2 sarOp_eq d _ _
  | rotl => cases h; exact s.givesWord_map2 rotlOp_eq d _ _
  | bfx n m => cases h; exact s.givesWord_map2 (bfxOp_eq m) d _ _
  | bfi => cases h; exact s.givesWord_map3 (fun x y z => bfiOp_eq z x y) d _ _ _
  | popc => cases h; exact (s.givesWord_map1 _ d _).congr (by simp [intShape]) fun _ => popcOp_eq _
  | clz => cases h; exact (s.givesWord_map1 _ d _).congr (by simp [intShape]) fun _ => clzOp_eq _
  | brev => cases h; exact (s.givesWord_map1 _ d _).congr (by simp [intShape]) fun _ => brevOp_eq _
  | mov => cases h; exact s.givesWord_val d _
  | _ => cases h

/-! ## Pairs (02 R54, R57, R58) -/

/-- The word of a list of uniform values, lane by lane, is the same in every lane. -/
theorem lane_getD_of_isU {v : List Val} (h : v.all Val.isU = true) (k j : Nat) :
    (v.getD k (.u 0)).lane j = (v.getD k (.u 0)).lane 0 := by
  refine Val.lane_of_isU ?_ j
  rw [List.getD_eq_getElem?_getD]
  cases hk : v[k]? with
  | none => rfl
  | some x => exact List.all_eq_true.mp h x (List.mem_of_getElem? hk)

theorem pairLane_of_isU {v : List Val} (h : v.all Val.isU = true) (j : Nat) : pairLane v j = pairLane v 0 := by
  rw [pairLane, lane_getD_of_isU h 0, lane_getD_of_isU h 1, ← pairLane]

theorem State.readN_two (s : State) (a : BitVec 7) : s.readN a 2 = [s.readWord a.toNat 0, s.readWord a.toNat 1] := rfl

theorem State.givesPair_pairOut (s : State) (d : BitVec 7) (u : Bool) (f : Nat → DWord) (hu : u = true → ∀ j, f j = f 0) :
    s.givesPair (.done (s.aluWrite d (s.pairOut u f))) d (fun _ => if u then 0 else 2) f := by
  have hl : ∀ j, j < s.lanes → pairLane (s.pairOut u f) j = f j := fun j hj => s.lane_pairOut u f hj fun h => hu h j
  cases u
  · exact ⟨_, _, rfl, ⟨rfl, rfl⟩, hl⟩
  · exact ⟨_, _, rfl, ⟨rfl, rfl⟩, hl⟩

/-- Tags and lanes of a pair may be given by equal ones. -/
theorem State.givesPair.congr {s : State} {r : Res} {d : BitVec 7} {t u : Nat → Nat} {f g : Nat → DWord} (h : s.givesPair r d t f)
    (ht : ∀ k, t k = u k) (hf : ∀ j, f j = g j) : s.givesPair r d u g := by
  rwa [← funext ht, ← funext hf]

/-- A function of two pairs (02 R57). -/
theorem State.givesPair_alu64 (s : State) {g f : DWord → DWord → DWord} (h : ∀ x y, g x y = f x y) (d a b : BitVec 7) :
    s.givesPair (s.alu64 g d a b) d (pairShape (.iadd64 0 d a b) (fun k => (s.readWord a.toNat k).tag)
      fun k => (s.readWord b.toNat k).tag) fun j => f (pairLane (s.readN a 2) j) (pairLane (s.readN b 2) j) := by
  refine (s.givesPair_pairOut d _ _ fun hu j => ?_).congr (fun _ => ?_) fun _ => h _ _
  · rw [List.all_append, Bool.and_eq_true] at hu
    rw [pairLane_of_isU hu.1 j, pairLane_of_isU hu.2 j]
  · simp only [State.readN_two, List.cons_append, List.nil_append, List.all_cons, List.all_nil, Val.isU_eq_tag, Bool.and_true,
      Bool.and_eq_true, decide_eq_true_eq, pairShape]

/-- The effect of a 64-bit integer instruction (02 R54, R57, R58). -/
theorem perform_pairResult (s : State) {i : Instr} {d a b : BitVec 7} {f : DWord → DWord → DWord}
    (h : pairResult i = some (d, a, b, f)) :
    s.givesPair (perform i s) d (pairShape i (fun k => (s.readWord a.toNat k).tag) fun k => (s.readWord b.toNat k).tag)
      fun j => f (pairLane (s.readN a 2) j) (pairLane (s.readN b 2) j) := by
  cases i with
  | iadd64 => cases h; exact s.givesPair_alu64 (fun _ _ => rfl) d a b
  | isub64 => cases h; exact s.givesPair_alu64 bv_sub_eq_ofInt d a b
  | mov64 => cases h; exact ⟨_, _, rfl, ⟨rfl, rfl⟩, fun _ _ => rfl⟩
  | iaddi64 _ _ n =>
    cases h
    refine (s.givesPair_pairOut d _ _ fun hu j => ?_).congr (fun _ => ?_) fun _ => bv_add_signExtend _ n
    · rw [pairLane_of_isU hu j]
    · simp only [State.readN_two, List.all_cons, List.all_nil, Val.isU_eq_tag, Bool.and_true, Bool.and_eq_true,
        decide_eq_true_eq, pairShape]
      exact if_congr (by tauto) rfl rfl
  | _ => cases h

/-! ## Immediates (02 R58, 04 R128) -/

/-- A word that no check stands against has legal fields and uniform operands where it needs them (01 R46). -/
theorem checkWord_none {s : State} {c : Class} {last : Bool} {i : Instr} (h : s.checkWord c last i = none) :
    fieldsLegal i = true ∧ s.unisOk i = true := by
  simp only [State.checkWord, ite_eq_iff, reduceCtorEq, and_false, false_or, Bool.or_eq_true, Bool.not_eq_true', not_or,
    Bool.not_eq_false] at h
  obtain ⟨-, ⟨hl, -⟩, -, -, -, ⟨-, hu⟩, -⟩ := h
  exact ⟨hl, hu⟩

/-- An operand of one word that must be uniform reads as a uniform value (01 R23). -/
theorem State.read_isU {s : State} {a : BitVec 7} (h : s.uniOk { src a 1 with uni := true } = true) : (s.read a).isU = true := by
  cases hacc : s.cur.acc
  case true => simp only [State.read, State.readWord, hacc, if_true]; split <;> rfl
  simp only [State.uniOk, src, hacc, Bool.not_true, Bool.false_eq_true, if_false] at h
  simp only [State.read, State.readWord, hacc, Bool.false_eq_true, if_false]
  by_cases hq : isQ a.toNat = true
  · simp only [hq, if_true] at h ⊢
    cases hl : (s.bun.queue (qNum a.toNat)).avail with
    | nil => rfl
    | cons v l => simpa [hl] using h
  · simp only [hq] at h ⊢
    by_cases hv : a.toNat < 0x60
    · simp only [hv, if_true, List.range_one, List.all_cons, List.all_nil, Bool.and_true, Nat.add_zero, State.readV] at h ⊢
      cases hr : s.bun.vreg a.toNat with
      | val x => simpa [hr] using h
      | spilled k => simp [hr] at h
    · simp [hv] at h

theorem zimm_eq (n : BitVec 11) : zimm n = BitVec.ofNat 32 n.toNat := (BitVec.ofNat_toNat 32 n).symm

theorem imm_shCount {n : BitVec 11} (h : n.toNat ≤ 31) : shCount (zimm n) = n.toNat := by
  rw [shCount, zimm, BitVec.toNat_setWidth]; omega

/-- LDIF puts its immediate above 14 zeros, LDI.HI above the low 18 bits of d (02 R58). -/
theorem ldif_eq (n : BitVec 18) : n ++ 0#14 = BitVec.ofNat 32 (n.toNat * 2 ^ 14) := by
  apply BitVec.eq_of_toNat_eq
  rw [BitVec.toNat_append]; simp [Nat.shiftLeft_eq]; omega

theorem ldiHi_eq (n : BitVec 14) (z : Word) :
    n ++ z.setWidth 18 = BitVec.ofNat 32 (n.toNat * 2 ^ 18 + z.toNat % 2 ^ 18) := by
  apply BitVec.eq_of_toNat_eq
  rw [BitVec.toNat_append, BitVec.toNat_setWidth, Nat.shiftLeft_eq, Nat.mul_comm,
    ← Nat.two_pow_add_eq_or_of_lt (Nat.mod_lt _ (Nat.two_pow_pos 18)), BitVec.toNat_ofNat]
  omega

/-- AFFINE counts up from its uniform source by its stride; a stride of zero gives tag U (04 R113, R128). -/
theorem State.givesWord_affine (s : State) (n : BitVec 11) (d : BitVec 7) {a : BitVec 7} (ha : (s.read a).isU = true) :
    s.givesWord (perfAffine d a n s) d (if n = 0#11 then 0 else 1)
      fun j => BitVec.ofInt 32 (((s.read a).lane j).toNat + j * n.toInt) := by
  refine (s.givesWord_val d _).congr (by split <;> rfl) fun j => ?_
  rw [BitVec.ofInt_add, BitVec.ofInt_natCast, BitVec.ofNat_toNat, BitVec.setWidth_eq, ← bv_ofNat_mul_signExtend,
    Val.lane_of_isU ha j]
  split
  · rename_i hn; subst hn; simp [Val.lane]
  · rfl

/-- The effect of an instruction with an immediate, where its fields are legal and its uniform operand uniform
(02 R57, R58, 04 R113, R128). -/
theorem perform_immResult (s : State) {i : Instr} {d a : BitVec 7} {f : Nat → Word → Word → Word}
    (h : immResult i = some (d, a, f)) (hl : fieldsLegal i = true) (hu : s.unisOk i = true) :
    s.givesWord (perform i s) d (immShape i (s.read a).tag (s.read d).tag)
      fun j => f j ((s.read a).lane j) ((s.read d).lane j) := by
  cases i with
  | iaddi _ _ n =>
    cases h
    exact ⟨_, rfl, s.tag_affAdd_u _ _ _, fun _ hj => (s.lane_affAdd _ _ hj).trans (bv_add_signExtend _ n)⟩
  | imuli _ _ n =>
    cases h
    exact ⟨_, rfl, s.tag_affScale_u _ _ _, fun _ hj => (s.lane_affMul _ _ hj).trans (bv_mul_signExtend _ n)⟩
  | andi | ori | xori => cases h; exact (s.givesWord_map1 _ d _).congr rfl fun _ => by rw [zimm_eq]
  | shli _ _ n =>
    cases h
    have hn := imm_shCount (of_decide_eq_true hl)
    exact ⟨_, rfl, s.tag_affScale_u _ _ _, fun _ hj => (s.lane_affShl _ _ hj).trans (by rw [shlOp_eq, Val.lane, hn])⟩
  | shri _ _ n =>
    cases h
    have hn := imm_shCount (of_decide_eq_true hl)
    exact (s.givesWord_map1 _ d _).congr rfl fun _ => by rw [shrOp_eq, hn]
  | sari _ _ n =>
    cases h
    have hn := imm_shCount (of_decide_eq_true hl)
    exact (s.givesWord_map1 _ d _).congr rfl fun _ => by rw [sarOp_eq, hn]
  | ldiLo _ n => cases h; exact (s.givesWord_val d _).congr rfl fun _ => (BitVec.ofNat_toNat 32 n).symm
  | ldiS _ n => cases h; exact s.givesWord_val d (.u (BitVec.ofInt 32 n.toInt))
  | ldif _ n => cases h; exact (s.givesWord_val d (.u (n ++ 0#14))).congr rfl fun _ => ldif_eq n
  | ldiHi _ n => cases h; exact (s.givesWord_map1 _ d _).congr rfl fun _ => ldiHi_eq n _
  | affine _ _ n =>
    cases h
    have ha : (s.read a).isU = true := State.read_isU (List.all_eq_true.mp hu _ (List.mem_singleton_self _))
    exact s.givesWord_affine n d ha
  | _ => cases h

/-! ## Words that write one register result -/

/-- Instruction i writes n words to d and no other register. -/
def resultAt (i : Instr) (d : BitVec 7) (n : Nat) : Prop :=
  (classOf i).isSome = true ∧ ∃ u : Use, (usesOf i).ws = [u] ∧ u.des = d.toNat ∧ u.n = n

theorem resultAt.vWords {i : Instr} {d : BitVec 7} {n : Nat} (h : resultAt i d n) :
    vWords i = if d.toNat < 0x60 then n else 0 := by
  obtain ⟨-, u, hu, hd, hn⟩ := h
  rw [Machine.vWords, hu, ← hd]
  by_cases hv : u.des < 0x60 <;> simp [hv, hn]

theorem intResult_resultAt {i : Instr} {d a b : BitVec 7} {f : Word → Word → Word → Word}
    (h : intResult i = some (d, a, b, f)) : resultAt i d 1 := by
  unfold intResult at h
  split at h <;> cases h <;> exact ⟨rfl, _, rfl, rfl, rfl⟩

theorem pairResult_resultAt {i : Instr} {d a b : BitVec 7} {f : DWord → DWord → DWord}
    (h : pairResult i = some (d, a, b, f)) : resultAt i d 2 := by
  unfold pairResult at h
  split at h <;> cases h <;> exact ⟨rfl, _, rfl, rfl, rfl⟩

theorem immResult_resultAt {i : Instr} {d a : BitVec 7} {f : Nat → Word → Word → Word}
    (h : immResult i = some (d, a, f)) : resultAt i d 1 := by
  unfold immResult at h
  split at h <;> cases h <;> exact ⟨rfl, _, rfl, rfl, rfl⟩

/-- A clear word whose effect is its result completes with it. -/
theorem exec_resultAt {s : State} {i : Instr} {d : BitVec 7} {vs : List Val} (h : resultAt i d vs.length)
    (hc : s.clear i = true) (hr : s.room i = true) (hp : perform i s.tick = .done (s.tick.aluWrite d vs)) :
    exec i s = .next ((s.tick.aluWrite d vs).close s.tick i) :=
  exec_alu h.1 hc hr hp (Nat.le_of_eq h.vWords.symm)

/-- What a word writes at its own clock is what it completes with. -/
theorem exec_givesWord {s : State} {i : Instr} {d : BitVec 7} {t : Nat} {f : Nat → Word} (h : resultAt i d 1)
    (hc : s.clear i = true) (hr : s.room i = true) (hp : s.tick.givesWord (perform i s.tick) d t f) :
    ∃ v : Val, exec i s = .next ((s.tick.aluWrite d [v]).close s.tick i) ∧ v.tag = t ∧ ∀ j, j < s.lanes → v.lane j = f j := by
  obtain ⟨v, hv, ht, hl⟩ := hp
  exact ⟨v, exec_resultAt h hc hr hv, ht, hl⟩

theorem exec_givesPair {s : State} {i : Instr} {d : BitVec 7} {t : Nat → Nat} {f : Nat → DWord} (h : resultAt i d 2)
    (hc : s.clear i = true) (hr : s.room i = true) (hp : s.tick.givesPair (perform i s.tick) d t f) :
    ∃ lo hi : Val, exec i s = .next ((s.tick.aluWrite d [lo, hi]).close s.tick i) ∧ (lo.tag = t 0 ∧ hi.tag = t 1) ∧
      ∀ j, j < s.lanes → pairLane [lo, hi] j = f j := by
  obtain ⟨lo, hi, hv, ht, hl⟩ := hp
  exact ⟨lo, hi, exec_resultAt h hc hr hv, ht, hl⟩

theorem clear_legal {s : State} {i : Instr} (h : s.clear i = true) : fieldsLegal i = true ∧ s.unisOk i = true :=
  checkWord_none (clear_check h)

/-- The clock is no part of what a word reads, a value in an automatic slot included (log 2). -/
theorem State.tick_readV (s : State) (r : Nat) : s.tick.readV r = s.readV r := (rfl)

theorem State.tick_readWord (s : State) (d j : Nat) : s.tick.readWord d j = s.readWord d j := by
  simp only [State.readWord, State.tick_readV]; rfl

theorem State.tick_read (s : State) (d : BitVec 7) : s.tick.read d = s.read d := s.tick_readWord d.toNat 0

theorem State.tick_readN (s : State) (d : BitVec 7) (n : Nat) : s.tick.readN d n = s.readN d n :=
  List.map_congr_left fun j _ => s.tick_readWord d.toNat j

theorem State.tick_unisOk (s : State) (i : Instr) : s.tick.unisOk i = s.unisOk i := (rfl)

/-- Settles O1: a clear word of each table performs one result, whose lanes and tags are those of the table, and completes with it. -/
theorem integerResults : Obligations.IntegerResults := by
  refine ⟨fun s i d a b f hi hc hr => ?_, fun s i d a b f hi hc hr => ?_, fun s i d a f hi hc hr => ?_⟩
  · have hp := perform_intResult s.tick hi
    simp only [State.tick_read] at hp
    exact exec_givesWord (intResult_resultAt hi) hc hr hp
  · have hp := perform_pairResult s.tick hi
    simp only [State.tick_readWord, State.tick_readN] at hp
    exact exec_givesPair (pairResult_resultAt hi) hc hr hp
  · obtain ⟨hl, hu⟩ := clear_legal hc
    have hp := perform_immResult s.tick hi hl ((s.tick_unisOk i).trans hu)
    simp only [State.tick_read] at hp
    exact exec_givesWord (immResult_resultAt hi) hc hr hp

/-! ## Writes of a k register (02 R52) -/

theorem onesMask_getLsbD (w j : Nat) : (onesMask w).getLsbD j = (decide (j < 64) && decide (j < w)) := by
  rw [onesMask, BitVec.getLsbD_ofNat, Nat.testBit_two_pow_sub_one]

theorem State.readK_putK_self (s : State) (n : Nat) (x m : DWord) : (s.putK n x m).readK n = x &&& onesMask s.lanes := by
  simp [State.readK, State.putK]

theorem State.readK_putK_ne (s : State) {n k : Nat} (x m : DWord) (h : k ≠ n) : (s.putK n x m).readK k = s.readK k := by
  simp [State.readK, State.putK, Tab.get_put_ne _ _ _ h]

/-- A write of a stream changes nothing outside the current bundle. -/
theorem State.outside_setStr (s : State) (x : Stream) : (s.setStr x).outside = s.outside := by
  simp [State.outside, State.setStr, State.setStream, State.setBun, State.setBundle, State.setGroup, State.group, Group.setBundle]

/-- A bit of a k register's old word and a condition joined under a mode (02 R52). -/
theorem modeWord_getLsbD (old c : DWord) (m j : Nat) :
    (if m = 0 then c else if m = 1 then old &&& c else old ||| c).getLsbD j =
      if m = 0 then c.getLsbD j else if m = 1 then old.getLsbD j && c.getLsbD j else old.getLsbD j || c.getLsbD j := by
  split
  · rfl
  · split
    · exact BitVec.getLsbD_and
    · exact BitVec.getLsbD_or

/-- Settles O8: the word that putK is given selects by EXEC between the joined bit and the old one, and putK cuts it at the lanes. -/
theorem maskModes : Obligations.MaskModes := by
  intro s n m c
  refine ⟨fun j hj h64 => ?_, fun j hj => ?_, fun k hk => s.readK_putK_ne _ _ hk, s.outside_setStr _⟩
  · rw [State.writeKMode, State.readK_putK_self, BitVec.getLsbD_and, onesMask_bit hj h64, BitVec.getLsbD_or, BitVec.getLsbD_and,
      BitVec.getLsbD_and, BitVec.getLsbD_not, modeWord_getLsbD]
    cases s.exec0.getLsbD j <;> simp [h64]
  · rw [State.writeKMode, State.readK_putK_self, BitVec.getLsbD_and, onesMask_getLsbD, decide_eq_false (Nat.not_lt.mpr hj),
      Bool.and_false, Bool.and_false]

end Sys2Proof.Machine
end

section
/-!
SUPPORT. Proof of the statement of the exchange between lanes: O10 (04 R120 to R123).
-/
namespace Sys2Proof.Machine
open Sys2Proof.Rules

/-! ## Shuffles (04 R113, R120, R121) -/

theorem State.laneOf_live (s : State) (x : Val) {k : Nat} (h : s.bun.live.getLsbD k = true) : s.laneOf x k = x.lane k := if_pos h

/-- The word a shuffle gives lane j where a reads x and b reads y: that of the lane picked, or x's own (04 R120, R121). -/
def State.shuffleWord (s : State) (pick : Nat → Nat → Option Nat) (x y : Val) (j : Nat) : Word :=
  match pick j (y.lane j).toNat with
  | some k => s.laneOf x k
  | none => x.lane j

/-- The value a shuffle writes: a uniform a as it stands where every lane is live, else the words of the lanes. -/
def State.shuffleVal (s : State) (pick : Nat → Nat → Option Nat) (x y : Val) : Val :=
  if x.isU = true ∧ s.bun.live = onesMask s.grp.w then x else .g ((List.range s.grp.w).map (s.shuffleWord pick x y))

theorem State.shuffle_eq (s : State) (pick : Nat → Nat → Option Nat) (d a b : BitVec 7) :
    s.shuffle pick d a b = .done (s.aluWrite d [s.shuffleVal pick (s.read a) (s.read b)]) := by
  rw [State.shuffle, State.shuffleVal]
  cases s.read a with
  | u x => simp only [Val.isU, true_and]; rfl
  | a x t => rfl
  | g l => rfl

/-- With every lane live the lanes picked, all below W, hold the one word of a uniform value. -/
theorem State.shuffleWord_of_isU {s : State} {pick : Nat → Nat → Option Nat} {x y : Val} (hw : s.grp.w ≤ 64)
    (hx : x.isU = true) (hlive : s.bun.live = onesMask s.grp.w) {j : Nat} (hpick : ∀ n k, pick j n = some k → k < s.grp.w) :
    s.shuffleWord pick x y j = x.lane j := by
  rw [State.shuffleWord]
  cases hk : pick j (y.lane j).toNat with
  | none => rfl
  | some k =>
    have hlt : k < s.grp.w := hpick _ k hk
    have hbit : s.bun.live.getLsbD k = true := by rw [hlive]; exact onesMask_bit hlt (Nat.lt_of_lt_of_le hlt hw)
    calc s.laneOf x k = x.lane k := s.laneOf_live x hbit
      _ = x.lane 0 := Val.lane_of_isU hx k
      _ = x.lane j := (Val.lane_of_isU hx j).symm

theorem State.lane_shuffleVal {s : State} {pick : Nat → Nat → Option Nat} (x y : Val) (hw : s.grp.w ≤ 64) {j : Nat}
    (hj : j < s.grp.w) (hpick : ∀ n k, pick j n = some k → k < s.grp.w) :
    (s.shuffleVal pick x y).lane j = s.shuffleWord pick x y j := by
  rw [State.shuffleVal]
  split
  · next h => exact (State.shuffleWord_of_isU hw h.1 h.2 hpick).symm
  · exact wordAt_map_range _ hj

/-- The lane that R121 names for a lane below W is below W. -/
theorem shuffleLane_lt {i : Instr} {w j n k : Nat} (hj : j < w) (h : shuffleLane i w j n = some k) : k < w := by
  cases i with
  | shflIdx | shflXor | shflDn =>
    obtain ⟨hlt, he⟩ := Option.ite_none_right_eq_some.mp h
    cases he
    exact hlt
  | shflUp =>
    obtain ⟨-, he⟩ := Option.ite_none_right_eq_some.mp h
    cases he
    exact Nat.lt_of_le_of_lt (Nat.sub_le j n) hj
  | _ => cases h

/-- Each of the four shuffles picks its source lanes by R121. -/
theorem perform_shuffleOps (s : State) {i : Instr} {d a b : BitVec 7} (h : shuffleOps i = some (d, a, b)) :
    perform i s = s.shuffle (shuffleLane i s.grp.w) d a b := by
  unfold shuffleOps at h
  split at h <;> cases h <;> rfl

theorem shuffleOps_resultAt {i : Instr} {d a b : BitVec 7} (h : shuffleOps i = some (d, a, b)) : resultAt i d 1 := by
  unfold shuffleOps at h
  split at h <;> cases h <;> exact ⟨rfl, _, rfl, rfl, rfl⟩

/-- A clear shuffle completes with the words of the lanes R121 names. -/
theorem exec_shuffleOps {s : State} {i : Instr} {d a b : BitVec 7} (h : shuffleOps i = some (d, a, b)) (hc : s.clear i = true)
    (hr : s.room i = true) :
    exec i s = .next ((s.tick.aluWrite d [s.shuffleVal (shuffleLane i s.grp.w) (s.read a) (s.read b)]).close s.tick i) := by
  have hp := (perform_shuffleOps s.tick h).trans (s.tick.shuffle_eq _ d a b)
  rw [State.tick_read, State.tick_read] at hp
  exact exec_resultAt (shuffleOps_resultAt h) hc hr hp

/-! ## BALLOT (04 R122) -/

/-- The number whose bits below w are a condition on the lanes. -/
def laneNum (w : Nat) (p : Nat → Bool) : Nat := (List.range w).foldl (fun n i => if p i then n + 2 ^ i else n) 0

theorem laneNum_succ (w : Nat) (p : Nat → Bool) : laneNum (w + 1) p = 2 ^ w * (p w).toNat + laneNum w p := by
  rw [laneNum, List.range_succ, List.foldl_append, List.foldl_cons, List.foldl_nil, ← laneNum]
  cases p w <;> simp [Nat.add_comm]

theorem laneNum_lt (w : Nat) (p : Nat → Bool) : laneNum w p < 2 ^ w := by
  induction w with
  | zero => exact Nat.one_pos
  | succ w ih =>
    have hbit : 2 ^ w * (p w).toNat ≤ 2 ^ w * 1 := Nat.mul_le_mul_left _ (p w).toNat_le
    rw [laneNum_succ]
    omega

theorem laneNum_testBit (w : Nat) (p : Nat → Bool) (j : Nat) : (laneNum w p).testBit j = (decide (j < w) && p j) := by
  induction w with
  | zero => simp [laneNum]
  | succ w ih =>
    rw [laneNum_succ, Nat.testBit_two_pow_mul_add _ (laneNum_lt w p), ih, Nat.testBit_bool_toNat]
    rcases Nat.lt_trichotomy j w with hj | rfl | hj
    · simp [hj, Nat.lt_succ_of_lt hj]
    · simp
    · simp [Nat.not_lt.mpr hj, Nat.not_lt.mpr (Nat.le_of_lt hj), Nat.sub_ne_zero_of_lt hj]

/-- A mask has the condition's bits in the lanes below W and no others. -/
theorem laneMask_getLsbD (w : Nat) (p : Nat → Bool) (j : Nat) :
    (laneMask w p).getLsbD j = (decide (j < 64) && (decide (j < w) && p j)) := by
  rw [laneMask, BitVec.getLsbD_ofNat, ← laneNum, laneNum_testBit]

/-- Settles O10: a shuffle writes shuffleVal, whose lanes are those R121 names; BALLOT writes a lane mask; READLANE one uniform
word. -/
theorem laneExchange : Obligations.LaneExchange := by
  refine ⟨fun s i d a b hi hc hr hw => ?_, fun s n d a b => ⟨fun hc hr => ?_, fun hc hr => ?_⟩⟩
  · refine ⟨_, exec_shuffleOps hi hc hr, fun j hj => ?_⟩
    rw [State.lane_shuffleVal _ _ hw hj fun _ _ => shuffleLane_lt hj]
    rfl
  · refine ⟨laneMask s.grp.w fun j => s.exec0.getLsbD j && (s.read a).lane j ≠ 0, ?_, fun j hj => ?_⟩
    · refine exec_quiet rfl hc hr ?_ (State.grows_writeK _ _ _)
      rw [← State.tick_read]; rfl
    · rw [laneMask_getLsbD, decide_eq_true hj, Bool.true_and, Bool.and_assoc]
  · refine exec_resultAt (vs := [_]) ⟨rfl, _, rfl, rfl, rfl⟩ hc hr ?_
    rw [← State.tick_read, ← State.tick_read]; rfl

end Sys2Proof.Machine
end
